-- ==== Sys2Proof/Word.lean ====
section
/-! DEFINITION. The plain types every other file counts in: a byte of a wire, a projector slot, an event class number. -/

namespace Sys2Proof

/-- One byte of a wire, a queue or an image record. -/
abbrev Byte := BitVec 8

/-- A projector slot, which is also the number of its output channel (00, Slots, nodes and triangles). -/
abbrev Slot := Fin 16

/-- The number of an event class of the Attention Unit (12, section 12.1). -/
abbrev ClassNumber := Fin 16

end Sys2Proof
end

