-- ==== Sys2Proof/Syntax.lean ====
section
/-! DEFINITION. The commands of the block: one constructor of `Instr` per row of spec/opcode_table.json. A request row
is the step in which the Request Executor takes that request from the head of the Request Queue (R188), so its
operands stand in the queue, as received; a report row is the same step of the Report Executor (R159). -/

namespace Sys2Proof

/-- A level of a projector's ready line (R135). -/
inductive ReadyLevel where
  | ready
  | notReady
  deriving DecidableEq, Repr

/-- One content sample: a level 0..1023 for each of red, green and blue (R116). -/
structure Sample where
  red : Nat
  green : Nat
  blue : Nat
  deriving DecidableEq, Repr

/-- The black sample, which an unlisted place of a `DomeFrame` holds. -/
def Sample.black : Sample := ⟨0, 0, 0⟩

/-- One complete dome frame of 4096 columns by 1024 rows (R117), as a sparse list in canonical form: the key of a
sample is row × 4096 + column, keys rise strictly, and a place not listed is black. -/
structure DomeFrame where
  cells : List (Nat × Sample)
  deriving DecidableEq, Repr

/-- The answer of the Memory Port to a fetch (R174). -/
inductive FetchResult where
  /-- The record's bytes, 8 for COMPACT and 10 for FULL. -/
  | data (bytes : List Byte)
  /-- The flash reported that the read failed. -/
  | readError
  /-- The flash did not answer within the response time. -/
  | noResponse
  deriving DecidableEq, Repr

/-- An event of a channel's synthesizer: the channel, and the number of the synthesizer's start that the event belongs to
(R125, R126; log 25). -/
structure SynthEvent where
  channel : Slot
  start : Nat
  deriving DecidableEq, Repr

/-- The commands: one constructor per row of the opcode table. -/
inductive Instr where
  /-- RESET_LINE (R191). -/
  | resetLine
  /-- SELECT_ASSERT (R183). -/
  | selectAssert
  /-- UNIT_HEADER (R184): the header byte shifted in. -/
  | unitHeader (header : Byte)
  /-- REQUEST_LENGTH (R185): the length byte shifted in. -/
  | requestLength (length : Byte)
  /-- REQUEST_PAYLOAD_BYTE (R185): the payload byte shifted in. -/
  | requestPayloadByte (value : Byte)
  /-- REPLY_BYTE (R186): the byte shifted in meanwhile is disregarded. -/
  | replyByte
  /-- SELECT_RELEASE (R187). -/
  | selectRelease
  /-- READ_NODE (R16). -/
  | readNode
  /-- READ_POINT (R18). -/
  | readPoint
  /-- PLACE_CURSOR (R20). -/
  | placeCursor
  /-- SET_WALK (R21). -/
  | setWalk
  /-- CLEAR_MAP (R24). -/
  | clearMap
  /-- SET_CLAIM (R54). -/
  | setClaim
  /-- DROP_CLAIM (R57). -/
  | dropClaim
  /-- APPLY_EDITS (R59). -/
  | applyEdits
  /-- WITHDRAW_EDITS (R63). -/
  | withdrawEdits
  /-- DISCARD_EDITS (R64). -/
  | discardEdits
  /-- READ_SOLVER (R50). -/
  | readSolver
  /-- ENROL_PROJECTOR (R77). -/
  | enrolProjector
  /-- FADE_PROJECTOR (R78). -/
  | fadeProjector
  /-- RETIRE_PROJECTOR (R85). -/
  | retireProjector
  /-- SET_RAMP (R93). -/
  | setRamp
  /-- READ_PROJECTOR (R94). -/
  | readProjector
  /-- SET_GAIN_FLOOR (R103). -/
  | setGainFloor
  /-- SET_GAIN_SLEW (R104). -/
  | setGainSlew
  /-- READ_GAINS (R105). -/
  | readGains
  /-- RESTART_OUTPUT (R132). -/
  | restartOutput
  /-- SET_FRAME_PERIOD (R147). -/
  | setFramePeriod
  /-- READ_FRAME (R148). -/
  | readFrame
  /-- SET_ALIGN_LINK (R164). -/
  | setAlignLink
  /-- CLEAR_ALIGN_ERRORS (R165). -/
  | clearAlignErrors
  /-- RESET_ALIGN_RECEIVER (R166). -/
  | resetAlignReceiver
  /-- READ_ALIGN_STATUS (R167). -/
  | readAlignStatus
  /-- LOAD_MESH (R169). -/
  | loadMesh
  /-- STOP_LOAD (R179). -/
  | stopLoad
  /-- RESUME_LOAD (R179). -/
  | resumeLoad
  /-- RESET_LOADER (R180). -/
  | resetLoader
  /-- READ_LOADER (R181). -/
  | readLoader
  /-- READ_EVENTS (R194). -/
  | readEvents
  /-- CLEAR_EVENTS (R195). -/
  | clearEvents
  /-- SET_EVENT_MASK (R193). -/
  | setEventMask
  /-- RESET_DEVICE (R191). -/
  | resetDevice
  /-- UNKNOWN_CODE (R189). -/
  | unknownCode
  /-- PERIOD_TIMER_EXPIRY (R143). -/
  | periodTimerExpiry
  /-- GENLOCK_PULSE (R144): the time of the pulse in microseconds from the end of the last reset. -/
  | genlockPulse (time : Nat)
  /-- LOSS_WATCHDOG_EXPIRY (R146). -/
  | lossWatchdogExpiry
  /-- SWAP (R66). -/
  | swap
  /-- FADE_STEP (R82). -/
  | fadeStep
  /-- GAIN_SLEW (R101). -/
  | gainSlew
  /-- QUOTA_RENEWAL (R171). -/
  | quotaRenewal
  /-- RASTER_FRAME_START (R106). -/
  | rasterFrameStart
  /-- SEND_PIXEL (R109): the channel that sends. -/
  | sendPixel (channel : Slot)
  /-- DOME_FRAME_COMPLETE (R117): the frame that completed. -/
  | domeFrameComplete (frame : DomeFrame)
  /-- DOME_FRAME_BAD_COUNT (R117): the wrong count of samples. -/
  | domeFrameBadCount (samples : Nat)
  /-- CONTENT_SIGNAL_LOST (R117). -/
  | contentSignalLost
  /-- CONTENT_SIGNAL_RETURN (R117). -/
  | contentSignalReturn
  /-- SOLVE_COMPLETION (R40). -/
  | solveCompletion
  /-- SYNTH_START_COMPLETION (R125): the channel, and the start that has completed. -/
  | synthStartCompletion (event : SynthEvent)
  /-- LOCK_INDICATION_RISE (R126): the channel, and the start after which the indication rose. -/
  | lockIndicationRise (event : SynthEvent)
  /-- LOCK_INDICATION_FALL (R126): the channel, and the start after which the indication fell. -/
  | lockIndicationFall (event : SynthEvent)
  /-- LOCK_TIMEOUT (R129). -/
  | lockTimeout (channel : Slot)
  /-- WINDOW_COMPLETION (R127): the periods counted in the window. -/
  | windowCompletion (channel : Slot) (count : Nat)
  /-- READY_RAW_CHANGE (R135): the level the raw line has changed to. -/
  | readyRawChange (channel : Slot) (level : ReadyLevel)
  /-- DEBOUNCE_EXPIRY (R135). -/
  | debounceExpiry (channel : Slot)
  /-- BYTE_COMPLETION (R150): the data bits, the parity bit and the stop bit as sampled (true is high). -/
  | byteCompletion (data : Byte) (parity : Bool) (stop : Bool)
  /-- LINE_IDLE (R151). -/
  | lineIdle
  /-- BREAK (R153). -/
  | lineBreak
  /-- ASSEMBLER_TAKE (R154). -/
  | assemblerTake
  /-- DRIFT_REPORT (R160). -/
  | driftReport
  /-- LUMA_REPORT (R162). -/
  | lumaReport
  /-- STEP_REPORT (R163). -/
  | stepReport
  /-- FETCH_COMPLETION (R174): the serial of the fetch that is answered, and the answer. -/
  | fetchCompletion (serial : Nat) (result : FetchResult)
  deriving DecidableEq, Repr

end Sys2Proof
end

