-- ==== Sys2Proof/Decode.lean ====
section
/-! DEFINITION. The decoder of command words. This block has no instruction decoder: no row of spec/opcode_table.json
gives bits (every row's "fields" is empty and none has "fixed"), so no word spells a command. The byte formats of
requests, image records and alignment reports are decoded by the blocks that own them (Machine/Operands.lean). -/

namespace Sys2Proof

/-- The command that a word spells by the table's bits: none, since no row gives bits. -/
def decodeTableWord (_nbits _w : Nat) : Option Instr := none

end Sys2Proof
end

