-- ==== Sys2Proof/Machine/Sparse.lean ====
section
/-! DEFINITION. A sparse store: a list of (key, value) pairs in one canonical form (keys strictly rising, no pair whose
value is what an unlisted key holds), so that equal stores are equal data. The node records (R1, R5) and the samples of
a dome frame (R117) are held so. -/

namespace Sys2Proof.Machine.Sparse

/-- The value at a key: the listed one, else the value `d` of an unlisted key. -/
def get {α : Type} (d : α) : List (Nat × α) → Nat → α
  | [], _ => d
  | (j, v) :: rest, k => if j = k then v else get d rest k

/-- The store without the key. -/
def erase {α : Type} (k : Nat) : List (Nat × α) → List (Nat × α)
  | [] => []
  | (j, v) :: rest => if j = k then erase k rest else (j, v) :: erase k rest

/-- The store with the pair placed before the first larger key. -/
def place {α : Type} (k : Nat) (v : α) : List (Nat × α) → List (Nat × α)
  | [] => [(k, v)]
  | (j, w) :: rest => if k < j then (k, v) :: (j, w) :: rest else (j, w) :: place k v rest

/-- Writing a value at a key; writing what an unlisted key holds takes the pair out. -/
def put {α : Type} [DecidableEq α] (d : α) (l : List (Nat × α)) (k : Nat) (v : α) : List (Nat × α) :=
  if v = d then erase k l else place k v (erase k l)

/-- Every key of the list lies above `k` and the keys rise strictly. -/
def rising {α : Type} : Option Nat → List (Nat × α) → Bool
  | _, [] => true
  | none, (j, _) :: rest => rising (some j) rest
  | some k, (j, _) :: rest => decide (k < j) && rising (some j) rest

/-- The canonical form. -/
def wf {α : Type} [DecidableEq α] (d : α) (l : List (Nat × α)) : Bool :=
  rising none l && l.all (fun e => decide (e.2 ≠ d))

end Sys2Proof.Machine.Sparse
end

