-- ==== Sys2Proof/Config.lean ====
section
/-! DEFINITION. The sizes and limits the spec fixes for this part. The spec leaves no value of the part open to an
implementation, so no constant here is a free value. -/

namespace Sys2Proof.Config

/-- The node index of the zenith node Z (R1). -/
def zenith : Nat := 2048

/-- Claims one node can hold (R11). -/
def listLimit : Nat := 4

/-- Requests the Request Queue can hold (R182). -/
def requestLimit : Nat := 4

/-- Replies the Reply Queue can hold (R182). -/
def replyLimit : Nat := 8

/-- Entries of the alignment byte FIFO (R149). -/
def fifoLimit : Nat := 4

/-- Entries of the Measurement Queue (R158). -/
def measurementLimit : Nat := 16

/-- The lead byte of an alignment report (R154). -/
def leadByte : BitVec 8 := 0xA5#8

/-- One, in the unit of weights and of gains (00, Units). -/
def unity : Nat := 4096

/-- The highest affinity and pin (00, Units). -/
def affinityMax : Nat := 1023

/-- The shortest frame period and pulse spacing, in microseconds (R141, R144). -/
def minPeriod : Nat := 8000

/-- The longest frame period and pulse spacing, in microseconds (R141, R144). -/
def maxPeriod : Nat := 50000

/-- The largest comparator count that is recorded (R127). -/
def maxComparatorCount : Nat := 1048575

/-- Image addresses of the serial flash, which wrap (R174, R176). -/
def addressSpace : Nat := 16777216

/-- Columns of a dome frame (R117). -/
def frameColumns : Nat := 4096

/-- Samples of a dome frame (R117). -/
def frameSamples : Nat := 4194304

/-- The highest content level and drive (00, Units). -/
def levelMax : Nat := 1023

/-- Where the quota count stops (R170). -/
def quotaMax : Nat := 4095

end Sys2Proof.Config
end

