-- ==== Sys2Proof/Machine/State.lean ====
section
/-! DEFINITION. The state of the OF1620 as plain data: every piece of state the spec gives the part, block by block, the
events it can raise, and the values after reset. The list in INVENTORY.md names each field's rule and reset value. -/

namespace Sys2Proof.Machine

/-! ### The Dome Map (chapter 1) -/

/-- A position in a projector's raster, 0..65535 each, in 1/16 pixel (R8). -/
structure Pos where
  u : Nat
  v : Nat
  deriving DecidableEq, Repr

/-- A trim, −2048..+2047 each, in 1/16 pixel (R8). -/
structure Trim where
  tu : Int
  tv : Int
  deriving DecidableEq, Repr

/-- A pending pin change of a claim: set to a value 0..1023, or clear (R8). -/
inductive PinChange where
  | set (value : Nat)
  | clear
  deriving DecidableEq, Repr

/-- A claim record (R8). -/
structure Claim where
  projector : Slot
  livePos : Option Pos
  pendingPos : Option Pos
  liveTrim : Trim
  nextTrim : Option Trim
  livePin : Option Nat
  pendingPin : Option PinChange
  pendingNew : Bool
  pendingRemoval : Bool
  withdrawn : Bool
  liveWeight : Nat
  nextWeight : Nat
  deriving DecidableEq, Repr

/-- The condition of a node (R6). -/
inductive Condition where
  | unclaimed
  | dark
  | covered
  deriving DecidableEq, Repr

/-- The two classes of the Solve Queue (R28). -/
inductive QueueClass where
  | normal
  | urgent
  deriving DecidableEq, Repr

/-- A node record (R5). -/
structure Node where
  claims : List Claim
  condition : Condition
  openMark : Bool
  groupMark : Bool
  queued : Option QueueClass
  inFlight : Bool
  dirty : Bool
  nextValid : Bool
  deriving DecidableEq, Repr

/-- The node record after reset (R26): what an index not listed in `DomeMap.nodes` holds. -/
def Node.initial : Node :=
  { claims := [], condition := .unclaimed, openMark := false, groupMark := false, queued := none,
    inFlight := false, dirty := false, nextValid := false }

/-- The walk direction of the Map Cursor (R20). -/
inductive Walk where
  | east
  | west
  | north
  | south
  deriving DecidableEq, Repr

/-- The Dome Map (R5, R12, R20). The cursor is a node index 0..2048. -/
structure DomeMap where
  nodes : List (Nat × Node)
  freeCount : Nat
  cursor : Nat
  remembered : Nat
  walk : Walk
  deriving DecidableEq, Repr

/-! ### The Projector Table (chapters 4 and 5) -/

/-- The state of a projector (R73). -/
inductive ProjState where
  | vacant
  | parked
  | fadingIn
  | live
  | fadingOut
  | failed
  | retiring
  deriving DecidableEq, Repr

/-- Why a projector failed (R73). -/
inductive FailCause where
  | line
  | lockLost
  | lockFailed
  deriving DecidableEq, Repr

/-- A fade record (R73, R80): start, target, length, elapsed boundaries, retire-after flag. -/
structure Fade where
  start : Nat
  target : Nat
  length : Nat
  elapsed : Nat
  retireAfter : Bool
  deriving DecidableEq, Repr

/-- A projector record (R73). -/
structure Projector where
  state : ProjState
  width : Nat
  height : Nat
  ramp : Nat
  pixelClock : Nat
  autoFailover : Bool
  phi : Nat
  fade : Option Fade
  claimCount : Nat
  failover : Nat
  failCause : Option FailCause
  luminance : Option Nat
  gainTarget : Nat
  gainLive : Nat
  limited : Bool
  deriving DecidableEq, Repr

/-- The projector record after reset (R73). -/
def Projector.initial : Projector :=
  { state := .vacant, width := 256, height := 256, ramp := 256, pixelClock := 25000, autoFailover := false,
    phi := 0, fade := none, claimCount := 0, failover := 0, failCause := none, luminance := none,
    gainTarget := 4096, gainLive := 4096, limited := false }

/-- The gain settings of the whole part (R95). -/
structure GainSettings where
  floor : Nat
  slew : Nat
  deriving DecidableEq, Repr

/-! ### The Weight Solver (chapter 2) -/

/-- What a solve reads of a projector (R36). -/
structure ReadProjector where
  state : ProjState
  phi : Nat
  width : Nat
  height : Nat
  ramp : Nat
  deriving DecidableEq, Repr

/-- What a solve reads of one claim of its node: the claim, and the projector it names (R36). -/
structure ReadClaim where
  claim : Claim
  projector : ReadProjector
  deriving DecidableEq, Repr

/-- The solve in flight (R27): its node, the class it was taken from, the group mark and the claims as read. -/
structure Flight where
  node : Nat
  cls : QueueClass
  member : Bool
  claims : List ReadClaim
  deriving DecidableEq, Repr

/-- The Weight Solver (R27, R28). -/
structure Solver where
  urgent : List Nat
  normal : List Nat
  flight : Option Flight
  deriving DecidableEq, Repr

/-! ### Edit Control (chapter 3) -/

/-- The state of the sealed group (R52). -/
inductive GroupState where
  | none
  | solving
  | ready
  deriving DecidableEq, Repr

/-- Edit Control (R52). The open set and the group are the nodes that carry the marks. -/
structure EditControl where
  groupState : GroupState
  members : Nat
  readyCount : Nat
  applyWaiting : Bool
  deriving DecidableEq, Repr

/-! ### The Raster Engine and the Content Input (chapter 6) -/

/-- The part of the frame view that belongs to a slot (R107). -/
structure SlotView where
  vacant : Bool
  width : Nat
  height : Nat
  gainLive : Nat
  deriving DecidableEq, Repr

/-- A place in a projector's raster in 1/16 pixel, as signed integers (R10). -/
structure Place where
  x : Int
  y : Int
  deriving DecidableEq, Repr

/-- The part of the frame view that belongs to a claim (R107). -/
structure ClaimView where
  projector : Slot
  pendingNew : Bool
  place : Option Place
  weight : Nat
  deriving DecidableEq, Repr

/-- A raster frame in progress: the frame view (R107) and the content frame taken (R118). -/
structure RasterFrame where
  slots : Vector SlotView 16
  nodes : List (Nat × List ClaimView)
  content : Option DomeFrame
  deriving DecidableEq, Repr

/-- A pixel on a pixel link: its place in the raster and its three drives (R109). -/
structure Pixel where
  x : Nat
  y : Nat
  red : Nat
  green : Nat
  blue : Nat
  deriving DecidableEq, Repr

/-- The Raster Engine (R106): the raster frame, per channel the number of the next pixel to be sent (absent: not drawn),
and the pixel last placed on each link in the stream in progress. -/
structure Raster where
  frame : Option RasterFrame
  streams : Vector (Option Nat) 16
  links : Vector (Option Pixel) 16
  deriving DecidableEq, Repr

/-- The content status (R117). -/
inductive ContentStatus where
  | present
  | absent
  deriving DecidableEq, Repr

/-- The Content Input (R117). `receiving` is the dome frame being received: its samples so far, in the order in which they
came, empty when none has come (log 14). `signal` is the level of the content link, an input. -/
structure Content where
  status : ContentStatus
  receiving : List Sample
  latest : Option DomeFrame
  signal : Bool
  deriving DecidableEq, Repr

/-! ### The Output Channels (chapter 7) -/

/-- The lock state of a channel (R123). -/
inductive LockState where
  | off
  | starting
  | awaitLock
  | validating
  | locked
  | lockFailed
  deriving DecidableEq, Repr

/-- The taken ready level of a channel (R123). -/
inductive TakenLevel where
  | unsettled
  | ready
  | notReady
  deriving DecidableEq, Repr

/-- The debounce of a channel's ready line (R123, R135). -/
inductive Debounce where
  | quiet
  | settling (candidate : ReadyLevel)
  deriving DecidableEq, Repr

/-- An Output Channel (R123). `raw` is the raw ready level, an input. `starts` counts the starts of its synthesizer since
power-on; it is the model's own, and tells the events of an earlier start from those of the last (log 25). -/
structure Channel where
  lock : LockState
  attempts : Nat
  lastCount : Option Nat
  expected : Nat
  tolerance : Nat
  taken : TakenLevel
  debounce : Debounce
  changeFlag : Bool
  raw : ReadyLevel
  starts : Nat
  deriving DecidableEq, Repr

/-- The channel after a reset that finds the raw ready level `raw` (R123, R137), the count of synthesizer starts kept. -/
def Channel.afterReset (raw : ReadyLevel) (starts : Nat) : Channel :=
  { lock := .off, attempts := 0, lastCount := none, expected := 0, tolerance := 0, taken := .unsettled,
    debounce := .settling raw, changeFlag := false, raw := raw, starts := starts }

/-! ### The Frame Timer (chapter 8) -/

/-- The state of the Frame Timer (R141). -/
inductive TimerState where
  | seeking
  | genlocked
  | freeRun
  deriving DecidableEq, Repr

/-- The Frame Timer (R141). Times are in microseconds from the end of the last reset. -/
structure FrameTimer where
  state : TimerState
  period : Nat
  expiry : Option Nat
  measured : Option Nat
  lastPulse : Option Nat
  watchdog : Option Nat
  run : List Nat
  counter : BitVec 32
  content : ContentStatus
  deriving DecidableEq, Repr

/-- The boundary deliveries that each consumer has still to take, and whether a raster frame start is owed (R142). -/
structure Owed where
  swap : Nat
  fade : Nat
  slew : Nat
  quota : Nat
  raster : Bool
  deriving DecidableEq, Repr

/-! ### The Alignment Port (chapter 9) -/

/-- The line rate (R149). -/
inductive LineRate where
  | r115200
  | r230400
  | r460800
  | r921600
  deriving DecidableEq, Repr

/-- The error mode (R149). -/
inductive ErrorMode where
  | discardReport
  | halt
  deriving DecidableEq, Repr

/-- The receiver state (R149). -/
inductive ReceiverState where
  | disabled
  | listening
  | halted
  | lineDown
  deriving DecidableEq, Repr

/-- The resume state of LINE_DOWN (R149). -/
inductive ResumeState where
  | listening
  | halted
  deriving DecidableEq, Repr

/-- A set of alignment errors (R149). -/
structure ErrorSet where
  parity : Bool
  framing : Bool
  overrun : Bool
  stray : Bool
  badType : Bool
  queueFull : Bool
  deriving DecidableEq, Repr

/-- The empty error set. -/
def ErrorSet.empty : ErrorSet :=
  { parity := false, framing := false, overrun := false, stray := false, badType := false, queueFull := false }

/-- An entry of the byte FIFO (R149). -/
structure FifoEntry where
  value : Byte
  parityError : Bool
  framingError : Bool
  gap : Bool
  deriving DecidableEq, Repr

/-- The type of an alignment report (section 9.3). -/
inductive ReportType where
  | drift
  | luma
  | step
  deriving DecidableEq, Repr

/-- A report being assembled (R149, R155). -/
structure PartialReport where
  type : ReportType
  bytes : List Byte
  faulty : Bool
  flags : ErrorSet
  deriving DecidableEq, Repr

/-- The report assembler (R149). -/
inductive Assembler where
  | seekLead
  | readType
  | readPayload (report : PartialReport)
  deriving DecidableEq, Repr

/-- A clean report, its fields as received (section 9.3). -/
inductive Report where
  | drift (projector ring sector : Byte) (du dv : Int)
  | luma (projector : Byte) (luminance : Nat)
  | step
  deriving DecidableEq, Repr

/-- The outcome of an executed report (R159). -/
inductive ReportOutcome where
  | applied
  | saturated
  | noTarget
  | credited
  | ignored
  deriving DecidableEq, Repr

/-- The Alignment Port (R149). -/
structure AlignPort where
  rate : LineRate
  mode : ErrorMode
  enable : Bool
  receiver : ReceiverState
  resume : Option ResumeState
  synced : Bool
  gapPending : Bool
  fifo : List FifoEntry
  assembler : Assembler
  errors : ErrorSet
  queue : List Report
  last : Option (Report × ReportOutcome)
  deriving DecidableEq, Repr

/-- The Alignment Port after reset (R149). -/
def AlignPort.initial : AlignPort :=
  { rate := .r115200, mode := .discardReport, enable := false, receiver := .disabled, resume := none,
    synced := false, gapPending := false, fifo := [], assembler := .seekLead, errors := .empty, queue := [],
    last := none }

/-! ### The Mesh Loader (chapter 10) -/

/-- The loader state (R168). -/
inductive LoaderState where
  | idle
  | running
  | held
  | waiting
  deriving DecidableEq, Repr

/-- What a WAITING loader waits for (R168). -/
inductive WaitReason where
  | quota
  | step
  | yield
  deriving DecidableEq, Repr

/-- The record format of a load (R169). -/
inductive RecordFormat where
  | compact
  | full
  deriving DecidableEq, Repr

/-- The pacing kind of a load (R169). -/
inductive Pacing where
  | burst
  | perFrame
  | step
  deriving DecidableEq, Repr

/-- The descriptor of a load (R169). `count` is the field as given, 0..65,535, where 0 means 65,536. -/
structure Descriptor where
  start : Nat
  count : Nat
  format : RecordFormat
  pacing : Pacing
  quota : Nat
  honourEnd : Bool
  applyAtEnd : Bool
  deriving DecidableEq, Repr

/-- A fetch in flight: its serial and the address of its record (R168, R174). The addresses of the record's bytes are
`Loader.asked`. -/
structure Fetch where
  serial : Nat
  address : Nat
  deriving DecidableEq, Repr

/-- The outcome of a load (R168). -/
inductive LoadOutcome where
  | none
  | doneCount
  | doneEnd
  | faultFetch
  | faultStore
  | reset
  deriving DecidableEq, Repr

/-- Why a load faulted, in the order of R197's list. -/
inductive FaultReason where
  | badNode
  | badProjector
  | state
  | sealed
  | listFull
  | poolFull
  | noClaim
  | badRecord
  | readError
  | noResponse
  deriving DecidableEq, Repr

/-- The result of the apply at end (R168, R178). -/
inductive ApplyResult where
  | notAsked
  | sealed (size : Nat)
  | empty
  | deferred
  deriving DecidableEq, Repr

/-- The Mesh Loader (R168). `serial` counts the fetches begun since power-on; it is the model's own. -/
structure Loader where
  state : LoaderState
  reason : Option WaitReason
  descriptor : Option Descriptor
  nextAddress : Nat
  remaining : Nat
  stored : Nat
  fetch : Option Fetch
  stopPending : Bool
  quotaUsed : Nat
  outcome : LoadOutcome
  fault : Option (Nat × FaultReason)
  applyResult : ApplyResult
  serial : Nat
  deriving DecidableEq, Repr

/-- The Mesh Loader after reset (R168), the count of fetches begun so far kept. -/
def Loader.afterReset (serial : Nat) : Loader :=
  { state := .idle, reason := none, descriptor := none, nextAddress := 0, remaining := 0, stored := 0,
    fetch := none, stopPending := false, quotaUsed := 0, outcome := .none, fault := none,
    applyResult := .notAsked, serial := serial }

/-! ### The Attention Unit (chapter 12) -/

/-- Why a request never reached the Request Queue (R185, R187). -/
inductive DropReason where
  | dropped
  | truncated
  | malformed
  deriving DecidableEq, Repr

/-- An event with its detail, one constructor per class in class order (section 12.1). -/
inductive Event where
  | darkNode (node : Nat)
  | swapDone (members : Nat)
  | failover (slot : Slot)
  | projFault (slot : Slot) (cause : FailCause)
  | projRecover (slot : Slot)
  | lockFail (slot : Slot)
  | fadeDone (slot : Slot) (retired : Bool)
  | trimLimit (node : Nat)
  | gainLimit (slot : Slot)
  | loadDone (outcome : LoadOutcome) (stored : Nat)
  | loadFault (outcome : LoadOutcome) (index : Nat) (reason : FaultReason)
  | alignError (errors : ErrorSet)
  | alignLine (up : Bool)
  | genlock (regained : Bool)
  | portDrop (reason : DropReason)
  | offRaster (node : Nat)
  deriving DecidableEq, Repr

/-- What the Attention Unit holds for one class (R192). -/
structure EventRecord where
  status : Bool
  mask : Bool
  overflow : Bool
  detail : Option Event
  deriving DecidableEq, Repr

/-- A class after reset (R192). -/
def EventRecord.initial : EventRecord :=
  { status := false, mask := false, overflow := false, detail := none }

/-! ### The Control Port (chapter 11) -/

/-- The result codes, in the order of section 13.1. -/
inductive ResultCode where
  | ok
  | busy
  | sealed
  | noGroup
  | badNode
  | badProjector
  | state
  | poolFull
  | listFull
  | noClaim
  | unknown
  | badLength
  deriving DecidableEq, Repr

/-- A request in the Request Queue: code, tag and fields as received; its length is 2 + the number of field bytes
(R182, R185). -/
structure Request where
  code : Byte
  tag : Byte
  fields : List Byte
  deriving DecidableEq, Repr

/-- A reply in the Reply Queue (R182). -/
structure Reply where
  tag : Byte
  result : ResultCode
  fields : List Byte
  deriving DecidableEq, Repr

/-- The transaction state (R182). -/
inductive TxnState where
  | noSelect
  | awaitHeader
  | readLength
  | readPayload
  | sendReply
  | ignoring
  deriving DecidableEq, Repr

/-- The partial request (R182). -/
structure PartialRequest where
  header : Byte
  length : Option Nat
  bytes : List Byte
  deriving DecidableEq, Repr

/-- The fetch in progress (R182): the reply being sent or none, and the bytes shifted out so far, length byte first. -/
structure FetchProgress where
  reply : Option Reply
  sent : Nat
  deriving DecidableEq, Repr

/-- The Control Port (R182). -/
structure ControlPort where
  requests : List Request
  replies : List Reply
  txn : TxnState
  partialReq : Option PartialRequest
  fetch : Option FetchProgress
  cont : Bool
  statusByte : Option Byte
  shiftedOut : Option Byte
  deriving DecidableEq, Repr

/-- The Control Port after a reset that leaves the transaction in `txn` (R182). -/
def ControlPort.afterReset (txn : TxnState) : ControlPort :=
  { requests := [], replies := [], txn := txn, partialReq := none, fetch := none, cont := false,
    statusByte := none, shiftedOut := none }

/-! ### What the blocks answer each other -/

/-- The pin field of a SET CLAIM or a CLAIM record (R54, R175). -/
inductive PinField where
  | absent
  | value (pin : Nat)
  | clear
  deriving DecidableEq, Repr

/-- What a SET CLAIM that is taken did (R54). -/
inductive SetOutcome where
  | created
  | updated
  | restored
  deriving DecidableEq, Repr

/-- What a DROP CLAIM that is taken did (R57). -/
inductive DropOutcome where
  | freed
  | marked
  deriving DecidableEq, Repr

/-- The answer of Edit Control to a SET CLAIM: refused with a result code, or taken (R54). -/
inductive SetAnswer where
  | refused (code : ResultCode)
  | taken (outcome : SetOutcome)
  deriving DecidableEq, Repr

/-- The answer of Edit Control to a DROP CLAIM: refused with a result code, or taken (R57). -/
inductive DropAnswer where
  | refused (code : ResultCode)
  | taken (outcome : DropOutcome)
  deriving DecidableEq, Repr

/-- The answer of Edit Control to an APPLY EDITS: refused with BUSY, or the size of the group sealed (R59). -/
inductive ApplyAnswer where
  | busy
  | sealed (size : Nat)
  deriving DecidableEq, Repr

/-- A mesh image record as decoded (R175). -/
inductive MeshRecord where
  | claim (slot ring sector : Nat) (pos : Pos) (pin : PinField)
  | drop (slot ring sector : Nat)
  | endMark
  | bad
  deriving DecidableEq, Repr

/-- What a reply carries after its tag (R188, R189). -/
structure Answer where
  result : ResultCode
  fields : List Byte
  deriving DecidableEq, Repr

/-- A point of the dome placed in a triangle with its barycentric coordinates (R3, R4). -/
structure DomePlace where
  triangle : Nat
  b0 : Nat
  b1 : Nat
  b2 : Nat
  deriving DecidableEq, Repr

/-- A pixel found in a cover triangle with its barycentric coordinates (R111, R112). -/
structure Hit where
  triangle : Nat
  b0 : Nat
  b1 : Nat
  b2 : Nat
  deriving DecidableEq, Repr

end Sys2Proof.Machine

/-! ### The whole part -/

namespace Sys2Proof.Machine

/-- The state of the part, and the queue of the commands that wait for it. -/
structure State where
  pending : List Instr
  dome : DomeMap
  solver : Solver
  edit : EditControl
  projectors : Vector Projector 16
  gain : GainSettings
  raster : Raster
  content : Content
  channels : Vector Channel 16
  timer : FrameTimer
  owed : Owed
  align : AlignPort
  loader : Loader
  port : ControlPort
  attention : Vector EventRecord 16
  deriving DecidableEq, Repr

/-- No event of this part ends in a fault: the manual gives every error an effect (a result code, an error flag, an
event), so this type has no constructor and nothing raises one. -/
inductive Fault where
  deriving DecidableEq, Repr

/-- Why the model has no meaning for a command. -/
inductive Refusal where
  /-- Raised by an arm of `exec` for a command that is not modelled yet. Safe: nothing can be proved of it. No arm
  raises it now. -/
  | notModelled (mnemonic : String)
  deriving DecidableEq, Repr

/-- The part right after reset (R26, R27, R52, R73, R95, R106, R117, R123, R141, R149, R168, R182, R192). DESIGN CHOICE
(log 7): the ready lines stand at not-ready and the content link carries its signal; these are input levels, for which
the spec gives no reset value. -/
def State.reset : State :=
  { pending := []
    dome := { nodes := [], freeCount := 6144, cursor := 0, remembered := 0, walk := .east }
    solver := { urgent := [], normal := [], flight := none }
    edit := { groupState := .none, members := 0, readyCount := 0, applyWaiting := false }
    projectors := Vector.replicate 16 Projector.initial
    gain := { floor := 3072, slew := 64 }
    raster := { frame := none, streams := Vector.replicate 16 none, links := Vector.replicate 16 none }
    content := { status := .absent, receiving := [], latest := none, signal := true }
    channels := Vector.replicate 16 (Channel.afterReset .notReady 0)
    timer :=
      { state := .seeking, period := 16667, expiry := some 16667, measured := none, lastPulse := none,
        watchdog := none, run := [], counter := 0#32, content := .absent }
    owed := { swap := 0, fade := 0, slew := 0, quota := 0, raster := false }
    align := AlignPort.initial
    loader := Loader.afterReset 0
    port := ControlPort.afterReset .noSelect
    attention := Vector.replicate 16 EventRecord.initial }

end Sys2Proof.Machine
end

