-- ==== Sys2Proof/Machine/Ops.lean ====
section
/-! DEFINITION. The named operations on the parts of State that every block uses: reading and changing a node record, a
projector record, a channel; the claims of a node and of a projector; raising an event at the Attention Unit. -/

namespace Sys2Proof.Machine

/-- The slots 0..15 in ascending order. -/
def slots : List Slot := [0, 1, 2, 3, 4, 5, 6, 7, 8, 9, 10, 11, 12, 13, 14, 15]

/-- The node indices 0..2048 in ascending order (R1). -/
def nodeIndices : List Nat := List.range 2049

/-- The slot a byte or field names; a value above 15 names none (R190). -/
def slotOf (b : Nat) : Option Slot := if h : b < 16 then some ⟨b, h⟩ else none

/-- A value clamped to low..high (00, Numbers and arithmetic). -/
def clamp (low high x : Nat) : Nat := max low (min high x)

/-! ### Node records -/

/-- The record of a node (R5). -/
def State.node (s : State) (n : Nat) : Node := Sparse.get Node.initial s.dome.nodes n

/-- The state with a node's record replaced. -/
def State.putNode (s : State) (n : Nat) (r : Node) : State :=
  { s with dome := { s.dome with nodes := Sparse.put Node.initial s.dome.nodes n r } }

/-- The state with a node's record changed. -/
def State.modNode (s : State) (n : Nat) (f : Node → Node) : State := s.putNode n (f (s.node n))

/-- The state with the Claim Pool's free count replaced (R12). -/
def State.setFree (s : State) (k : Nat) : State := { s with dome := { s.dome with freeCount := k } }

/-! ### Projector records and channels -/

/-- The record of a slot (R73). -/
def State.proj (s : State) (p : Slot) : Projector := s.projectors.get p

/-- The state with a slot's record changed. -/
def State.modProj (s : State) (p : Slot) (f : Projector → Projector) : State :=
  { s with projectors := s.projectors.set p.val (f (s.proj p)) p.isLt }

/-- The Output Channel of a slot (R123). -/
def State.chan (s : State) (p : Slot) : Channel := s.channels.get p

/-- The state with a slot's channel changed. -/
def State.modChan (s : State) (p : Slot) (f : Channel → Channel) : State :=
  { s with channels := s.channels.set p.val (f (s.chan p)) p.isLt }

/-- A projector is contributing in FADING_IN, LIVE and FADING_OUT (R74). -/
def ProjState.contributing : ProjState → Bool
  | .fadingIn | .live | .fadingOut => true
  | .vacant | .parked | .failed | .retiring => false

/-! ### Claims -/

/-- A claim without the pending-new mark is live (R6, R10). -/
def Claim.live (c : Claim) : Bool := !c.pendingNew

/-- The live place of a claim: live position plus live trim, as signed integers (R10). -/
def Claim.place (c : Claim) : Option Place :=
  c.livePos.map fun q => { x := (q.u : Int) + c.liveTrim.tu, y := (q.v : Int) + c.liveTrim.tv }

/-- The claim of a projector in a claim list (R11). -/
def claimBy (cs : List Claim) (p : Slot) : Option Claim := cs.find? fun c => c.projector == p

/-- The node's list holds a claim naming the projector, whatever its marks (R34). -/
def Node.claimedBy (r : Node) (p : Slot) : Bool := r.claims.any fun c => c.projector == p

/-- Every node the projector claims, in ascending node index (R34). -/
def State.claimNodes (s : State) (p : Slot) : List Nat := nodeIndices.filter fun n => (s.node n).claimedBy p

/-- The node's list with the projector's claim changed (R11). -/
def Node.modClaim (r : Node) (p : Slot) (f : Claim → Claim) : Node :=
  { r with claims := r.claims.map fun c => if c.projector == p then f c else c }

/-- The node's list without the projector's claim; the others close up in their order (R11). -/
def Node.dropClaim (r : Node) (p : Slot) : Node :=
  { r with claims := r.claims.filter fun c => c.projector != p }

/-- A claim placed in an ascending list at the place its slot gives it (R11). -/
def insertClaim (c : Claim) : List Claim → List Claim
  | [] => [c]
  | d :: rest => if c.projector < d.projector then c :: d :: rest else d :: insertClaim c rest

/-- The condition that the live claims of a list give a node (R6). -/
def conditionOf (cs : List Claim) : Condition :=
  let live := cs.filter Claim.live
  if live.isEmpty then .unclaimed
  else if live.all fun c => c.liveWeight == 0 then .dark
  else .covered

/-! ### Raising an event -/

/-- The class of an event (section 12.1). -/
def Event.cls : Event → ClassNumber
  | .darkNode _ => 0
  | .swapDone _ => 1
  | .failover _ => 2
  | .projFault _ _ => 3
  | .projRecover _ => 4
  | .lockFail _ => 5
  | .fadeDone _ _ => 6
  | .trimLimit _ => 7
  | .gainLimit _ => 8
  | .loadDone _ _ => 9
  | .loadFault _ _ _ => 10
  | .alignError _ => 11
  | .alignLine _ => 12
  | .genlock _ => 13
  | .portDrop _ => 14
  | .offRaster _ => 15

/-- What a class holds after a raising: the first detail is kept, later ones set the overflow flag (R192). -/
def EventRecord.take (r : EventRecord) (e : Event) : EventRecord :=
  if r.status then { r with overflow := true } else { r with status := true, detail := some e }

/-- What the Attention Unit holds for a class (R192). -/
def State.eventRecord (s : State) (k : ClassNumber) : EventRecord := s.attention.get k

/-- Raising an event, whatever the class's mask flag (R192). -/
def State.raise (s : State) (e : Event) : State :=
  { s with attention := s.attention.set e.cls.val ((s.eventRecord e.cls).take e) e.cls.isLt }

end Sys2Proof.Machine
end

