-- ==== Sys2Proof/Machine/Flags.lean ====
section
/-! DEFINITION. The flag computations of the block: the sets of event classes and the ATTN line of the Attention Unit
(chapter 12), and the sets of alignment errors (chapter 9). -/

namespace Sys2Proof.Machine

/-! ### Event classes (R192, R193) -/

/-- The number whose bit n is set when the list's entry n is true. -/
def bitsToNat : List Bool → Nat
  | [] => 0
  | b :: rest => (if b then 1 else 0) + 2 * bitsToNat rest

/-- The set of classes whose record has a property, bit n for class n (R197). -/
def State.classSet (s : State) (f : EventRecord → Bool) : Nat := bitsToNat (s.attention.toList.map f)

/-- A class's masked status: its status and its mask are both set (R193). -/
def EventRecord.masked (r : EventRecord) : Bool := r.status && r.mask

/-- The ATTN line: asserted exactly when some class has both its status and its mask set (R193). -/
def State.attn (s : State) : Bool := s.attention.toList.any EventRecord.masked

/-- The lead class: the lowest-numbered class whose masked status is set, or none (R193). -/
def State.leadClass (s : State) : Option Nat := s.attention.toList.findIdx? EventRecord.masked

/-- Class n is named by a class set (R196). -/
def namesClass (set n : Nat) : Bool := set.testBit n

/-- Every class record changed, the class's number known. -/
def State.mapEvents (s : State) (f : Nat → EventRecord → EventRecord) : State :=
  { s with attention := s.attention.mapIdx f }

/-! ### Alignment errors (R149, R156, R157) -/

/-- The union of two error sets. -/
def ErrorSet.union (a b : ErrorSet) : ErrorSet :=
  { parity := a.parity || b.parity, framing := a.framing || b.framing, overrun := a.overrun || b.overrun,
    stray := a.stray || b.stray, badType := a.badType || b.badType, queueFull := a.queueFull || b.queueFull }

/-- The flags a FIFO entry carries: PARITY, FRAMING, and OVERRUN for its gap flag (R154, R155). -/
def FifoEntry.flags (e : FifoEntry) : ErrorSet :=
  { ErrorSet.empty with parity := e.parityError, framing := e.framingError, overrun := e.gap }

/-- A byte is doubtful when it carries a parity-error, framing-error or gap flag (R154). -/
def FifoEntry.doubtful (e : FifoEntry) : Bool := e.parityError || e.framingError || e.gap

/-- An error set as a bit mask: bits 0..5 for PARITY, FRAMING, OVERRUN, STRAY, BAD_TYPE and QUEUE_FULL (R197). -/
def ErrorSet.mask (e : ErrorSet) : Nat :=
  bitsToNat [e.parity, e.framing, e.overrun, e.stray, e.badType, e.queueFull]

end Sys2Proof.Machine
end

