-- ==== Sys2Proof/Machine/Lattice.lean ====
section
/-! DEFINITION. The dome lattice (section 1.1): node indices and dome positions, the triangles and their corners, the
placing of a dome point and its barycentric coordinates, and the steps of the Map Cursor (R22). -/

namespace Sys2Proof.Machine

/-- The index of lattice node (ring, sector) (R1). -/
def nodeIndex (ring sector : Nat) : Nat := ring * 64 + sector

/-- The ring a node is reported with: 32 for Z (R7). -/
def ringOf (n : Nat) : Nat := n / 64

/-- The sector a node is reported with: 0 for Z (R7). -/
def sectorOf (n : Nat) : Nat := n % 64

/-- The elevation of a node (R1). -/
def elevationOf (n : Nat) : Nat := ringOf n * 512

/-- The azimuth of a lattice node (R1). -/
def azimuthOf (n : Nat) : Nat := sectorOf n * 1024

/-- The node that a ring and a sector field name (R7): sector modulo 64, ring 32 for Z, none above. -/
def resolveNode (ring sector : Nat) : Option Nat :=
  if ring < 32 then some (nodeIndex ring (sector % 64))
  else if ring = 32 then some Config.zenith
  else none

/-- The corners 0, 1, 2 of a triangle (R2). -/
def cornersOf (t : Nat) : Nat × Nat × Nat :=
  if t < 3968 then
    let r := t / 128
    let sec := t / 2 % 64
    let next := (sec + 1) % 64
    if t % 2 = 0 then (nodeIndex r sec, nodeIndex r next, nodeIndex (r + 1) next)
    else (nodeIndex r sec, nodeIndex (r + 1) next, nodeIndex (r + 1) sec)
  else
    let sec := t - 3968
    (nodeIndex 31 sec, nodeIndex 31 ((sec + 1) % 64), Config.zenith)

/-- The triangle and the barycentric coordinates of a dome point with elevation 0..16383 (R3, R4). -/
def placePoint (azimuth elevation : Nat) : DomePlace :=
  let r := elevation / 512
  let sec := azimuth / 1024
  let fs := azimuth % 1024
  let fr := 2 * (elevation % 512)
  if r < 31 then
    if fr ≤ fs then
      let b1 := (fs - fr + 2) / 4
      let b2 := (fr + 2) / 4
      { triangle := 2 * (r * 64 + sec), b0 := 256 - b1 - b2, b1 := b1, b2 := b2 }
    else
      let b1 := (fs + 2) / 4
      let b2 := (fr - fs + 2) / 4
      { triangle := 2 * (r * 64 + sec) + 1, b0 := 256 - b1 - b2, b1 := b1, b2 := b2 }
  else
    let b2 := (fr + 2) / 4
    let b1 := ((256 - b2) * fs + 512) / 1024
    { triangle := 3968 + sec, b0 := 256 - b1 - b2, b1 := b1, b2 := b2 }

/-- The blend of three corner weights (R18, R113). -/
def blend (b0 b1 b2 w0 w1 w2 : Nat) : Nat := (b0 * w0 + b1 * w1 + b2 * w2 + 128) / 256

/-- Where an advance of the Map Cursor lands, and the remembered sector it leaves (R22). -/
def advanceCursor (walk : Walk) (cursor remembered : Nat) : Nat × Nat :=
  if cursor < Config.zenith then
    let r := ringOf cursor
    let sec := sectorOf cursor
    match walk with
    | .east => (nodeIndex r ((sec + 1) % 64), (sec + 1) % 64)
    | .west => (nodeIndex r ((sec + 63) % 64), (sec + 63) % 64)
    | .north => if r < 31 then (nodeIndex (r + 1) sec, sec) else (Config.zenith, sec)
    | .south => if r = 0 then (nodeIndex 0 sec, sec) else (nodeIndex (r - 1) sec, sec)
  else
    match walk with
    | .east => (Config.zenith, (remembered + 1) % 64)
    | .west => (Config.zenith, (remembered + 63) % 64)
    | .north => (Config.zenith, remembered)
    | .south => (nodeIndex 31 remembered, remembered)

/-- The advance of the Map Cursor after a cursor-addressed request (R22, R23). -/
def State.advance (s : State) : State :=
  let t := advanceCursor s.dome.walk s.dome.cursor s.dome.remembered
  { s with dome := { s.dome with cursor := t.1, remembered := t.2 } }

end Sys2Proof.Machine
end

