-- ==== Sys2Proof/Machine/Operands.lean ====
section
/-! DEFINITION. The byte forms of chapter 13: reading the fields of a request or an image record, and writing the fields
of a reply (R190, R196, R197). Bytes are little-endian on every wire (00, Byte order). -/

namespace Sys2Proof.Machine

/-! ### Reading -/

/-- Byte i of a byte string as a number. -/
def byteAt (bs : List Byte) (i : Nat) : Nat := (bs.getD i 0#8).toNat

/-- The two-byte field at i. -/
def wordAt (bs : List Byte) (i : Nat) : Nat := byteAt bs i + 256 * byteAt bs (i + 1)

/-- The three-byte field at i. -/
def tripleAt (bs : List Byte) (i : Nat) : Nat := byteAt bs i + 256 * byteAt bs (i + 1) + 65536 * byteAt bs (i + 2)

/-- The signed two-byte field at i, in two's complement. -/
def signedAt (bs : List Byte) (i : Nat) : Int :=
  let w := wordAt bs i
  if w < 32768 then (w : Int) else (w : Int) - 65536

/-- The length of a request, the bytes that follow its length byte (R185). -/
def Request.length (r : Request) : Nat := 2 + r.fields.length

/-- The length each request code requires; none for a code that names no request (section 13.2). -/
def requiredLength (code : Nat) : Option Nat :=
  match code with
  | 0x01 => some 5
  | 0x02 => some 6
  | 0x03 => some 4
  | 0x04 => some 3
  | 0x05 => some 2
  | 0x10 => some 13
  | 0x11 => some 5
  | 0x12 => some 2
  | 0x13 => some 2
  | 0x14 => some 2
  | 0x18 => some 2
  | 0x20 => some 13
  | 0x21 => some 5
  | 0x22 => some 4
  | 0x23 => some 5
  | 0x24 => some 3
  | 0x28 => some 4
  | 0x29 => some 4
  | 0x2A => some 2
  | 0x30 => some 3
  | 0x38 => some 4
  | 0x39 => some 2
  | 0x40 => some 5
  | 0x41 => some 2
  | 0x42 => some 2
  | 0x43 => some 2
  | 0x48 => some 13
  | 0x49 => some 2
  | 0x4A => some 2
  | 0x4B => some 2
  | 0x4C => some 2
  | 0x50 => some 2
  | 0x51 => some 4
  | 0x52 => some 4
  | 0x7F => some 2
  | _ => none

/-- The node that an address mode, a ring and a sector address: 0 the named node, any other value the node at the Map
Cursor (R196). -/
def addressedNode (s : State) (mode ring sector : Nat) : Option Nat :=
  if mode = 0 then resolveNode ring sector else some s.dome.cursor

/-- The pin field of a SET CLAIM: mode 0 absent, 1 a value clamped to 1023, any other value clear (R196, R54). -/
def pinFieldOf (mode value : Nat) : PinField :=
  if mode = 0 then .absent else if mode = 1 then .value (min Config.affinityMax value) else .clear

/-- A yes-or-no field: 0 is no and any other value yes (R190). -/
def yesNo (b : Nat) : Bool := b != 0

/-- The walk direction a field names, modulo 4 (R21). -/
def walkOf (b : Nat) : Walk :=
  match b % 4 with
  | 0 => .east
  | 1 => .west
  | 2 => .north
  | _ => .south

/-- The line rate a rate code names, clamped to 0..3 (R164). -/
def rateOf (b : Nat) : LineRate :=
  match b with
  | 0 => .r115200
  | 1 => .r230400
  | 2 => .r460800
  | _ => .r921600

/-- The pacing kind a field names; a value above 2 is taken as STEP (R169). -/
def pacingOf (b : Nat) : Pacing :=
  match b with
  | 0 => .burst
  | 1 => .perFrame
  | _ => .step

/-- A mesh image record of 8 bytes (COMPACT) or 10 bytes (FULL) decoded (R175, R198). -/
def decodeRecord (format : RecordFormat) (bs : List Byte) : MeshRecord :=
  let kind := byteAt bs 0 / 16
  let slot := byteAt bs 0 % 16
  let ring := byteAt bs 1
  let sector := byteAt bs 2
  let clearPin := (byteAt bs 3) % 2 == 1
  let pinWord := wordAt bs 8
  let pinPresent := match format with
    | .compact => false
    | .full => decide (32768 ≤ pinWord)
  if kind = 1 then
    if clearPin && pinPresent then .bad
    else
      let pin : PinField :=
        if pinPresent then .value (min Config.affinityMax (pinWord % 32768))
        else if clearPin then .clear
        else .absent
      .claim slot ring sector ⟨wordAt bs 4, wordAt bs 6⟩ pin
  else if kind = 2 then .drop slot ring sector
  else if kind = 3 then .endMark
  else .bad

/-! ### Writing (R197) -/

/-- The low k bytes of a number, the least significant first. -/
def leBytes : Nat → Nat → List Byte
  | 0, _ => []
  | k + 1, v => BitVec.ofNat 8 v :: leBytes k (v / 256)

/-- An unsigned field of one byte. -/
def u8 (v : Nat) : List Byte := leBytes 1 v

/-- An unsigned field of two bytes. -/
def u16 (v : Nat) : List Byte := leBytes 2 v

/-- An unsigned field of three bytes. -/
def u24 (v : Nat) : List Byte := leBytes 3 v

/-- An unsigned field of four bytes. -/
def u32 (v : Nat) : List Byte := leBytes 4 v

/-- A signed field: two bytes in two's complement. -/
def s16 (v : Int) : List Byte := leBytes 2 (v % 65536).toNat

/-- Flags or presence bits packed from bit 0, eight to a byte. -/
def packBits (bs : List Bool) : List Byte := leBytes ((bs.length + 7) / 8) (bitsToNat bs)

/-- An optional part: nothing when it is absent. -/
def optional {α : Type} (f : α → List Byte) : Option α → List Byte
  | none => []
  | some a => f a

/-- A list of varying length: a count byte and the entries. -/
def counted {α : Type} (f : α → List Byte) (l : List α) : List Byte := u8 l.length ++ l.flatMap f

/-- A node as replies name it: ring and sector, ring 32 and sector 0 for Z (R7). -/
def nodeField (n : Nat) : List Byte := u8 (ringOf n) ++ u8 (sectorOf n)

/-- A position as two unsigned fields. -/
def posField (q : Pos) : List Byte := u16 q.u ++ u16 q.v

/-- A trim as two signed fields. -/
def trimField (t : Trim) : List Byte := s16 t.tu ++ s16 t.tv

/-! Enumerated values: one byte, the position in the list of values the owning chapter gives. -/

def Condition.code : Condition → Nat
  | .unclaimed => 0
  | .dark => 1
  | .covered => 2

/-- A node's queued field: absent, NORMAL or URGENT, in that order (R5, R16). -/
def queuedCode : Option QueueClass → Nat
  | none => 0
  | some .normal => 1
  | some .urgent => 2

/-- The class a solve was taken from: NORMAL or URGENT, in that order (R31, R50). -/
def QueueClass.code : QueueClass → Nat
  | .normal => 0
  | .urgent => 1

def Walk.code : Walk → Nat
  | .east => 0
  | .west => 1
  | .north => 2
  | .south => 3

def SetOutcome.code : SetOutcome → Nat
  | .created => 0
  | .updated => 1
  | .restored => 2

def DropOutcome.code : DropOutcome → Nat
  | .freed => 0
  | .marked => 1

def GroupState.code : GroupState → Nat
  | .none => 0
  | .solving => 1
  | .ready => 2

def ProjState.code : ProjState → Nat
  | .vacant => 0
  | .parked => 1
  | .fadingIn => 2
  | .live => 3
  | .fadingOut => 4
  | .failed => 5
  | .retiring => 6

def FailCause.code : FailCause → Nat
  | .line => 0
  | .lockLost => 1
  | .lockFailed => 2

def LockState.code : LockState → Nat
  | .off => 0
  | .starting => 1
  | .awaitLock => 2
  | .validating => 3
  | .locked => 4
  | .lockFailed => 5

def TakenLevel.code : TakenLevel → Nat
  | .unsettled => 0
  | .ready => 1
  | .notReady => 2

def TimerState.code : TimerState → Nat
  | .seeking => 0
  | .genlocked => 1
  | .freeRun => 2

def ContentStatus.code : ContentStatus → Nat
  | .present => 0
  | .absent => 1

def LineRate.code : LineRate → Nat
  | .r115200 => 0
  | .r230400 => 1
  | .r460800 => 2
  | .r921600 => 3

def ErrorMode.code : ErrorMode → Nat
  | .discardReport => 0
  | .halt => 1

def ReceiverState.code : ReceiverState → Nat
  | .disabled => 0
  | .listening => 1
  | .halted => 2
  | .lineDown => 3

def ResumeState.code : ResumeState → Nat
  | .listening => 0
  | .halted => 1

def ReportType.code : ReportType → Nat
  | .drift => 0
  | .luma => 1
  | .step => 2

def LoaderState.code : LoaderState → Nat
  | .idle => 0
  | .running => 1
  | .held => 2
  | .waiting => 3

def WaitReason.code : WaitReason → Nat
  | .quota => 0
  | .step => 1
  | .yield => 2

def RecordFormat.code : RecordFormat → Nat
  | .compact => 0
  | .full => 1

def Pacing.code : Pacing → Nat
  | .burst => 0
  | .perFrame => 1
  | .step => 2

def LoadOutcome.code : LoadOutcome → Nat
  | .none => 0
  | .doneCount => 1
  | .doneEnd => 2
  | .faultFetch => 3
  | .faultStore => 4
  | .reset => 5

def FaultReason.code : FaultReason → Nat
  | .badNode => 0
  | .badProjector => 1
  | .state => 2
  | .sealed => 3
  | .listFull => 4
  | .poolFull => 5
  | .noClaim => 6
  | .badRecord => 7
  | .readError => 8
  | .noResponse => 9

def ApplyResult.code : ApplyResult → Nat
  | .notAsked => 0
  | .sealed _ => 1
  | .empty => 2
  | .deferred => 3

def DropReason.code : DropReason → Nat
  | .dropped => 0
  | .truncated => 1
  | .malformed => 2

def ResultCode.code : ResultCode → Nat
  | .ok => 0
  | .busy => 1
  | .sealed => 2
  | .noGroup => 3
  | .badNode => 4
  | .badProjector => 5
  | .state => 6
  | .poolFull => 7
  | .listFull => 8
  | .noClaim => 9
  | .unknown => 10
  | .badLength => 11

/-- The bytes of a reply after its length byte: tag, result and fields (section 13.1). -/
def Reply.bytes (r : Reply) : List Byte := r.tag :: BitVec.ofNat 8 r.result.code :: r.fields

/-- The length of a reply, the bytes that follow its length byte (section 13.1). -/
def Reply.length (r : Reply) : Nat := 2 + r.fields.length

/-- An answer with no fields. -/
def Answer.bare (c : ResultCode) : Answer := ⟨c, []⟩

/-- The answer OK with its fields. -/
def Answer.ok (fields : List Byte) : Answer := ⟨.ok, fields⟩

end Sys2Proof.Machine
end

