-- ==== Sys2Proof/Machine/Port.lean ====
section
/-! DEFINITION. The Control Port (chapter 11): the SPI transaction byte by byte, and the Request Executor's one shared
operation, which takes the head request, runs it at its owning block and appends its reply. -/

namespace Sys2Proof.Machine

/-! ### Transactions and units (R183 to R187) -/

/-- The Port Status byte at this point: ATTN, free request slots, replies waiting (R183, section 13.1). -/
def State.portStatus (s : State) : Byte :=
  BitVec.ofNat 8
    ((if s.attn then 128 else 0) + 16 * (Config.requestLimit - s.port.requests.length) + s.port.replies.length)

/-- The state with the Control Port replaced. -/
def State.setPort (s : State) (p : ControlPort) : State := { s with port := p }

/-- The port after one byte has been clocked outside SEND_REPLY: it shifts out the status byte first and 0x00 for every
byte after it (R183, R184). -/
def ControlPort.clocked (p : ControlPort) : ControlPort :=
  { p with shiftedOut := some (p.statusByte.getD 0#8), statusByte := none }

/-- The port after one byte of a reply has been shifted out (R186). -/
def ControlPort.sending (p : ControlPort) (b : Byte) : ControlPort :=
  { p with shiftedOut := some b, statusByte := none }

/-- The end of a unit: with Continue set the next byte is a header, else the rest is disregarded (R184). -/
def ControlPort.unitEnd (p : ControlPort) : ControlPort :=
  { p with txn := if p.cont then .awaitHeader else .ignoring, partialReq := none, fetch := none }

/-- A malformed unit (R187). -/
def malformedUnit (s : State) : State :=
  (s.setPort { s.port with txn := .ignoring, partialReq := none, fetch := none }).raise (.portDrop .malformed)

/-- A byte clocked in IGNORING is disregarded, and the part shifts out 0x00 (R184). In every other state that does not
await such a byte, no such byte is taken (log 2, log 17). -/
def disregardedByte (s : State) : State :=
  if s.port.txn = .ignoring then s.setPort s.port.clocked else s

/-- A complete request offered to the Request Queue (R185). -/
def offerRequest (r : Request) (s : State) : State :=
  if s.port.requests.length < Config.requestLimit then
    s.setPort { s.port with requests := s.port.requests ++ [r] }
  else s.raise (.portDrop .dropped)

/-- SELECT_ASSERT: a transaction begins and the Port Status byte is taken (R183). -/
def execSelectAssert (s : State) : Host.Outcome State Fault Refusal :=
  .next (if s.port.txn = .noSelect then
      s.setPort { s.port with txn := .awaitHeader, statusByte := some s.portStatus, shiftedOut := none }
    else s)

/-- The header byte of a unit taken in AWAIT_HEADER (R184). -/
def takeHeader (b : Byte) (s : State) : State :=
  let p := { s.port.clocked with cont := b.getLsbD 7 }
  let kind := b.toNat % 128
  if kind = 0 then s.setPort p.unitEnd
  else if kind = 1 then
    s.setPort { p with txn := .readLength, partialReq := some { header := b, length := none, bytes := [] } }
  else if kind = 2 then
    s.setPort { p with txn := .sendReply, fetch := some { reply := p.replies.head?, sent := 0 } }
  else malformedUnit (s.setPort p)

/-- UNIT_HEADER (R184). -/
def execUnitHeader (b : Byte) (s : State) : Host.Outcome State Fault Refusal :=
  .next (if s.port.txn = .awaitHeader then takeHeader b s else disregardedByte s)

/-- REQUEST_LENGTH: a length outside 2..32 makes the unit malformed (R185, R187). -/
def execRequestLength (b : Byte) (s : State) : Host.Outcome State Fault Refusal :=
  .next (match s.port.txn, s.port.partialReq with
    | .readLength, some q =>
      let p := s.port.clocked
      if 2 ≤ b.toNat ∧ b.toNat ≤ 32 then
        s.setPort { p with txn := .readPayload, partialReq := some { q with length := some b.toNat } }
      else malformedUnit (s.setPort p)
    | _, _ => disregardedByte s)

/-- A payload byte: the byte that brings the count to the length completes the request (R185). -/
def takePayload (q : PartialRequest) (length : Nat) (b : Byte) (s : State) : State :=
  let p := s.port.clocked
  let bytes := q.bytes ++ [b]
  if bytes.length < length then s.setPort { p with partialReq := some { q with bytes := bytes } }
  else
    match bytes with
    | code :: tag :: fields =>
      offerRequest { code := code, tag := tag, fields := fields } (s.setPort p.unitEnd)
    | _ => s.setPort p.unitEnd

/-- REQUEST_PAYLOAD_BYTE (R185). -/
def execRequestPayloadByte (b : Byte) (s : State) : Host.Outcome State Fault Refusal :=
  .next (match s.port.txn, s.port.partialReq with
    | .readPayload, some q => takePayload q (q.length.getD 0) b s
    | _, _ => disregardedByte s)

/-- One byte of a FETCH: length 0 when there is no reply; else the length and the reply's bytes, and the last byte takes
the reply out of the Reply Queue (R186). -/
def sendReplyByte (f : FetchProgress) (s : State) : State :=
  match f.reply with
  | none => s.setPort (s.port.sending 0#8).unitEnd
  | some r =>
    if f.sent = 0 then
      s.setPort { s.port.sending (BitVec.ofNat 8 r.length) with fetch := some { f with sent := 1 } }
    else
      let p := s.port.sending (r.bytes.getD (f.sent - 1) 0#8)
      if f.sent < r.length then s.setPort { p with fetch := some { f with sent := f.sent + 1 } }
      else s.setPort { p with replies := p.replies.tail }.unitEnd

/-- REPLY_BYTE (R186). -/
def execReplyByte (s : State) : Host.Outcome State Fault Refusal :=
  .next (match s.port.txn, s.port.fetch with
    | .sendReply, some f => sendReplyByte f s
    | _, _ => disregardedByte s)

/-- SELECT_RELEASE: a partial request is dropped with PORT_DROP TRUNCATED, a partly sent reply is kept (R187). -/
def execSelectRelease (s : State) : Host.Outcome State Fault Refusal :=
  let t := s.setPort { s.port with txn := .noSelect, partialReq := none, fetch := none, statusByte := none }
  .next (match s.port.txn with
    | .noSelect => s
    | .readLength => t.raise (.portDrop .truncated)
    | .readPayload => t.raise (.portDrop .truncated)
    | .awaitHeader => t
    | .sendReply => t
    | .ignoring => t)

/-! ### The Request Executor (R188, R189) -/

/-- The request the executor takes and the state without it: the head of the Request Queue, while fewer than eight
replies wait (R188). -/
def State.takeRequest (s : State) : Option (Request × State) :=
  match s.port.requests with
  | [] => none
  | r :: rest =>
    if s.port.replies.length < Config.replyLimit then some (r, s.setPort { s.port with requests := rest }) else none

/-- The state with a reply appended at the tail of the Reply Queue (R188). -/
def State.reply (s : State) (tag : Byte) (a : Answer) : State :=
  s.setPort { s.port with replies := s.port.replies ++ [{ tag := tag, result := a.result, fields := a.fields }] }

/-- The answer BAD_LENGTH: the code, the length received and the length required (R189). -/
def badLengthAnswer (r : Request) (required : Nat) : Answer :=
  ⟨.badLength, u8 r.code.toNat ++ u8 r.length ++ u8 required⟩

/-- The answer UNKNOWN: the code received (R189). -/
def unknownAnswer (r : Request) : Answer := ⟨.unknown, u8 r.code.toNat⟩

/-- The Request Executor runs the request of one code: it takes the head request, runs it at its owning block and appends
its reply, all as one step; a wrong length is answered with BAD_LENGTH and changes nothing (R188, R189). When the
request of this code cannot be taken, the step does not happen (log 2). -/
def runRequest (code : Nat) (run : Request → State → State × Answer) (s : State) : State :=
  match s.takeRequest with
  | none => s
  | some (r, t) =>
    if r.code.toNat = code then
      match requiredLength code with
      | none => s
      | some required =>
        if r.length = required then (run r t).1.reply r.tag (run r t).2
        else t.reply r.tag (badLengthAnswer r required)
    else s

/-- UNKNOWN_CODE: the head request is answered without being run as its kind, with UNKNOWN when its code names no request
and with BAD_LENGTH when its length does not fit its code (R189). -/
def answerUnrun (s : State) : State :=
  match s.takeRequest with
  | none => s
  | some (r, t) =>
    match requiredLength r.code.toNat with
    | none => t.reply r.tag (unknownAnswer r)
    | some required => if r.length = required then s else t.reply r.tag (badLengthAnswer r required)

/-- UNKNOWN_CODE (R189). -/
def execUnknownCode (s : State) : Host.Outcome State Fault Refusal := .next (answerUnrun s)

/-- A request that names a slot: a slot above 15 is refused with BAD_PROJECTOR (R73, R190). -/
def withSlot (b : Nat) (s : State) (run : Slot → State × Answer) : State × Answer :=
  match slotOf b with
  | none => (s, .bare .badProjector)
  | some p => run p

end Sys2Proof.Machine
end

