-- ==== Sys2Proof/Machine/Align.lean ====
section
/-! DEFINITION. The Alignment Port (chapter 9): byte completion, idle and break on the line, the report assembler, the two
error modes, the Measurement Queue, and the port's requests. The reports are applied in Machine/Reports.lean. -/

namespace Sys2Proof.Machine

/-- The state with the Alignment Port replaced. -/
def State.setAlign (s : State) (a : AlignPort) : State := { s with align := a }

/-- ALIGN_ERROR raised with the error set as it now stands (R156, R157). -/
def raiseAlignError (s : State) : State := s.raise (.alignError s.align.errors)

/-! ### Error modes (R156, R157) -/

/-- The port after a discard in DISCARD_REPORT mode: the error set is the discard's flags, and OVERRUN if it was there
(R156). -/
def AlignPort.discarding (a : AlignPort) (flags : ErrorSet) : AlignPort :=
  { a with assembler := .seekLead, errors := { flags with overrun := flags.overrun || a.errors.overrun } }

/-- The port entering HALTED: the flags are added, the FIFO and the assembler are emptied (R157). -/
def AlignPort.halting (a : AlignPort) (flags : ErrorSet) : AlignPort :=
  { a with assembler := .seekLead, errors := a.errors.union flags, fifo := [], receiver := .halted }

/-- A discard, or in HALT mode an error, with its flags (R156, R157). -/
def takeDiscard (flags : ErrorSet) (s : State) : State :=
  match s.align.mode with
  | .discardReport => raiseAlignError (s.setAlign (s.align.discarding flags))
  | .halt => raiseAlignError (s.setAlign (s.align.halting flags))

/-! ### The receiver (R150 to R153) -/

/-- The nine data and parity bits hold an odd number of ones (R150). -/
def parityError (data : Byte) (parity : Bool) : Bool :=
  (((List.range 8).countP fun i => data.getLsbD i) + (if parity then 1 else 0)) % 2 == 1

/-- The completed byte, with its parity-error and framing-error flags (R150). -/
def completedByte (data : Byte) (parity stop : Bool) : FifoEntry :=
  { value := data, parityError := parityError data parity, framingError := !stop, gap := false }

/-- A byte joins the FIFO tail, marked when a byte was lost before it (R152). -/
def AlignPort.joined (a : AlignPort) (e : FifoEntry) : AlignPort :=
  { a with fifo := a.fifo ++ [{ e with gap := a.gapPending }], gapPending := false }

/-- The flag OVERRUN alone. -/
def overrunFlag : ErrorSet := { ErrorSet.empty with overrun := true }

/-- A byte lost to a full FIFO: OVERRUN is added, gap pending is set, and ALIGN_ERROR is raised; in HALT mode the port
enters HALTED (R152, R157). -/
def loseByte (s : State) : State :=
  let a := { s.align with gapPending := true }
  match s.align.mode with
  | .discardReport => raiseAlignError (s.setAlign { a with errors := a.errors.union overrunFlag })
  | .halt => raiseAlignError (s.setAlign (a.halting overrunFlag))

/-- A byte completed in LISTENING: in HALT mode a parity or framing error halts the port at once; else the byte joins the
FIFO or is lost (R152, R157). -/
def offerByte (e : FifoEntry) (s : State) : State :=
  if s.align.mode = .halt ∧ e.doubtful = true then takeDiscard e.flags s
  else if s.align.fifo.length < Config.fifoLimit then s.setAlign (s.align.joined e)
  else loseByte s

/-- BYTE_COMPLETION: a frame is taken only while synchronised in LISTENING, or in HALTED, where the byte is checked and
discarded (R150, R151, R152, R157). -/
def execByteCompletion (data : Byte) (parity stop : Bool) (s : State) : Host.Outcome State Fault Refusal :=
  let e := completedByte data parity stop
  .next (match s.align.receiver with
    | .listening => if s.align.synced then offerByte e s else s
    | .halted => s.setAlign { s.align with errors := s.align.errors.union e.flags }
    | .disabled => s
    | .lineDown => s)

/-- The receiver state that a resume state names (R149). -/
def ResumeState.receiver : ResumeState → ReceiverState
  | .listening => .listening
  | .halted => .halted

/-- The port returned from LINE_DOWN to its resume state; in LISTENING it is synchronised (R153, log 16). -/
def AlignPort.lineUp (a : AlignPort) (r : ResumeState) : AlignPort :=
  { a with receiver := r.receiver, resume := none, synced := a.synced || r == .listening }

/-- LINE_IDLE: the line has been high for one byte time without a start bit (R151, R153). -/
def execLineIdle (s : State) : Host.Outcome State Fault Refusal :=
  .next (match s.align.receiver, s.align.resume with
    | .listening, _ => s.setAlign { s.align with synced := true }
    | .lineDown, some r => (s.setAlign (s.align.lineUp r)).raise (.alignLine true)
    | .lineDown, none => s
    | .disabled, _ => s
    | .halted, _ => s)

/-- The port entering LINE_DOWN with a resume state; gap pending, the error set and the queue stay (R153). -/
def AlignPort.broken (a : AlignPort) (r : ResumeState) : AlignPort :=
  { a with receiver := .lineDown, resume := some r, fifo := [], assembler := .seekLead }

/-- BREAK: the line has been low for two byte times (R151, R153). -/
def execLineBreak (s : State) : Host.Outcome State Fault Refusal :=
  .next (match s.align.receiver with
    | .listening => (s.setAlign (s.align.broken .listening)).raise (.alignLine false)
    | .halted => (s.setAlign (s.align.broken .halted)).raise (.alignLine false)
    | .disabled => s
    | .lineDown => s)

/-! ### The report assembler (R154, R155, R158) -/

/-- The report type a type byte names (section 9.3). -/
def reportTypeOf (b : Byte) : Option ReportType :=
  if b = 1#8 then some .drift else if b = 2#8 then some .luma else if b = 3#8 then some .step else none

/-- The payload length of a report type (section 9.3). -/
def ReportType.payload : ReportType → Nat
  | .drift => 7
  | .luma => 3
  | .step => 0

/-- The report that a complete payload spells (section 9.3, section 13.4). -/
def reportOf (type : ReportType) (bs : List Byte) : Report :=
  match type with
  | .drift => .drift (bs.getD 0 0#8) (bs.getD 1 0#8) (bs.getD 2 0#8) (signedAt bs 3) (signedAt bs 5)
  | .luma => .luma (bs.getD 0 0#8) (wordAt bs 1)
  | .step => .step

/-- A clean report offered to the Measurement Queue; a full queue refuses it with QUEUE_FULL (R158). -/
def offerReport (r : Report) (s : State) : State :=
  if s.align.queue.length < Config.measurementLimit then
    s.setAlign { s.align with assembler := .seekLead, queue := s.align.queue ++ [r] }
  else takeDiscard { ErrorSet.empty with queueFull := true } s

/-- The assembler after it has taken a byte into a partial report, complete or not (R155). -/
def advanceReport (r : PartialReport) (s : State) : State :=
  if r.bytes.length < r.type.payload then s.setAlign { s.align with assembler := .readPayload r }
  else if r.faulty then takeDiscard r.flags s
  else offerReport (reportOf r.type r.bytes) s

/-- The partial report of a type, with no payload bytes (R154). -/
def PartialReport.start (type : ReportType) : PartialReport :=
  { type := type, bytes := [], faulty := false, flags := .empty }

/-- The partial report with one entry more (R155). -/
def PartialReport.append (r : PartialReport) (e : FifoEntry) : PartialReport :=
  { r with bytes := r.bytes ++ [e.value], faulty := r.faulty || e.doubtful, flags := r.flags.union e.flags }

/-- One FIFO entry treated by the assembler's state (R154, R155). -/
def assemble (e : FifoEntry) (s : State) : State :=
  match s.align.assembler with
  | .seekLead =>
    if e.value = Config.leadByte ∧ e.doubtful = false then s.setAlign { s.align with assembler := .readType }
    else takeDiscard { e.flags with stray := true } s
  | .readType =>
    if e.doubtful then takeDiscard e.flags s
    else
      match reportTypeOf e.value with
      | some type => advanceReport (.start type) s
      | none => takeDiscard { ErrorSet.empty with badType := true } s
  | .readPayload r => advanceReport (r.append e) s

/-- ASSEMBLER_TAKE: the head of the FIFO, while the receiver is LISTENING (R154). -/
def execAssemblerTake (s : State) : Host.Outcome State Fault Refusal :=
  .next (match s.align.receiver, s.align.fifo with
    | .listening, e :: rest => assemble e (s.setAlign { s.align with fifo := rest })
    | .listening, [] => s
    | .disabled, _ => s
    | .halted, _ => s
    | .lineDown, _ => s)

/-! ### Requests (R164 to R167) -/

/-- The receiver state after SET ALIGN LINK (R164). -/
def linkedReceiver (before : ReceiverState) (enable : Bool) : ReceiverState :=
  if enable then (if before = .disabled then .listening else before) else .disabled

/-- The port after SET ALIGN LINK (R164). -/
def AlignPort.linked (a : AlignPort) (rate : LineRate) (mode : ErrorMode) (enable : Bool) : AlignPort :=
  { a with
    rate := rate
    mode := mode
    enable := enable
    fifo := []
    assembler := .seekLead
    gapPending := false
    synced := false
    receiver := linkedReceiver a.receiver enable
    resume := if enable then a.resume else none }

/-- SET ALIGN LINK (R164): fields rate code, error mode, enable. -/
def setAlignLinkRequest (r : Request) (s : State) : State × Answer :=
  let mode : ErrorMode := if byteAt r.fields 1 = 0 then .discardReport else .halt
  let a := s.align.linked (rateOf (byteAt r.fields 0)) mode (yesNo (byteAt r.fields 2))
  (s.setAlign a, .ok (u8 a.rate.code ++ u8 a.mode.code ++ packBits [a.enable] ++ u8 a.receiver.code))

/-- SET ALIGN LINK (R164). -/
def execSetAlignLink (s : State) : Host.Outcome State Fault Refusal := .next (runRequest 0x40 setAlignLinkRequest s)

/-- The port after CLEAR ALIGN ERRORS (R165). -/
def AlignPort.cleared (a : AlignPort) : AlignPort :=
  let b := { a with errors := .empty, gapPending := false }
  match a.receiver with
  | .halted => { b with receiver := .listening, synced := true, assembler := .seekLead }
  | .lineDown => { b with resume := if a.resume = some .halted then some .listening else a.resume }
  | .disabled => b
  | .listening => b

/-- CLEAR ALIGN ERRORS (R165): the error set as it stood, and the receiver state after. -/
def clearAlignErrorsRequest (_ : Request) (s : State) : State × Answer :=
  (s.setAlign s.align.cleared, .ok (u8 s.align.errors.mask ++ u8 s.align.cleared.receiver.code))

/-- CLEAR ALIGN ERRORS (R165). -/
def execClearAlignErrors (s : State) : Host.Outcome State Fault Refusal :=
  .next (runRequest 0x41 clearAlignErrorsRequest s)

/-- The port after RESET ALIGN RECEIVER (R166). -/
def AlignPort.receiverReset (a : AlignPort) : AlignPort :=
  { a with
    fifo := []
    assembler := .seekLead
    queue := []
    errors := .empty
    gapPending := false
    synced := false
    receiver := if a.enable then .listening else .disabled
    resume := none }

/-- RESET ALIGN RECEIVER (R166): the number of reports dropped, and the receiver state after. -/
def resetAlignReceiverRequest (_ : Request) (s : State) : State × Answer :=
  (s.setAlign s.align.receiverReset, .ok (u8 s.align.queue.length ++ u8 s.align.receiverReset.receiver.code))

/-- RESET ALIGN RECEIVER (R166). -/
def execResetAlignReceiver (s : State) : Host.Outcome State Fault Refusal :=
  .next (runRequest 0x42 resetAlignReceiverRequest s)

/-- The type of a report. -/
def Report.type : Report → ReportType
  | .drift .. => .drift
  | .luma .. => .luma
  | .step => .step

/-- The fields of a report, as received (R167, R197). -/
def Report.fieldBytes : Report → List Byte
  | .drift p ring sector du dv => u8 p.toNat ++ u8 ring.toNat ++ u8 sector.toNat ++ s16 du ++ s16 dv
  | .luma p v => u8 p.toNat ++ u16 v
  | .step => []

/-- The outcome's place in the list that R159 gives for its report's type: APPLIED first (or CREDITED), then SATURATED for
DRIFT alone, then NO_TARGET (or IGNORED) (R159, R197). -/
def outcomeCode (type : ReportType) : ReportOutcome → Nat
  | .applied => 0
  | .saturated => 1
  | .noTarget => if type = .drift then 2 else 1
  | .credited => 0
  | .ignored => 1

/-- The code of the assembler state (R149, R167). -/
def Assembler.code : Assembler → Nat
  | .seekLead => 0
  | .readType => 1
  | .readPayload _ => 2

/-- The partial report, in READ_PAYLOAD (R149). -/
def Assembler.partialReport : Assembler → Option PartialReport
  | .seekLead => none
  | .readType => none
  | .readPayload r => some r

/-- The last executed report in a reply: its type, fields and outcome (R167). -/
def lastField (e : Report × ReportOutcome) : List Byte :=
  u8 e.1.type.code ++ e.1.fieldBytes ++ u8 (outcomeCode e.1.type e.2)

/-- The reply of READ ALIGN STATUS (R167): its optional parts are the resume state, the partial report's type, its byte
count, and the last executed report; its flags are enable and synchronised.
PRESUMED (log 10): the partial report's type and its byte count are two optional parts, with a presence bit each, where R167
and R197 do not say whether they are one part or two. Unsafe for the presence byte. -/
def alignAnswer (a : AlignPort) : Answer :=
  let part := a.assembler.partialReport
  .ok (packBits [a.resume.isSome, part.isSome, part.isSome, a.last.isSome]
    ++ u8 a.rate.code ++ u8 a.mode.code ++ packBits [a.enable, a.synced]
    ++ u8 a.receiver.code ++ optional (fun r => u8 r.code) a.resume
    ++ u8 a.assembler.code ++ optional (fun r => u8 r.type.code ++ u8 r.bytes.length) part
    ++ u8 a.fifo.length ++ u8 a.queue.length ++ u8 a.errors.mask ++ optional lastField a.last)

/-- READ ALIGN STATUS (R167). -/
def execReadAlignStatus (s : State) : Host.Outcome State Fault Refusal :=
  .next (runRequest 0x43 (fun _ t => (t, alignAnswer t.align)) s)

end Sys2Proof.Machine
end

