-- ==== Sys2Proof/Machine/Attention.lean ====
section
/-! DEFINITION. The requests of the Attention Unit (chapter 12). -/

namespace Sys2Proof.Machine

/-- The bytes of an event's detail as a READ EVENTS reply carries it (R194, R197; the fields of section 12.1).
PRESUMED (log 10): the outcome of LOAD_DONE and of LOAD_FAULT is numbered by its place in R168's list of six outcomes, and
not in the two values that section 12.1 lists for each class. Unsafe for that byte. -/
def Event.detailBytes : Event → List Byte
  | .darkNode n => u16 n
  | .swapDone m => u16 m
  | .failover p => u8 p.val
  | .projFault p c => u8 p.val ++ u8 c.code
  | .projRecover p => u8 p.val
  | .lockFail p => u8 p.val
  | .fadeDone p retired => u8 p.val ++ packBits [retired]
  | .trimLimit n => u16 n
  | .gainLimit p => u8 p.val
  | .loadDone o stored => u8 o.code ++ u24 stored
  | .loadFault o index reason => u8 o.code ++ u24 index ++ u8 reason.code
  | .alignError e => u8 e.mask
  | .alignLine up => u8 (if up then 1 else 0)
  | .genlock regained => u8 (if regained then 1 else 0)
  | .portDrop r => u8 r.code
  | .offRaster n => u16 n

/-- The status set (R194). -/
def State.statusSet (s : State) : Nat := s.classSet EventRecord.status

/-- The mask (R194). -/
def State.maskSet (s : State) : Nat := s.classSet EventRecord.mask

/-- The masked status (R193). -/
def State.maskedSet (s : State) : Nat := s.classSet EventRecord.masked

/-- The overflow set (R194). -/
def State.overflowSet (s : State) : Nat := s.classSet EventRecord.overflow

/-- The reply of READ EVENTS (R194): the lead class and the sixteen details are its optional parts. -/
def eventsAnswer (s : State) : Answer :=
  let details := s.attention.toList.map EventRecord.detail
  .ok (packBits (s.leadClass.isSome :: details.map Option.isSome)
    ++ u16 s.statusSet ++ u16 s.maskSet ++ u16 s.maskedSet ++ u16 s.overflowSet
    ++ optional u8 s.leadClass ++ details.flatMap (optional Event.detailBytes))

/-- READ EVENTS (R194): the read changes nothing. -/
def execReadEvents (s : State) : Host.Outcome State Fault Refusal :=
  .next (runRequest 0x50 (fun _ t => (t, eventsAnswer t)) s)

/-- A class cleared: status and overflow clear, detail absent, mask as it stands (R195). -/
def EventRecord.cleared (r : EventRecord) : EventRecord :=
  { r with status := false, overflow := false, detail := none }

/-- The classes a set names are cleared (R195). -/
def clearClasses (set : Nat) (s : State) : State :=
  s.mapEvents fun n r => if namesClass set n then r.cleared else r

/-- CLEAR EVENTS: the reply carries the status and overflow sets before the clear and the masked status after it
(R195). -/
def clearEventsRequest (r : Request) (s : State) : State × Answer :=
  let t := clearClasses (wordAt r.fields 0) s
  (t, .ok (u16 s.statusSet ++ u16 s.overflowSet ++ u16 t.maskedSet))

/-- CLEAR EVENTS (R195). -/
def execClearEvents (s : State) : Host.Outcome State Fault Refusal := .next (runRequest 0x51 clearEventsRequest s)

/-- The mask replaced by a set of classes (R193). -/
def replaceMask (set : Nat) (s : State) : State :=
  s.mapEvents fun n r => { r with mask := namesClass set n }

/-- SET EVENT MASK: the reply carries the mask now in force and the masked status that results (R193). -/
def setEventMaskRequest (r : Request) (s : State) : State × Answer :=
  let t := replaceMask (wordAt r.fields 0) s
  (t, .ok (u16 t.maskSet ++ u16 t.maskedSet))

/-- SET EVENT MASK (R193). -/
def execSetEventMask (s : State) : Host.Outcome State Fault Refusal := .next (runRequest 0x52 setEventMaskRequest s)

end Sys2Proof.Machine
end

