-- ==== Sys2Proof/Machine/Pacing.lean ====
section
/-! DEFINITION. The fetch decision of the Mesh Loader, what a fetch asks of the Memory Port, and what releases a WAITING loader (R170 to R173). It stands before
the Projector Table, which makes the yield report. -/

namespace Sys2Proof.Machine

/-- The state with the Mesh Loader replaced. -/
def State.setLoader (s : State) (l : Loader) : State := { s with loader := l }

/-- Some slot's failover outstanding is above 0 (R170, R173). -/
def State.failoverOwed (s : State) : Bool := s.projectors.toList.any fun r => decide (0 < r.failover)

/-- The loader WAITING with a reason (R168). -/
def Loader.wait (l : Loader) (reason : WaitReason) : Loader := { l with state := .waiting, reason := some reason }

/-- The loader RUNNING, its waiting reason absent (R171 to R173). -/
def Loader.resumed (l : Loader) : Loader := { l with state := .running, reason := none }

/-! ### What a fetch asks of the Memory Port (R174) -/

/-- The size of a record (R169, R174). -/
def RecordFormat.size : RecordFormat → Nat
  | .compact => 8
  | .full => 10

/-- The addresses of a record's bytes, in their order: past address 16,777,215 they continue from address 0 (R174). -/
def recordAddresses (start size : Nat) : List Nat :=
  (List.range size).map fun i => (start + i) % Config.addressSpace

/-- The byte addresses that the Memory Port is asked for, in the order in which it answers; none while no fetch is in
flight (R174). An output, read from State. -/
def Loader.asked (l : Loader) : List Nat :=
  match l.fetch, l.descriptor with
  | some f, some d => recordAddresses f.address d.format.size
  | _, _ => []

/-! ### The fetch decision (R170 to R173) -/

/-- A fetch begins at the next address; the loader stays RUNNING and the fetch is counted (R170, R174). -/
def Loader.beginFetch (l : Loader) : Loader :=
  { l with
    state := .running
    reason := none
    fetch := some { serial := l.serial, address := l.nextAddress }
    serial := l.serial + 1
    quotaUsed := min Config.quotaMax (l.quotaUsed + 1) }

/-- What a fetch decision makes of the loader; `credit` says that a step credit causes it, `owed` that a failover is
outstanding. The first condition that applies decides (R170). -/
def Loader.decide (l : Loader) (credit owed : Bool) : Loader :=
  match l.descriptor with
  | none => l
  | some d =>
    if l.stopPending then { l with state := .held, reason := none, stopPending := false }
    else if owed then l.wait .yield
    else if d.pacing = .perFrame ∧ l.quotaUsed = d.quota then l.wait .quota
    else if d.pacing = .step ∧ credit = false then l.wait .step
    else l.beginFetch

/-- A fetch decision (R170). -/
def fetchDecision (credit : Bool) (s : State) : State := s.setLoader (s.loader.decide credit s.failoverOwed)

/-- The loader is WAITING with a reason. -/
def Loader.waitsFor (l : Loader) (reason : WaitReason) : Bool := l.state == .waiting && l.reason == some reason

/-- A waiting reason is met: the loader returns to RUNNING and makes its fetch decision (R171 to R173). -/
def releaseLoader (credit : Bool) (s : State) : State := fetchDecision credit (s.setLoader s.loader.resumed)

/-- The yield report: when no slot has failover outstanding, a loader WAITING for YIELD is released; a loader in any
other state ignores the report (R173). -/
def reportYield (s : State) : State :=
  if s.failoverOwed = false ∧ s.loader.waitsFor .yield = true then releaseLoader false s else s

end Sys2Proof.Machine
end

