-- ==== Sys2Proof/Machine/Claims.lean ====
section
/-! DEFINITION. Claims joining and leaving node lists, and the counts the Projector Table keeps of them: the claim count
and the failover outstanding (R12 to R14, R75, R76). -/

namespace Sys2Proof.Machine

/-- The projector's claim count changed (R75). -/
def State.setClaimCount (s : State) (p : Slot) (k : Nat) : State := s.modProj p fun r => { r with claimCount := k }

/-- The projector's failover outstanding replaced (R76). -/
def State.setFailover (s : State) (p : Slot) (k : Nat) : State := s.modProj p fun r => { r with failover := k }

/-- Failover outstanding lowered by one while it is above 0; at 0 FAILOVER is raised, and the loader is told when no
slot has any left (R71, R76, R173). -/
def lowerFailover (p : Slot) (s : State) : State :=
  let k := (s.proj p).failover
  if k = 0 then s
  else
    let t := s.setFailover p (k - 1)
    if k = 1 then reportYield (t.raise (.failover p)) else t

/-- Failover outstanding set to the claim count at a failure; with a count of 0 FAILOVER is raised at once (R76, R89,
R90). -/
def oweFailover (p : Slot) (s : State) : State :=
  let k := (s.proj p).claimCount
  let t := s.setFailover p k
  if k = 0 then t.raise (.failover p) else t

/-- A claim record returned to the free list: the free count rises and the projector's claim count falls by one (R14). -/
def countFreed (p : Slot) (s : State) : State :=
  (s.setFree (s.dome.freeCount + 1)).setClaimCount p ((s.proj p).claimCount - 1)

/-- A projector's claim on a node freed outside a swap (R14): it leaves the list, its record returns to the free list,
the claim count falls, and so does failover outstanding (R76). -/
def freeClaim (p : Slot) (n : Nat) (s : State) : State :=
  lowerFailover p (countFreed p (s.modNode n fun r => r.dropClaim p))

/-- The pending-new claim that an edit creates (R12, R55). -/
def newClaim (p : Slot) (q : Pos) (pin : PinField) : Claim :=
  { projector := p, livePos := none, pendingPos := some q, liveTrim := ⟨0, 0⟩, nextTrim := none, livePin := none,
    pendingPin := match pin with
      | .value v => some (.set v)
      | .absent => none
      | .clear => none
    pendingNew := true, pendingRemoval := false, withdrawn := false, liveWeight := 0, nextWeight := 0 }

/-- A claim record allocated and inserted: the free count falls and the projector's claim count rises by one (R12,
R13). -/
def allocateClaim (c : Claim) (n : Nat) (s : State) : State :=
  ((s.modNode n fun r => { r with claims := insertClaim c r.claims }).setFree (s.dome.freeCount - 1)).setClaimCount
    c.projector ((s.proj c.projector).claimCount + 1)

end Sys2Proof.Machine
end

