-- ==== Sys2Proof/Machine/Solver.lean ====
section
/-! DEFINITION. The Weight Solver (chapter 2): the Solve Queue, hard invalidation and soft refresh, the solve in flight
and its completion, the arithmetic of a solve, and READ SOLVER. -/

namespace Sys2Proof.Machine

/-! ### The Solve Queue (R28, R29) -/

/-- The state with the Weight Solver's own state replaced. -/
def State.setSolver (s : State) (v : Solver) : State := { s with solver := v }

/-- The state with Edit Control's own state replaced. -/
def State.setEdit (s : State) (e : EditControl) : State := { s with edit := e }

/-- A request to queue a node in a class (R29). -/
def queueNode (cls : QueueClass) (n : Nat) (s : State) : State :=
  match (s.node n).queued, cls with
  | none, .normal =>
    (s.setSolver { s.solver with normal := s.solver.normal ++ [n] }).modNode n fun r => { r with queued := some .normal }
  | none, .urgent =>
    (s.setSolver { s.solver with urgent := s.solver.urgent ++ [n] }).modNode n fun r => { r with queued := some .urgent }
  | some .normal, .urgent =>
    (s.setSolver { s.solver with urgent := s.solver.urgent ++ [n], normal := s.solver.normal.erase n }).modNode n
      fun r => { r with queued := some .urgent }
  | some .normal, .normal => s
  | some .urgent, _ => s

/-! ### Reports to Edit Control (R61) -/

/-- A member of the sealed group has lost its next weights: the ready count falls by one and a READY group returns to
SOLVING (R61). -/
def memberLost (s : State) : State :=
  s.setEdit { s.edit with
    readyCount := s.edit.readyCount - 1
    groupState := if s.edit.groupState = .ready then .solving else s.edit.groupState }

/-- A member of the sealed group has gained its next weights: the ready count rises by one, and at M the group is READY
(R61). -/
def memberGained (s : State) : State :=
  s.setEdit { s.edit with
    readyCount := s.edit.readyCount + 1
    groupState := if s.edit.readyCount + 1 = s.edit.members then .ready else s.edit.groupState }

/-! ### Hard invalidation and soft refresh (R31 to R34) -/

/-- A node whose next weights no longer hold: next-valid is cleared, and a node in flight is dirty (R31, R32). -/
def Node.invalidated (r : Node) : Node := { r with nextValid := false, dirty := r.dirty || r.inFlight }

/-- Hard invalidation of a node in a class (R31). -/
def hardInvalidate (cls : QueueClass) (n : Nat) (s : State) : State :=
  let t := queueNode cls n (s.modNode n Node.invalidated)
  if (s.node n).groupMark && (s.node n).nextValid then memberLost t else t

/-- Hard invalidation without queuing: the queue entry is left as it stands and no report is made (R32). -/
def invalidateUnqueued (n : Nat) (s : State) : State := s.modNode n Node.invalidated

/-- Soft refresh of a node (R33). -/
def softRefresh (n : Nat) (s : State) : State := queueNode .normal n s

/-- Hard invalidation of every node of a set, in its order (R34). -/
def invalidateAll (cls : QueueClass) (ns : List Nat) (s : State) : State :=
  ns.foldl (fun t n => hardInvalidate cls n t) s

/-- Soft refresh of every node of a set, in its order (R34). -/
def refreshAll (ns : List Nat) (s : State) : State := ns.foldl (fun t n => softRefresh n t) s

/-- Soft refresh of every node a projector claims (R34). -/
def refreshClaimed (p : Slot) (s : State) : State := refreshAll (s.claimNodes p) s

/-- Hard invalidation URGENT of every node a projector claims (R34). -/
def invalidateClaimed (p : Slot) (s : State) : State := invalidateAll .urgent (s.claimNodes p) s

/-! ### A solve begins (R30, R36) -/

/-- What a solve reads of a projector (R36). -/
def Projector.read (r : Projector) : ReadProjector :=
  { state := r.state, phi := r.phi, width := r.width, height := r.height, ramp := r.ramp }

/-- The solve that begins on a node, with every input read at this point (R36). -/
def State.flightOf (s : State) (n : Nat) (cls : QueueClass) : Flight :=
  { node := n, cls := cls, member := (s.node n).groupMark,
    claims := (s.node n).claims.map fun c => { claim := c, projector := (s.proj c.projector).read } }

/-- A node taken into flight: no entry, in flight (R30). -/
def Node.taken (r : Node) : Node := { r with queued := none, inFlight := true }

/-- A solve begins when none is in flight and the queue is not empty: the oldest URGENT entry, else the oldest NORMAL
entry (R30, R42). -/
def startSolve (s : State) : State :=
  match s.solver.flight, s.solver.urgent, s.solver.normal with
  | some _, _, _ => s
  | none, n :: rest, _ =>
    (s.setSolver { s.solver with urgent := rest, flight := some (s.flightOf n .urgent) }).modNode n Node.taken
  | none, [], n :: rest =>
    (s.setSolver { s.solver with normal := rest, flight := some (s.flightOf n .normal) }).modNode n Node.taken
  | none, [], [] => s

/-! ### The view of a solve (R37) -/

/-- Whether a claim takes part in the member view or the non-member view (R37). -/
def Claim.takesPart (c : Claim) (member : Bool) : Bool :=
  if c.withdrawn then false else if member then !c.pendingRemoval else !c.pendingNew

/-- The position a view uses (R37). -/
def Claim.solvePos (c : Claim) (member : Bool) : Option Pos :=
  if member then c.pendingPos.or c.livePos else c.livePos

/-- The trim both views use: the next trim if present, else the live trim (R37). -/
def Claim.solveTrim (c : Claim) : Trim := c.nextTrim.getD c.liveTrim

/-- The pin in effect in a view (R37). -/
def Claim.solvePin (c : Claim) (member : Bool) : Option Nat :=
  if member then
    match c.pendingPin with
    | some (.set v) => some v
    | some .clear => none
    | none => c.livePin
  else c.livePin

/-! ### The arithmetic of a solve (R43 to R48) -/

/-- Stage 1 and stage 2: the distance of the claim's pixel from the edge of its W × H raster (R43, R44). -/
def edgeDistance (q : Pos) (t : Trim) (width height : Nat) : Int :=
  let px := ((q.u : Int) + t.tu) / 16
  let py := ((q.v : Int) + t.tv) / 16
  min (min px ((width : Int) - 1 - px)) (min py ((height : Int) - 1 - py))

/-- Stage 3: the affinity from the edge distance, the ramp width and the pin in effect (R45). -/
def affinity (d : Int) (ramp : Nat) (pin : Option Nat) : Nat :=
  if d < 0 then 0
  else
    match pin with
    | some v => v
    | none => min Config.affinityMax (Config.affinityMax * d.toNat / ramp)

/-- Stage 4: the effective affinity (R46). -/
def effectiveAffinity (a : Nat) (r : ReadProjector) : Nat := if r.state.contributing then a * r.phi else 0

/-- The edge distance of a claim as read, when it takes part in the view (R37, R44). -/
def ReadClaim.distance (c : ReadClaim) (member : Bool) : Option Int :=
  if c.claim.takesPart member then
    (c.claim.solvePos member).map fun q => edgeDistance q c.claim.solveTrim c.projector.width c.projector.height
  else none

/-- The effective affinity of a claim as read; an excluded claim has 0 (R37, R43 to R46). -/
def ReadClaim.effective (c : ReadClaim) (member : Bool) : Nat :=
  match c.distance member with
  | none => 0
  | some d => effectiveAffinity (affinity d c.projector.ramp (c.claim.solvePin member)) c.projector

/-- A claim as read is off-raster: it takes part and its pixel lies outside the raster (R44). -/
def ReadClaim.offRaster (c : ReadClaim) (member : Bool) : Bool :=
  match c.distance member with
  | none => false
  | some d => decide (d < 0)

/-- The quotient of stage 5 (R47). -/
def shareQuotient (e total : Nat) : Nat := Config.unity * e / total

/-- The remainder of stage 5 (R47). -/
def shareRemainder (e total : Nat) : Nat := Config.unity * e % total

/-- How many claims come before one in the making up of the shortfall: a larger remainder, or an equal one in a lower
slot (R48). -/
def shortfallRank (es : List (Slot × Nat)) (total : Nat) (p : Slot) (e : Nat) : Nat :=
  es.countP fun o =>
    decide (shareRemainder e total < shareRemainder o.2 total) ||
      (shareRemainder o.2 total == shareRemainder e total && decide (o.1 < p))

/-- Stage 5: 4096 shared in proportion to the effective affinities, the shortfall made up one unit each (R47, R48). -/
def shareWeights (es : List (Slot × Nat)) : List (Slot × Nat) :=
  let total := (es.map Prod.snd).sum
  if total = 0 then es.map fun o => (o.1, 0)
  else
    let shortfall := Config.unity - (es.map fun o => shareQuotient o.2 total).sum
    es.map fun o =>
      (o.1, shareQuotient o.2 total + if shortfallRank es total o.1 o.2 < shortfall then 1 else 0)

/-- The effective affinities of a solve, claim by claim (R46). -/
def Flight.affinities (f : Flight) : List (Slot × Nat) :=
  f.claims.map fun c => (c.claim.projector, c.effective f.member)

/-- The next weights a solve computes, per slot of the claims it read (R47, R48). -/
def Flight.weights (f : Flight) : List (Slot × Nat) := shareWeights f.affinities

/-- The weight a solve computed for a projector; 0 for a claim it did not read (R40). -/
def Flight.weightFor (f : Flight) (p : Slot) : Nat :=
  match f.weights.find? fun o => o.1 == p with
  | some o => o.2
  | none => 0

/-- The solve found an off-raster claim (R44, R49). -/
def Flight.anyOffRaster (f : Flight) : Bool := f.claims.any fun c => c.offRaster f.member

/-! ### A solve completes (R39, R40, R42, R49) -/

/-- The node of a solve whose result is discarded (R39). -/
def Node.discarded (r : Node) : Node := { r with dirty := false, inFlight := false }

/-- The node of a solve whose result is stored against the claims present (R40). -/
def Node.stored (f : Flight) (r : Node) : Node :=
  { r with
    claims := r.claims.map fun c => { c with nextWeight := f.weightFor c.projector }
    inFlight := false
    nextValid := true }

/-- The handling of a completed solve, before the next one begins (R39, R40, R49). -/
def finishSolve (f : Flight) (s : State) : State :=
  let node := s.node f.node
  let t := s.setSolver { s.solver with flight := none }
  if node.dirty then t.modNode f.node Node.discarded
  else
    let u := t.modNode f.node (Node.stored f)
    let v := if node.groupMark && !node.nextValid then memberGained u else u
    if f.anyOffRaster then v.raise (.offRaster f.node) else v

/-- SOLVE_COMPLETION: the result is stored or discarded, and the next solve begins (R39, R40, R42). -/
def execSolveCompletion (s : State) : Host.Outcome State Fault Refusal :=
  .next (match s.solver.flight with
    | none => s
    | some f => startSolve (finishSolve f s))

/-! ### READ SOLVER (R50, R51) -/

/-- The reply of READ SOLVER: state, class lengths and, while SOLVING, the node in flight, its class and its dirty
flag (R50). -/
def solverAnswer (s : State) : Answer :=
  let busy := s.solver.flight.isSome
  .ok (packBits [busy, busy, busy] ++ u8 (if busy then 1 else 0)
    ++ u16 s.solver.urgent.length ++ u16 s.solver.normal.length
    ++ optional (fun f => u16 f.node ++ u8 f.cls.code ++ packBits [(s.node f.node).dirty]) s.solver.flight)

/-- READ SOLVER (R50, R51). -/
def execReadSolver (s : State) : Host.Outcome State Fault Refusal :=
  .next (runRequest 0x18 (fun _ t => (t, solverAnswer t)) s)

end Sys2Proof.Machine
end

