-- ==== Sys2Proof/Machine/Edits.lean ====
section
/-! DEFINITION. Edit Control (sections 3.1 to 3.3): SET CLAIM, DROP CLAIM, APPLY EDITS, WITHDRAW EDITS and DISCARD EDITS,
as the show controller's requests and as the Mesh Loader's records ask for them. -/

namespace Sys2Proof.Machine

/-! ### SET CLAIM (R54 to R56) -/

/-- The claim as SET CLAIM updates it (R56). -/
def Claim.updated (c : Claim) (q : Pos) (pin : PinField) : Claim :=
  { c with
    pendingPos := some q
    pendingPin := match pin with
      | .absent => c.pendingPin
      | .value v => some (.set v)
      | .clear => if c.pendingNew then none else some .clear
    pendingRemoval := false }

/-- The node joins the open set (R58). -/
def openNode (n : Nat) (s : State) : State := s.modNode n fun r => { r with openMark := true }

/-- SET CLAIM on a node and projector whose earlier checks have passed: the insertion of R13, then R55 or R56. -/
def placeClaim (n : Nat) (p : Slot) (q : Pos) (pin : PinField) (s : State) : State × SetAnswer :=
  match claimBy (s.node n).claims p with
  | some c =>
    (openNode n (s.modNode n fun r => r.modClaim p fun d => d.updated q pin),
      .taken (if c.pendingRemoval then .restored else .updated))
  | none =>
    if Config.listLimit ≤ (s.node n).claims.length then (s, .refused .listFull)
    else if s.dome.freeCount = 0 then (s, .refused .poolFull)
    else (openNode n (allocateClaim (newClaim p q pin) n s), .taken .created)

/-- SET CLAIM with its checks in order (R54): the ring names a node, the slot is 0..15, the projector is not VACANT and
not RETIRING, the node is not sealed, the insertion succeeds. -/
def editSetClaim (node : Option Nat) (slot : Nat) (q : Pos) (pin : PinField) (s : State) : State × SetAnswer :=
  match node with
  | none => (s, .refused .badNode)
  | some n =>
    match slotOf slot with
    | none => (s, .refused .badProjector)
    | some p =>
      if (s.proj p).state = .vacant then (s, .refused .badProjector)
      else if (s.proj p).state = .retiring then (s, .refused .state)
      else if (s.node n).groupMark then (s, .refused .sealed)
      else placeClaim n p q pin s

/-! ### DROP CLAIM (R57) -/

/-- DROP CLAIM on a claim that is there (R57). -/
def removeClaim (n : Nat) (p : Slot) (c : Claim) (s : State) : State × DropAnswer :=
  if c.pendingNew then (openNode n (freeClaim p n s), .taken .freed)
  else (openNode n (s.modNode n fun r => r.modClaim p fun d => { d with pendingRemoval := true }), .taken .marked)

/-- DROP CLAIM with its checks in order (R57): the ring names a node, the slot is 0..15, the node is not sealed, the
node holds a claim by the projector. -/
def editDropClaim (node : Option Nat) (slot : Nat) (s : State) : State × DropAnswer :=
  match node with
  | none => (s, .refused .badNode)
  | some n =>
    match slotOf slot with
    | none => (s, .refused .badProjector)
    | some p =>
      if (s.node n).groupMark then (s, .refused .sealed)
      else
        match claimBy (s.node n).claims p with
        | none => (s, .refused .noClaim)
        | some c => removeClaim n p c s

/-! ### APPLY EDITS (R59, R60, R65) -/

/-- The nodes of the open set in ascending node index (R52). -/
def State.openSet (s : State) : List Nat := nodeIndices.filter fun n => (s.node n).openMark

/-- The members of the sealed group in ascending node index (R52). -/
def State.group (s : State) : List Nat := nodeIndices.filter fun n => (s.node n).groupMark

/-- One node of the open set sealed into the group (R60). -/
def sealNode (s : State) (n : Nat) : State :=
  hardInvalidate .normal n (s.modNode n fun r => { r with openMark := false, groupMark := true })

/-- The seal of the open set, taken as one step: the ready count begins at 0 after it (R60). -/
def sealOpenSet (s : State) : State :=
  let t := s.openSet.foldl sealNode s
  t.setEdit { t.edit with groupState := .solving, members := s.openSet.length, readyCount := 0 }

/-- APPLY EDITS at Edit Control: refused while a group exists, else the open set is sealed if it holds nodes (R59). -/
def applyEdits (s : State) : State × ApplyAnswer :=
  if s.edit.groupState = .none then
    if s.openSet.isEmpty then (s, .sealed 0) else (sealOpenSet s, .sealed s.openSet.length)
  else (s, .busy)

/-- Apply-waiting taken at the dissolution of a group: the flag is cleared and an APPLY EDITS runs with no reply; the
size of the group sealed, 0 when none was (R65, R63). -/
def takeApplyWaiting (s : State) : State × Nat :=
  if s.edit.applyWaiting then
    match applyEdits (s.setEdit { s.edit with applyWaiting := false }) with
    | (t, .sealed k) => (t, k)
    | (t, .busy) => (t, 0)
  else (s, 0)

/-- The group ends: state NONE, M and the ready count 0 (R63, R69). -/
def dissolveGroup (s : State) : State :=
  s.setEdit { s.edit with groupState := .none, members := 0, readyCount := 0 }

/-! ### WITHDRAW EDITS and DISCARD EDITS (R63, R64) -/

/-- One member of the group returned to the open set (R63). -/
def withdrawNode (s : State) (n : Nat) : State :=
  invalidateUnqueued n (s.modNode n fun r => { r with openMark := true, groupMark := false })

/-- WITHDRAW EDITS on a group that exists: the number of members withdrawn, and the size of the group that a waiting
apply sealed (R63). -/
def withdrawGroup (s : State) : State × Nat × Nat :=
  let t := takeApplyWaiting (dissolveGroup (s.group.foldl withdrawNode s))
  (t.1, s.group.length, t.2)

/-- The pending-new claims of a node, by slot, in ascending order. -/
def Node.newSlots (r : Node) : List Slot := (r.claims.filter fun c => c.pendingNew).map Claim.projector

/-- A claim without its pending parts and its pending-removal mark (R64). -/
def Claim.unedited (c : Claim) : Claim := { c with pendingPos := none, pendingPin := none, pendingRemoval := false }

/-- One node of the open set discarded: its pending-new claims are freed, every other edit is removed, the open mark is
cleared (R64). -/
def discardNode (s : State) (n : Nat) : State :=
  let t := (s.node n).newSlots.foldl (fun u p => freeClaim p n u) s
  t.modNode n fun r => { r with claims := r.claims.map Claim.unedited, openMark := false }

/-- The number of pending-new claims on the nodes of the open set (R64). -/
def State.newClaimCount (s : State) : Nat := (s.openSet.map fun n => (s.node n).newSlots.length).sum

/-- DISCARD EDITS at Edit Control (R64). -/
def discardEdits (s : State) : State := s.openSet.foldl discardNode s

/-! ### Requests -/

/-- The OK reply of SET CLAIM: the node, the projector, the outcome and the free count after the request (R54). -/
def setAnswer (node : Option Nat) (slot : Nat) (t : State) : SetAnswer → Answer
  | .refused c => .bare c
  | .taken o => .ok (nodeField (node.getD 0) ++ u8 slot ++ u8 o.code ++ u16 t.dome.freeCount)

/-- SET CLAIM (R54, R23): fields address mode, ring, sector, slot, u, v, pin mode, pin value; a cursor-addressed request
advances the Map Cursor whatever its result. -/
def setClaimRequest (r : Request) (s : State) : State × Answer :=
  let mode := byteAt r.fields 0
  let node := addressedNode s mode (byteAt r.fields 1) (byteAt r.fields 2)
  let slot := byteAt r.fields 3
  let t := editSetClaim node slot ⟨wordAt r.fields 4, wordAt r.fields 6⟩
    (pinFieldOf (byteAt r.fields 8) (wordAt r.fields 9)) s
  (if mode = 0 then t.1 else t.1.advance, setAnswer node slot t.1 t.2)

/-- SET CLAIM (R54 to R56). -/
def execSetClaim (s : State) : Host.Outcome State Fault Refusal := .next (runRequest 0x10 setClaimRequest s)

/-- DROP CLAIM (R57): fields ring, sector, slot. -/
def dropClaimRequest (r : Request) (s : State) : State × Answer :=
  match editDropClaim (resolveNode (byteAt r.fields 0) (byteAt r.fields 1)) (byteAt r.fields 2) s with
  | (t, .refused c) => (t, .bare c)
  | (t, .taken o) => (t, .ok (u8 o.code))

/-- DROP CLAIM (R57). -/
def execDropClaim (s : State) : Host.Outcome State Fault Refusal := .next (runRequest 0x11 dropClaimRequest s)

/-- APPLY EDITS (R59): OK with the group size, or BUSY with the group state, M, the ready count and apply-waiting. -/
def applyEditsRequest (_ : Request) (s : State) : State × Answer :=
  match applyEdits s with
  | (t, .sealed k) => (startSolve t, .ok (u16 k))
  | (t, .busy) =>
    (t, ⟨.busy, u8 t.edit.groupState.code ++ u16 t.edit.members ++ u16 t.edit.readyCount
      ++ packBits [t.edit.applyWaiting]⟩)

/-- APPLY EDITS (R59, R60). -/
def execApplyEdits (s : State) : Host.Outcome State Fault Refusal := .next (runRequest 0x12 applyEditsRequest s)

/-- WITHDRAW EDITS (R63): NO_GROUP, or OK with the members withdrawn and the size of the group sealed. -/
def withdrawEditsRequest (_ : Request) (s : State) : State × Answer :=
  if s.edit.groupState = .none then (s, .bare .noGroup)
  else
    let t := withdrawGroup s
    (startSolve t.1, .ok (u16 t.2.1 ++ u16 t.2.2))

/-- WITHDRAW EDITS (R63). -/
def execWithdrawEdits (s : State) : Host.Outcome State Fault Refusal := .next (runRequest 0x13 withdrawEditsRequest s)

/-- DISCARD EDITS (R64): OK with the nodes discarded and the claims freed. -/
def discardEditsRequest (_ : Request) (s : State) : State × Answer :=
  (discardEdits s, .ok (u16 s.openSet.length ++ u16 s.newClaimCount))

/-- DISCARD EDITS (R64). -/
def execDiscardEdits (s : State) : Host.Outcome State Fault Refusal := .next (runRequest 0x14 discardEditsRequest s)

end Sys2Proof.Machine
end

