-- ==== Sys2Proof/Machine/FrameTimer.lean ====
section
/-! DEFINITION. The Frame Timer (chapter 8): the frame boundary, the period timer, the genlock pulses, the loss watchdog,
SET FRAME PERIOD and READ FRAME. -/

namespace Sys2Proof.Machine

/-- The state with the Frame Timer replaced. -/
def State.setTimer (s : State) (t : FrameTimer) : State := { s with timer := t }

/-- The deliveries after a further boundary: each consumer owes one more, and one raster frame start follows (R142). -/
def Owed.boundary (o : Owed) : Owed :=
  { swap := o.swap + 1, fade := o.fade + 1, slew := o.slew + 1, quota := o.quota + 1, raster := true }

/-- A frame boundary: the frame counter rises by one and wraps, and the boundary is delivered (R142). The swap that it owes
is a step of its own, before which no READ FRAME is taken (R148; `execReadFrame`). -/
def boundary (s : State) : State :=
  { s with timer := { s.timer with counter := s.timer.counter + 1 }, owed := s.owed.boundary }

/-! ### Counting out frames (R143) -/

/-- PERIOD_TIMER_EXPIRY: a boundary, and the timer is started again toward an expiry one programmed period later
(R143). A stopped timer has no expiry pending. -/
def execPeriodTimerExpiry (s : State) : Host.Outcome State Fault Refusal :=
  .next (match s.timer.expiry with
    | none => s
    | some t => boundary (s.setTimer { s.timer with expiry := some (t + s.timer.period) }))

/-! ### Genlock pulses (R144, R145) -/

/-- A spacing lies within 8,000..50,000 µs (R144). -/
def spacingFits (d : Nat) : Bool := decide (Config.minPeriod ≤ d ∧ d ≤ Config.maxPeriod)

/-- The second spacing differs from the first by no more than 1% of the first (R144). -/
def steady (d1 d2 : Nat) : Bool := decide (((d2 : Int) - d1).natAbs * 100 ≤ d1)

/-- Where the loss watchdog expires for a last pulse and a measured period (R141, R145). -/
def watchdogAt (time measured : Nat) : Nat := time + measured + measured / 2

/-- The Frame Timer after the pulse that completes an acquisition, its boundary apart (R144). -/
def FrameTimer.acquired (t : FrameTimer) (time measured : Nat) : FrameTimer :=
  { t with
    state := .genlocked
    expiry := none
    measured := some measured
    lastPulse := some time
    run := []
    watchdog := some (watchdogAt time measured) }

/-- The step of an acquisition (R144). -/
def acquire (time measured : Nat) (s : State) : State :=
  (boundary (s.setTimer (s.timer.acquired time measured))).raise (.genlock true)

/-- The pulse run of a search replaced (R144). -/
def State.setRun (s : State) (run : List Nat) : State := s.setTimer { s.timer with run := run }

/-- A pulse taken in SEEKING or FREE_RUN, by the pulse run, oldest first (R144). -/
def searchPulse (time : Nat) (s : State) : State :=
  match s.timer.run with
  | [] => s.setRun [time]
  | [a] => if spacingFits (time - a) then s.setRun [a, time] else s.setRun [time]
  | a :: b :: _ =>
    if spacingFits (time - b) then
      if steady (b - a) (time - b) then acquire time (time - b) s else s.setRun [b, time]
    else s.setRun [time]

/-- The Frame Timer after a pulse accepted in GENLOCKED, its boundary apart (R145). -/
def FrameTimer.followed (t : FrameTimer) (time spacing : Nat) : FrameTimer :=
  { t with
    measured := some (min Config.maxPeriod spacing)
    lastPulse := some time
    watchdog := some (watchdogAt time (min Config.maxPeriod spacing)) }

/-- A pulse taken in GENLOCKED, by its spacing from the last pulse (R145). -/
def followPulse (time : Nat) (s : State) : State :=
  let spacing := time - s.timer.lastPulse.getD 0
  if spacing < Config.minPeriod then s else boundary (s.setTimer (s.timer.followed time spacing))

/-- GENLOCK_PULSE (R144, R145). -/
def execGenlockPulse (time : Nat) (s : State) : Host.Outcome State Fault Refusal :=
  .next (match s.timer.state with
    | .genlocked => followPulse time s
    | .seeking => searchPulse time s
    | .freeRun => searchPulse time s)

/-! ### The loss of genlock (R146) -/

/-- The Frame Timer after an expiry of the loss watchdog, its boundary apart: the period timer is started one programmed
period after the expiry (R146). -/
def FrameTimer.lost (t : FrameTimer) (expiry : Nat) : FrameTimer :=
  { t with
    state := .freeRun
    measured := none
    lastPulse := none
    watchdog := none
    run := []
    expiry := some (expiry + t.period) }

/-- LOSS_WATCHDOG_EXPIRY (R146). A stopped watchdog has no expiry pending. -/
def execLossWatchdogExpiry (s : State) : Host.Outcome State Fault Refusal :=
  .next (match s.timer.watchdog with
    | none => s
    | some t => (boundary (s.setTimer (s.timer.lost t))).raise (.genlock false))

/-! ### Requests (R147, R148) -/

/-- SET FRAME PERIOD: the programmed period is replaced by the clamped value (R147). -/
def setFramePeriodRequest (r : Request) (s : State) : State × Answer :=
  let period := clamp Config.minPeriod Config.maxPeriod (wordAt r.fields 0)
  (s.setTimer { s.timer with period := period }, .ok (u16 period))

/-- SET FRAME PERIOD (R147). -/
def execSetFramePeriod (s : State) : Host.Outcome State Fault Refusal := .next (runRequest 0x38 setFramePeriodRequest s)

/-- The reply of READ FRAME (R148). -/
def frameAnswer (t : FrameTimer) : Answer :=
  .ok (packBits [t.measured.isSome] ++ u8 t.state.code ++ u16 t.period ++ optional u16 t.measured
    ++ u8 t.run.length ++ u32 t.counter.toNat ++ u8 t.content.code)

/-- The head request is a READ FRAME of the required length (section 13.2). -/
def State.readsFrame (s : State) : Bool := s.port.requests.head?.any fun r => r.code.toNat == 0x39 && r.length == 2

/-- READ FRAME (R148). The difference of two counters is the number of swaps taken between the two reads, so no read is
taken between a boundary and its swap. DEDUCED (log 3): while a swap is owed the request waits at the head of the Request
Queue; it is never refused. -/
def execReadFrame (s : State) : Host.Outcome State Fault Refusal :=
  .next (if 0 < s.owed.swap ∧ s.readsFrame = true then s
    else runRequest 0x39 (fun _ t => (t, frameAnswer t.timer)) s)

end Sys2Proof.Machine
end

