-- ==== Sys2Proof/Machine/Gains.lean ====
section
/-! DEFINITION. Luminance matching (chapter 5): the recomputation of the gain targets, the slew of the live gains, and
the gain requests. -/

namespace Sys2Proof.Machine

/-! ### Gain targets (R97 to R99) -/

/-- The reference luminance: the least luminance among the contributing projectors that have one (R98). -/
def State.reference (s : State) : Option Nat :=
  (s.projectors.toList.filterMap fun r => if r.state.contributing then r.luminance else none).min?

/-- The gain target and the limited flag that a recomputation gives a slot (R98). -/
def gainTargetFor (floor : Nat) (reference luminance : Option Nat) : Nat × Bool :=
  match reference, luminance with
  | none, _ => (Config.unity, false)
  | some _, none => (Config.unity, false)
  | some l, some lp =>
    let t := Config.unity * l / lp
    if Config.unity < t then (Config.unity, false)
    else if floor ≤ t then (t, false)
    else (floor, true)

/-- A record with the target and the limited flag of a recomputation (R98). -/
def Projector.retargeted (r : Projector) (floor : Nat) (reference : Option Nat) : Projector :=
  { r with
    gainTarget := (gainTargetFor floor reference r.luminance).1
    limited := (gainTargetFor floor reference r.luminance).2 }

/-- Every record changed. -/
def State.mapProj (s : State) (f : Projector → Projector) : State :=
  { s with projectors := s.projectors.map f }

/-- GAIN_LIMIT raised for each limited slot of a list, in its order (R99). -/
def raiseLimits (ps : List Slot) (s : State) : State :=
  ps.foldl (fun t p => if (t.proj p).limited then t.raise (.gainLimit p) else t) s

/-- A recomputation of the gain targets of all slots, with GAIN_LIMIT for each clamped slot in ascending order
(R98, R99). -/
def recomputeGains (s : State) : State :=
  raiseLimits slots (s.mapProj fun r => r.retargeted s.gain.floor s.reference)

/-- A luminance value of a LUMA report stored, or removed by 0, and the targets recomputed in the same step (R96). -/
def storeLuminance (p : Slot) (value : Nat) (s : State) : State :=
  recomputeGains (s.modProj p fun r => { r with luminance := if value = 0 then none else some value })

/-! ### Slew (R101) -/

/-- A live gain moved at most one slew step toward its target (R101). -/
def slewed (live target step : Nat) : Nat :=
  if live < target then min target (live + step)
  else if target < live then max target (live - step)
  else live

/-- The slew of all sixteen live gains (R101). -/
def slewGains (s : State) : State :=
  s.mapProj fun r => { r with gainLive := slewed r.gainLive r.gainTarget s.gain.slew }

/-- GAIN SLEW: the Projector Table takes the slew of one frame boundary, when one is owed (R101, R142). -/
def execGainSlew (s : State) : Host.Outcome State Fault Refusal :=
  .next (if s.owed.slew = 0 then s
    else { slewGains s with owed := { s.owed with slew := s.owed.slew - 1 } })

/-! ### Gain requests (R103 to R105) -/

/-- SET GAIN FLOOR taken with a floor already clamped: the floor is replaced, live gains below it are raised to it, and
the targets are recomputed (R103). -/
def setFloor (floor : Nat) (s : State) : State :=
  recomputeGains
    ({ s with gain := { s.gain with floor := floor } }.mapProj fun r => { r with gainLive := max floor r.gainLive })

/-- The number of slots whose limited flag is set (R103). -/
def State.limitedCount (s : State) : Nat := s.projectors.toList.countP fun r => r.limited

/-- SET GAIN FLOOR (R103). -/
def setGainFloorRequest (r : Request) (s : State) : State × Answer :=
  let floor := clamp 1024 4096 (wordAt r.fields 0)
  let t := setFloor floor s
  (t, .ok (u16 t.gain.floor ++ u8 t.limitedCount))

/-- SET GAIN FLOOR (R103). -/
def execSetGainFloor (s : State) : Host.Outcome State Fault Refusal := .next (runRequest 0x28 setGainFloorRequest s)

/-- SET GAIN SLEW: clamped to 1..4096; no gain changes (R104). -/
def setGainSlewRequest (r : Request) (s : State) : State × Answer :=
  let step := clamp 1 4096 (wordAt r.fields 0)
  ({ s with gain := { s.gain with slew := step } }, .ok (u16 step))

/-- SET GAIN SLEW (R104). -/
def execSetGainSlew (s : State) : Host.Outcome State Fault Refusal := .next (runRequest 0x29 setGainSlewRequest s)

/-- One slot's entry of the READ GAINS reply (R105, R197). -/
def gainEntry (r : Projector) : List Byte :=
  u8 r.state.code ++ optional u16 r.luminance ++ u16 r.gainTarget ++ u16 r.gainLive

/-- The reply of READ GAINS: floor, slew step, reference, the masks of limited flags and of luminances, and the sixteen
entries (R105, R197). -/
def gainsAnswer (s : State) : Answer :=
  let ps := s.projectors.toList
  .ok (packBits [s.reference.isSome] ++ u16 s.gain.floor ++ u16 s.gain.slew ++ optional u16 s.reference
    ++ packBits (ps.map fun r => r.limited) ++ packBits (ps.map fun r => r.luminance.isSome)
    ++ ps.flatMap gainEntry)

/-- READ GAINS (R105). -/
def execReadGains (s : State) : Host.Outcome State Fault Refusal :=
  .next (runRequest 0x2A (fun _ t => (t, gainsAnswer t)) s)

end Sys2Proof.Machine
end

