-- ==== Sys2Proof/WellFormed.lean ====
section
/-! DEFINITION. Which commands can reach the part at all: the operands that the types alone do not bound. A slot is
bounded by its type, and a byte by its width. An ill-formed command stands for no event of the hardware, and its
meaning leaves the state as it is (log 2). -/

namespace Sys2Proof

/-- A sample has levels 0..1023 (R116). -/
def Sample.wf (s : Sample) : Bool :=
  decide (s.red ≤ Config.levelMax ∧ s.green ≤ Config.levelMax ∧ s.blue ≤ Config.levelMax)

/-- A dome frame is canonical, its keys lie in the 4096 × 1024 frame, and its levels fit (R117, R116). -/
def DomeFrame.wf (f : DomeFrame) : Bool :=
  Machine.Sparse.wf Sample.black f.cells
    && f.cells.all (fun c => decide (c.1 < Config.frameSamples) && c.2.wf)

/-- A fetch answers with the 8 bytes of a COMPACT record or the 10 bytes of a FULL record (R174). -/
def FetchResult.wf : FetchResult → Bool
  | .data bytes => bytes.length == 8 || bytes.length == 10
  | .readError => true
  | .noResponse => true

/-- The command's operands are ones the hardware's event can carry. -/
def Instr.wf : Instr → Bool
  | .domeFrameComplete frame => frame.wf
  | .domeFrameBadCount samples => samples != Config.frameSamples
  | .fetchCompletion _ result => result.wf
  | .resetLine | .selectAssert | .unitHeader _ | .requestLength _ | .requestPayloadByte _ | .replyByte
  | .selectRelease | .readNode | .readPoint | .placeCursor | .setWalk | .clearMap | .setClaim | .dropClaim
  | .applyEdits | .withdrawEdits | .discardEdits | .readSolver | .enrolProjector | .fadeProjector
  | .retireProjector | .setRamp | .readProjector | .setGainFloor | .setGainSlew | .readGains | .restartOutput
  | .setFramePeriod | .readFrame | .setAlignLink | .clearAlignErrors | .resetAlignReceiver | .readAlignStatus
  | .loadMesh | .stopLoad | .resumeLoad | .resetLoader | .readLoader | .readEvents | .clearEvents
  | .setEventMask | .resetDevice | .unknownCode | .periodTimerExpiry | .genlockPulse _ | .lossWatchdogExpiry
  | .swap | .fadeStep | .gainSlew | .quotaRenewal | .rasterFrameStart | .sendPixel _ | .contentSignalLost
  | .contentSignalReturn | .solveCompletion | .synthStartCompletion _ | .lockIndicationRise _
  | .lockIndicationFall _ | .lockTimeout _ | .windowCompletion _ _ | .readyRawChange _ _ | .debounceExpiry _
  | .byteCompletion _ _ _ | .lineIdle | .lineBreak | .assemblerTake | .driftReport | .lumaReport
  | .stepReport => true

end Sys2Proof
end

