-- ==== Sys2Proof/Machine/Loader.lean ====
section
/-! DEFINITION. The Mesh Loader (chapter 10): LOAD MESH, the quota renewal, the completion of a fetch and the storing of
its record, the ends of a load, and the loader's requests. The fetch decision stands in Machine/Pacing.lean. -/

namespace Sys2Proof.Machine

/-! ### LOAD MESH (R169) -/

/-- The count of records that a descriptor asks for: a count field of 0 means 65,536 (R169). -/
def Descriptor.total (d : Descriptor) : Nat := if d.count = 0 then 65536 else d.count

/-- The descriptor of a LOAD MESH request, clamped (R169): fields start address, count, format, pacing, quota, honour
end, apply at end. -/
def descriptorOf (bs : List Byte) : Descriptor :=
  { start := tripleAt bs 0
    count := wordAt bs 3
    format := if byteAt bs 5 = 0 then .compact else .full
    pacing := pacingOf (byteAt bs 6)
    quota := clamp 1 Config.quotaMax (wordAt bs 7)
    honourEnd := yesNo (byteAt bs 9)
    applyAtEnd := yesNo (byteAt bs 10) }

/-- The loader RUNNING a new load, before its first fetch decision (R169). -/
def Loader.started (l : Loader) (d : Descriptor) : Loader :=
  { l with
    state := .running
    reason := none
    descriptor := some d
    nextAddress := d.start
    remaining := d.total
    stored := 0
    stopPending := false
    quotaUsed := 0
    outcome := .none
    fault := none
    applyResult := .notAsked }

/-- A descriptor in a reply but for its two flags (R169, R181). -/
def descriptorFields (d : Descriptor) : List Byte :=
  u24 d.start ++ u16 d.count ++ u8 d.format.code ++ u8 d.pacing.code ++ u16 d.quota

/-- LOAD MESH (R169). -/
def loadMeshRequest (r : Request) (s : State) : State × Answer :=
  if s.loader.state = .idle then
    let d := descriptorOf r.fields
    let t := fetchDecision false (s.setLoader (s.loader.started d))
    (t, .ok (descriptorFields d ++ packBits [d.honourEnd, d.applyAtEnd] ++ u8 t.loader.state.code))
  else (s, ⟨.busy, u8 s.loader.state.code ++ u24 s.loader.remaining ++ u24 s.loader.stored⟩)

/-- LOAD MESH (R169). -/
def execLoadMesh (s : State) : Host.Outcome State Fault Refusal := .next (runRequest 0x48 loadMeshRequest s)

/-! ### The frame quota (R171) -/

/-- The quota renewed: a loader WAITING for QUOTA is released (R171). -/
def renewQuota (s : State) : State :=
  let t := s.setLoader { s.loader with quotaUsed := 0 }
  if s.loader.waitsFor .quota then releaseLoader false t else t

/-- QUOTA_RENEWAL: the Mesh Loader takes one frame boundary, when one is owed (R171, R142). -/
def execQuotaRenewal (s : State) : Host.Outcome State Fault Refusal :=
  .next (if s.owed.quota = 0 then s
    else renewQuota { s with owed := { s.owed with quota := s.owed.quota - 1 } })

/-! ### Ends of a load (R177, R178) -/

/-- The loader IDLE, with no fetch in flight (R177, R178). -/
def Loader.ended (l : Loader) (o : LoadOutcome) : Loader :=
  { l with state := .idle, reason := none, fetch := none, stopPending := false, outcome := o }

/-- A load that ends in a fault: index and reason are recorded, and LOAD_FAULT raised (R177, R178). -/
def endFaulted (o : LoadOutcome) (reason : FaultReason) (s : State) : State :=
  (s.setLoader { s.loader.ended o with fault := some (s.loader.stored, reason) }).raise
    (.loadFault o s.loader.stored reason)

/-- The apply result (R178). -/
def State.setApplyResult (s : State) (r : ApplyResult) : State := s.setLoader { s.loader with applyResult := r }

/-- The apply at end: an APPLY EDITS with no reply; when a group exists it is refused, and Edit Control sets
apply-waiting (R178, R65). -/
def applyAtEnd (s : State) : State :=
  match applyEdits s with
  | (t, .sealed 0) => t.setApplyResult .empty
  | (t, .sealed k) => t.setApplyResult (.sealed k)
  | (t, .busy) => (t.setEdit { t.edit with applyWaiting := true }).setApplyResult .deferred

/-- The load asks for an apply at its end (R169). -/
def Loader.wantsApply (l : Loader) : Bool :=
  match l.descriptor with
  | some d => d.applyAtEnd
  | none => false

/-- A load that ends without a fault: the apply at end is taken, then LOAD_DONE is raised (R178). -/
def endDone (o : LoadOutcome) (s : State) : State :=
  let t := s.setLoader (s.loader.ended o)
  (if s.loader.wantsApply then applyAtEnd t else t).raise (.loadDone o s.loader.stored)

/-! ### Storing a record (R175, R176) -/

/-- The loader after a stored record: the address advances by the record size and wraps, remaining falls and stored
rises, and no fetch is in flight (R176). -/
def Loader.counted (l : Loader) (size : Nat) : Loader :=
  { l with
    fetch := none
    nextAddress := (l.nextAddress + size) % Config.addressSpace
    remaining := l.remaining - 1
    stored := l.stored + 1 }

/-- A record stored: the counts advance, and the load ends by count or makes its fetch decision (R176). -/
def recordStored (d : Descriptor) (s : State) : State :=
  let t := s.setLoader (s.loader.counted d.format.size)
  if t.loader.remaining = 0 then endDone .doneCount t else fetchDecision false t

/-- The fault reason of a result that refuses an edit, in a store refusal (R177). -/
def refusalReason : ResultCode → FaultReason
  | .badNode => .badNode
  | .badProjector => .badProjector
  | .state => .state
  | .sealed => .sealed
  | .listFull => .listFull
  | .poolFull => .poolFull
  | .noClaim => .noClaim
  | .ok | .busy | .noGroup | .unknown | .badLength => .badRecord

/-- A decoded record taken: stored as its edit, an END record honoured or passed over, or refused (R175 to R178). -/
def takeRecord (d : Descriptor) (m : MeshRecord) (s : State) : State :=
  match m with
  | .claim slot ring sector q pin =>
    match editSetClaim (resolveNode ring sector) slot q pin s with
    | (t, .taken _) => recordStored d t
    | (_, .refused c) => endFaulted .faultStore (refusalReason c) s
  | .drop slot ring sector =>
    match editDropClaim (resolveNode ring sector) slot s with
    | (t, .taken _) => recordStored d t
    | (_, .refused c) => endFaulted .faultStore (refusalReason c) s
  | .endMark => if d.honourEnd then endDone .doneEnd s else recordStored d s
  | .bad => endFaulted .faultStore .badRecord s

/-- The completion of the fetch in flight; the bytes of a record stand in the order of the addresses asked, and one that
runs past the last address continues from address 0 (R174 to R178, `Loader.asked`). -/
def completeFetch (d : Descriptor) (result : FetchResult) (s : State) : State :=
  match result with
  | .data bytes => takeRecord d (decodeRecord d.format bytes) s
  | .readError => endFaulted .faultFetch .readError s
  | .noResponse => endFaulted .faultFetch .noResponse s

/-- The Memory Port answers with one byte for each address asked, or without data (R174; DEDUCED, log 13). -/
def Loader.isAnsweredBy (l : Loader) : FetchResult → Bool
  | .data bytes => bytes.length == l.asked.length
  | .readError => true
  | .noResponse => true

/-- FETCH_COMPLETION: a completion that does not belong to the fetch in flight is ignored (R174, log 13). -/
def execFetchCompletion (serial : Nat) (result : FetchResult) (s : State) : Host.Outcome State Fault Refusal :=
  .next (match s.loader.fetch, s.loader.descriptor with
    | some f, some d =>
      if f.serial = serial ∧ s.loader.isAnsweredBy result = true then startSolve (completeFetch d result s) else s
    | _, _ => s)

/-! ### Requests (R179 to R181) -/

/-- What STOP LOAD does to the loader; none when it is refused with STATE (R179). -/
def Loader.stop (l : Loader) : Option Loader :=
  match l.state with
  | .running => some { l with stopPending := true }
  | .waiting => some { l with state := .held, reason := none }
  | .held => some l
  | .idle => none

/-- The reply fields of STOP LOAD: the loader state and stop pending (R179). -/
def stopFields (l : Loader) : List Byte := u8 l.state.code ++ packBits [l.stopPending]

/-- STOP LOAD (R179). -/
def stopLoadRequest (_ : Request) (s : State) : State × Answer :=
  match s.loader.stop with
  | none => (s, ⟨.state, stopFields s.loader⟩)
  | some l => (s.setLoader l, .ok (stopFields l))

/-- STOP LOAD (R179). -/
def execStopLoad (s : State) : Host.Outcome State Fault Refusal := .next (runRequest 0x49 stopLoadRequest s)

/-- What RESUME LOAD does; none when it is refused with STATE (R179). -/
def resumeLoad (s : State) : Option State :=
  match s.loader.state with
  | .held => some (releaseLoader false s)
  | .running => some (s.setLoader { s.loader with stopPending := false })
  | .waiting => some s
  | .idle => none

/-- RESUME LOAD (R179). -/
def resumeLoadRequest (_ : Request) (s : State) : State × Answer :=
  match resumeLoad s with
  | none => (s, ⟨.state, u8 s.loader.state.code⟩)
  | some t => (t, .ok (u8 t.loader.state.code))

/-- RESUME LOAD (R179). -/
def execResumeLoad (s : State) : Host.Outcome State Fault Refusal := .next (runRequest 0x4A resumeLoadRequest s)

/-- The loader after RESET LOADER: the descriptor, the counts and the apply result keep their values (R180). -/
def Loader.resetByRequest (l : Loader) : Loader := { l.ended .reset with fault := none }

/-- RESET LOADER (R180). -/
def resetLoaderRequest (_ : Request) (s : State) : State × Answer :=
  (s.setLoader s.loader.resetByRequest,
    .ok (u8 s.loader.state.code ++ u24 s.loader.remaining ++ u24 s.loader.stored))

/-- RESET LOADER (R180). -/
def execResetLoader (s : State) : Host.Outcome State Fault Refusal := .next (runRequest 0x4B resetLoaderRequest s)

/-- The group size of an apply result that is SEALED (R181). -/
def ApplyResult.size : ApplyResult → Option Nat
  | .sealed k => some k
  | .notAsked => none
  | .empty => none
  | .deferred => none

/-- The reply of READ LOADER (R181, R197): its optional parts are the waiting reason, the descriptor, the fault record and
the group size; its flags are stop pending, the fetch in flight, and the descriptor's two flags when it is present. -/
def loaderAnswer (l : Loader) : Answer :=
  .ok (packBits [l.reason.isSome, l.descriptor.isSome, l.fault.isSome, l.applyResult.size.isSome]
    ++ u8 l.state.code ++ optional (fun r => u8 r.code) l.reason
    ++ packBits ([l.stopPending, l.fetch.isSome] ++ match l.descriptor with
      | some d => [d.honourEnd, d.applyAtEnd]
      | none => [])
    ++ optional descriptorFields l.descriptor
    ++ u24 l.nextAddress ++ u24 l.remaining ++ u24 l.stored ++ u16 l.quotaUsed
    ++ u8 l.outcome.code ++ optional (fun f => u24 f.1 ++ u8 f.2.code) l.fault
    ++ u8 l.applyResult.code ++ optional u16 l.applyResult.size)

/-- READ LOADER (R181). -/
def execReadLoader (s : State) : Host.Outcome State Fault Refusal :=
  .next (runRequest 0x4C (fun _ t => (t, loaderAnswer t.loader)) s)

end Sys2Proof.Machine
end

