-- ==== Sys2Proof/Machine/Channels.lean ====
section
/-! DEFINITION. The Output Channels' own operations (chapter 7) that the Projector Table asks for: the beginning of a
lock sequence, turning a channel OFF, and the stop of a pixel stream. The events of a channel stand in
Machine/LockEvents.lean, after the Projector Table that takes their reports. -/

namespace Sys2Proof.Machine

/-- A pixel stream stops at once: the channel leaves the drawn set and its link carries no stream (R108, R133). -/
def stopStream (p : Slot) (s : State) : State :=
  { s with raster := { s.raster with
      streams := s.raster.streams.set p.val none p.isLt
      links := s.raster.links.set p.val none p.isLt } }

/-- The expected comparator count for a pixel clock in kHz (R124). -/
def expectedCount (clock : Nat) : Nat := (65536 * clock + 50000) / 100000

/-- The channel's synthesizer stopped, if it was running, and started: the new start has the next number, and the events
not yet taken that belong to an earlier start are not taken after it (R124, R126, R129; log 25). -/
def Channel.restarted (c : Channel) : Channel := { c with starts := c.starts + 1 }

/-- An event of the channel's synthesizer belongs to its last start (R125, R126; log 25). -/
def Channel.current (c : Channel) (start : Nat) : Bool := start == c.starts

/-- The channel at the beginning of a lock sequence: attempt 1, E and the tolerance from the pixel clock, STARTING, the
synthesizer started; the last completed count is left as it stands (R124). -/
def Channel.begun (c : Channel) (clock : Nat) : Channel :=
  { c.restarted with
    lock := .starting, attempts := 1, expected := expectedCount clock, tolerance := expectedCount clock / 512 }

/-- A lock sequence begins (R124). -/
def beginSequence (p : Slot) (s : State) : State := s.modChan p fun c => c.begun (s.proj p).pixelClock

/-- The channel of an emptied slot: OFF with attempt count 0, the rest as it stands (R133). -/
def Channel.turnedOff (c : Channel) : Channel := { c with lock := .off, attempts := 0 }

/-- The channel of an emptied slot is turned OFF and its stream stops (R133). -/
def turnOff (p : Slot) (s : State) : State := stopStream p (s.modChan p Channel.turnedOff)

end Sys2Proof.Machine
end

