-- ==== Sys2Proof/Machine/Projectors.lean ====
section
/-! DEFINITION. The Projector Table (chapter 4): the emptying of a slot, entry into RETIRING and into FAILED, the reports
of the Output Channels, fades and cuts, and the projector requests. -/

namespace Sys2Proof.Machine

/-! ### The emptying of a slot (R87) -/

/-- The record of an emptied slot: VACANT, φ 0, nothing outstanding, no luminance; the settings keep their values
(R87). -/
def Projector.emptied (r : Projector) : Projector :=
  { r with state := .vacant, phi := 0, fade := none, failCause := none, failover := 0, luminance := none }

/-- A RETIRING projector whose claim count reached 0 leaves its slot (R87, R133, R173). -/
def emptySlot (p : Slot) (s : State) : State :=
  let t := (recomputeGains (turnOff p (s.modProj p Projector.emptied))).raise (.fadeDone p true)
  if 0 < (s.proj p).failover then reportYield t else t

/-- The slot is emptied when its projector is RETIRING with no claim left (R87). -/
def emptyIfDone (p : Slot) (s : State) : State :=
  if (s.proj p).state = .retiring ∧ (s.proj p).claimCount = 0 then emptySlot p s else s

/-! ### Entry into RETIRING (R86) -/

/-- A retiring projector's claim on one node: a pending-new claim is freed, any other is marked withdrawn (R86). -/
def withdrawAt (p : Slot) (s : State) (n : Nat) : State :=
  match claimBy (s.node n).claims p with
  | none => s
  | some c =>
    if c.pendingNew then freeClaim p n s
    else s.modNode n fun r => r.modClaim p fun d => { d with withdrawn := true }

/-- The record of a projector entering RETIRING (R86, step 1). -/
def Projector.retired (r : Projector) : Projector :=
  { r with state := .retiring, phi := 0, fade := none, failCause := none }

/-- Entry into RETIRING, taken as one step (R86). -/
def enterRetiring (p : Slot) (s : State) : State :=
  let ns := s.claimNodes p
  let t := ns.foldl (withdrawAt p) (s.modProj p Projector.retired)
  let u := invalidateAll .urgent ns t
  let v := if (s.proj p).state.contributing then recomputeGains u else u
  emptyIfDone p v

/-! ### Entry into FAILED (R89, R90) -/

/-- The record of a projector entering FAILED (R89). -/
def Projector.failedWith (r : Projector) (cause : FailCause) : Projector :=
  { r with state := .failed, phi := 0, fade := none, failCause := some cause }

/-- Entry into FAILED, taken as one step; a contributing projector also owes its failover, and its nodes are
hard-invalidated URGENT (R89). -/
def enterFailed (p : Slot) (cause : FailCause) (s : State) : State :=
  let t := (s.modProj p fun r => r.failedWith cause).raise (.projFault p cause)
  if (s.proj p).state.contributing then recomputeGains (invalidateClaimed p (oweFailover p t)) else t

/-- A failure during a retire-fade enters RETIRING instead of FAILED (R90). -/
def failRetiring (p : Slot) (cause : FailCause) (s : State) : State :=
  enterRetiring p ((oweFailover p s).raise (.projFault p cause))

/-- The fade record of a slot has its retire-after flag set. -/
def State.retireFade (s : State) (p : Slot) : Bool :=
  match (s.proj p).fade with
  | some f => f.retireAfter
  | none => false

/-- A failure of a contributing projector: R90 when retire-after is set, else R89. -/
def failContributing (p : Slot) (cause : FailCause) (s : State) : State :=
  if s.retireFade p then failRetiring p cause s else enterFailed p cause s

/-! ### Reports of the Output Channels (R88, R91) -/

/-- A fault on a FAILED projector replaces its cause (R88). -/
def replaceCause (p : Slot) (cause : FailCause) (s : State) : State :=
  (s.modProj p fun r => { r with failCause := some cause }).raise (.projFault p cause)

/-- A fault start of the ready line, by the projector's state and its auto-failover setting (R88). -/
def takeFaultStart (p : Slot) (s : State) : State :=
  let auto := (s.proj p).autoFailover
  match (s.proj p).state with
  | .vacant => s
  | .parked => if auto then enterFailed p .line s else s.raise (.projFault p .line)
  | .fadingIn | .live | .fadingOut =>
    if auto then failContributing p .line s else s.raise (.projFault p .line)
  | .failed => replaceCause p .line s
  | .retiring => s.raise (.projFault p .line)

/-- A lock loss or a lock failure, by the projector's state, whatever its auto-failover setting (R88). -/
def takeLockFault (p : Slot) (cause : FailCause) (s : State) : State :=
  match (s.proj p).state with
  | .vacant => s
  | .parked => enterFailed p cause s
  | .fadingIn | .live | .fadingOut => failContributing p cause s
  | .failed => replaceCause p cause s
  | .retiring => s.raise (.projFault p cause)

/-- The recovery check at a fault end or a lock completion: a FAILED projector with the taken level READY and the channel
LOCKED returns to PARKED (R88, R91). -/
def recoveryCheck (p : Slot) (s : State) : State :=
  if (s.proj p).state = .failed ∧ (s.chan p).taken = .ready ∧ (s.chan p).lock = .locked then
    (s.modProj p fun r => { r with state := .parked, failCause := none }).raise (.projRecover p)
  else s

/-! ### Fades and cuts (R80 to R84) -/

/-- φ at an elapsed count of a fade record (R81). -/
def Fade.phi (f : Fade) : Nat :=
  ((f.start : Int)
    + (2 * ((f.target : Int) - f.start) * f.elapsed + f.length) / (2 * (f.length : Int))).toNat

/-- A fade start: a new fade record, the fading state, a soft refresh of the projector's nodes, and from PARKED a
recomputation of the gain targets (R80). -/
def startFade (p : Slot) (state : ProjState) (f : Fade) (s : State) : State :=
  let t := refreshClaimed p (s.modProj p fun r => { r with state := state, fade := some f })
  if (s.proj p).state = .parked then recomputeGains t else t

/-- A cut in (R84). -/
def cutIn (p : Slot) (s : State) : State :=
  let t := refreshClaimed p (s.modProj p fun r => { r with state := .live, phi := 256, fade := none })
  if (s.proj p).state = .parked then recomputeGains t else t

/-- A cut out (R84). -/
def cutOut (p : Slot) (s : State) : State :=
  recomputeGains (invalidateClaimed p (s.modProj p fun r => { r with state := .parked, phi := 0, fade := none }))

/-- A fade out started from a φ, as R79 and R85 give it. -/
def startFadeOut (p : Slot) (start length : Nat) (retireAfter : Bool) (s : State) : State :=
  startFade p .fadingOut
    { start := start, target := 0, length := length, elapsed := 0, retireAfter := retireAfter } s

/-- A fade in started from a φ, as R78 gives it. -/
def startFadeIn (p : Slot) (start length : Nat) (s : State) : State :=
  startFade p .fadingIn
    { start := start, target := 256, length := length, elapsed := 0, retireAfter := false } s

/-- The completion of a fade (R83). -/
def completeFade (p : Slot) (f : Fade) (s : State) : State :=
  let t := (s.modProj p fun r => { r with fade := none }).raise (.fadeDone p false)
  if (s.proj p).state = .fadingIn then t.modProj p fun r => { r with state := .live }
  else if f.retireAfter then enterRetiring p t
  else recomputeGains (t.modProj p fun r => { r with state := .parked })

/-- One fade step of one projector: j rises, φ follows, the nodes are soft-refreshed, and at N the fade completes (R82,
R83). -/
def fadeStepOf (p : Slot) (s : State) : State :=
  match (s.proj p).fade with
  | none => s
  | some f =>
    let g := { f with elapsed := f.elapsed + 1 }
    let t := refreshClaimed p (s.modProj p fun r => { r with fade := some g, phi := g.phi })
    if g.elapsed = g.length then completeFade p g t else t

/-- One fade step on one projector's record, and the solve that may begin with it (R82, R30). -/
def fadeStepSlot (s : State) (p : Slot) : State := startSolve (fadeStepOf p s)

/-- FADE STEP: the Projector Table takes one fade step for each fading projector, when a boundary is owed (R82, R142).
DESIGN CHOICE (log 27): the projectors are taken in ascending slot order; the manual gives no order among them. -/
def execFadeStep (s : State) : Host.Outcome State Fault Refusal :=
  .next (if s.owed.fade = 0 then s
    else slots.foldl fadeStepSlot { s with owed := { s.owed with fade := s.owed.fade - 1 } })

/-! ### Requests (R77 to R79, R85, R93, R94) -/

/-- The record that ENROL PROJECTOR fills (R77). -/
def Projector.enrolled (r : Projector) (w h ramp clock : Nat) (auto : Bool) : Projector :=
  { r with
    state := .parked, width := w, height := h, ramp := ramp, pixelClock := clock, autoFailover := auto, phi := 0,
    fade := none, failCause := none, luminance := none, gainTarget := 4096, gainLive := 4096, claimCount := 0,
    failover := 0 }

/-- The values in force that the reply of ENROL PROJECTOR carries (R77). -/
def enrolFields (r : Projector) : List Byte :=
  u16 r.width ++ u16 r.height ++ u16 r.ramp ++ u24 r.pixelClock ++ packBits [r.autoFailover]

/-- ENROL PROJECTOR on a slot (R77, R124, R137). -/
def enrol (p : Slot) (w h ramp clock : Nat) (auto : Bool) (s : State) : State :=
  (beginSequence p (s.modProj p fun r => r.enrolled w h ramp clock auto)).modChan p
    fun c => { c with changeFlag := false }

/-- ENROL PROJECTOR (R77): fields slot, W, H, R, pixel clock, auto-failover. -/
def enrolRequest (r : Request) (s : State) : State × Answer :=
  withSlot (byteAt r.fields 0) s fun p =>
    if (s.proj p).state = .vacant then
      let t := enrol p (clamp 256 4096 (wordAt r.fields 1)) (clamp 256 4096 (wordAt r.fields 3))
        (clamp 1 2047 (wordAt r.fields 5)) (clamp 25000 600000 (tripleAt r.fields 7)) (yesNo (byteAt r.fields 10)) s
      (t, .ok (enrolFields (t.proj p)))
    else (s, .bare .state)

/-- ENROL PROJECTOR (R77). -/
def execEnrolProjector (s : State) : Host.Outcome State Fault Refusal := .next (runRequest 0x20 enrolRequest s)

/-- The fields of a fade record in a reply but for its retire-after flag (R79, R94). -/
def fadeFields (f : Fade) : List Byte := u16 f.start ++ u16 f.target ++ u8 f.length ++ u8 f.elapsed

/-- The state, φ and fade record that FADE PROJECTOR and RETIRE PROJECTOR report (R79, R85). -/
def fadeReport (r : Projector) : List Byte :=
  packBits [r.fade.isSome] ++ u8 r.state.code ++ u16 r.phi
    ++ optional (fun f => fadeFields f ++ packBits [f.retireAfter]) r.fade

/-- What FADE PROJECTOR IN does to a projector; none when it is refused with STATE (R78). -/
def fadeIn (p : Slot) (length : Nat) (s : State) : Option State :=
  match (s.proj p).state with
  | .parked =>
    if (s.chan p).lock = .locked then some (if length = 0 then cutIn p s else startFadeIn p 0 length s) else none
  | .fadingIn => some (if length = 0 then cutIn p s else startFadeIn p (s.proj p).phi length s)
  | .fadingOut =>
    if s.retireFade p then none
    else some (if length = 0 then cutIn p s else startFadeIn p (s.proj p).phi length s)
  | .live => some s
  | .failed | .retiring | .vacant => none

/-- What FADE PROJECTOR OUT does to a projector; none when it is refused with STATE (R79). -/
def fadeOut (p : Slot) (length : Nat) (s : State) : Option State :=
  match (s.proj p).state with
  | .live => some (if length = 0 then cutOut p s else startFadeOut p 256 length false s)
  | .fadingIn => some (if length = 0 then cutOut p s else startFadeOut p (s.proj p).phi length false s)
  | .fadingOut =>
    some (if s.retireFade p then
        (if length = 0 then enterRetiring p s else startFadeOut p (s.proj p).phi length true s)
      else (if length = 0 then cutOut p s else startFadeOut p (s.proj p).phi length false s))
  | .parked => some s
  | .failed | .retiring | .vacant => none

/-- FADE PROJECTOR (R78, R79): fields slot, direction (modulo 2, 0 IN and 1 OUT), N. A refusal carries the state. -/
def fadeRequest (r : Request) (s : State) : State × Answer :=
  withSlot (byteAt r.fields 0) s fun p =>
    let length := byteAt r.fields 2
    if (s.proj p).state = .vacant then (s, ⟨.badProjector, u8 (s.proj p).state.code⟩)
    else
      match (if byteAt r.fields 1 % 2 = 0 then fadeIn p length s else fadeOut p length s) with
      | none => (s, ⟨.state, u8 (s.proj p).state.code⟩)
      | some t => (startSolve t, .ok (fadeReport (t.proj p)))

/-- FADE PROJECTOR (R78 to R80, R84). -/
def execFadeProjector (s : State) : Host.Outcome State Fault Refusal := .next (runRequest 0x21 fadeRequest s)

/-- What RETIRE PROJECTOR does to a projector that is enrolled (R85). -/
def retire (p : Slot) (length : Nat) (s : State) : State :=
  match (s.proj p).state with
  | .parked | .failed => enterRetiring p s
  | .live => if length = 0 then enterRetiring p s else startFadeOut p 256 length true s
  | .fadingIn => if length = 0 then enterRetiring p s else startFadeOut p (s.proj p).phi length true s
  | .fadingOut => s.modProj p fun r => { r with fade := r.fade.map fun f => { f with retireAfter := true } }
  | .retiring | .vacant => s

/-- RETIRE PROJECTOR (R85): fields slot, N. -/
def retireRequest (r : Request) (s : State) : State × Answer :=
  withSlot (byteAt r.fields 0) s fun p =>
    if (s.proj p).state = .vacant then (s, .bare .badProjector)
    else
      let t := retire p (byteAt r.fields 1) s
      (startSolve t, .ok (fadeReport (t.proj p)))

/-- RETIRE PROJECTOR (R85). -/
def execRetireProjector (s : State) : Host.Outcome State Fault Refusal := .next (runRequest 0x22 retireRequest s)

/-- The ramp width replaced and the projector's nodes soft-refreshed (R93). -/
def setRamp (p : Slot) (ramp : Nat) (s : State) : State :=
  refreshClaimed p (s.modProj p fun r => { r with ramp := ramp })

/-- SET RAMP (R93): fields slot, R. -/
def setRampRequest (r : Request) (s : State) : State × Answer :=
  withSlot (byteAt r.fields 0) s fun p =>
    if (s.proj p).state = .vacant then (s, .bare .badProjector)
    else
      let ramp := clamp 1 2047 (wordAt r.fields 1)
      (startSolve (setRamp p ramp s), .ok (u16 ramp))

/-- SET RAMP (R93). -/
def execSetRamp (s : State) : Host.Outcome State Fault Refusal := .next (runRequest 0x23 setRampRequest s)

/-- The reply of READ PROJECTOR (R94, R197): its optional parts are the fade record, the fail cause, the luminance and
the last completed comparator count; its flags are auto-failover, retire-after, limited and change. PRESUMED (log 10): the
flag of retire-after keeps its bit, clear, while no fade record is present. -/
def projectorAnswer (p : Slot) (r : Projector) (c : Channel) : Answer :=
  let retireAfter := match r.fade with
    | some f => f.retireAfter
    | none => false
  .ok (packBits [r.fade.isSome, r.failCause.isSome, r.luminance.isSome, c.lastCount.isSome]
    ++ u8 p.val ++ u8 r.state.code ++ u16 r.width ++ u16 r.height ++ u16 r.ramp ++ u24 r.pixelClock
    ++ packBits [r.autoFailover, retireAfter, r.limited, c.changeFlag]
    ++ u16 r.phi ++ optional fadeFields r.fade ++ u16 r.claimCount ++ u16 r.failover
    ++ optional (fun f => u8 f.code) r.failCause ++ optional u16 r.luminance
    ++ u16 r.gainTarget ++ u16 r.gainLive
    ++ u8 c.lock.code ++ u8 c.attempts ++ optional u24 c.lastCount ++ u8 c.taken.code)

/-- READ PROJECTOR (R94): the read clears the channel's change flag after reporting it. -/
def readProjectorRequest (r : Request) (s : State) : State × Answer :=
  withSlot (byteAt r.fields 0) s fun p =>
    (s.modChan p fun c => { c with changeFlag := false }, projectorAnswer p (s.proj p) (s.chan p))

/-- READ PROJECTOR (R94, R138). -/
def execReadProjector (s : State) : Host.Outcome State Fault Refusal := .next (runRequest 0x24 readProjectorRequest s)

end Sys2Proof.Machine
end

