-- ==== Sys2Proof/Machine/LockEvents.lean ====
section
/-! DEFINITION. The events of an Output Channel (chapter 7), each taken together with the report it makes to the
Projector Table (R139), and RESTART OUTPUT. -/

namespace Sys2Proof.Machine

/-! ### The lock sequence (R125 to R132) -/

/-- SYNTH_START_COMPLETION: in STARTING the channel moves to AWAIT_LOCK and its lock timeout starts; in any other state
it is ignored, and so is the completion of an earlier start, which has been abandoned (R125, R133; log 25). -/
def execSynthStartCompletion (e : SynthEvent) (s : State) : Host.Outcome State Fault Refusal :=
  .next (if (s.chan e.channel).lock = .starting ∧ (s.chan e.channel).current e.start = true then
      s.modChan e.channel fun c => { c with lock := .awaitLock }
    else s)

/-- LOCK_INDICATION_RISE: in AWAIT_LOCK the timeout is cancelled and the validation window begins; in any other state it
is ignored. A rise that had not been taken when the synthesizer was stopped is discarded (R126, R134; log 25). -/
def execLockIndicationRise (e : SynthEvent) (s : State) : Host.Outcome State Fault Refusal :=
  .next (if (s.chan e.channel).lock = .awaitLock ∧ (s.chan e.channel).current e.start = true then
      s.modChan e.channel fun c => { c with lock := .validating }
    else s)

/-- A lock loss: the report to the Projector Table, the end of the stream, and a new sequence with attempt count 1; a
channel whose slot the report emptied stays OFF (R131, R133). -/
def lockLoss (p : Slot) (s : State) : State :=
  let t := takeLockFault p .lockLost s
  if (t.proj p).state = .vacant then t else beginSequence p (stopStream p t)

/-- The third attempt failed: LOCK_FAILED, a lock failure report, and LOCK_FAIL (R130). -/
def lockFailure (p : Slot) (s : State) : State :=
  (takeLockFault p .lockFailed (s.modChan p fun c => { c with lock := .lockFailed, attempts := 3 })).raise (.lockFail p)

/-- An attempt fails: the synthesizer is stopped and started again for a further attempt, without STARTING, or the
sequence ends after the third (R129). -/
def attemptFails (p : Slot) (s : State) : State :=
  if (s.chan p).attempts < 3 then
    s.modChan p fun c => { c.restarted with lock := .awaitLock, attempts := c.attempts + 1 }
  else lockFailure p s

/-- A fall of the lock indication of the synthesizer's last start, by the lock state (R126, R129, R131). -/
def takeFall (p : Slot) (s : State) : State :=
  match (s.chan p).lock with
  | .validating => startSolve (attemptFails p s)
  | .locked => startSolve (lockLoss p s)
  | .off | .starting | .awaitLock | .lockFailed => s

/-- LOCK_INDICATION_FALL: in VALIDATING the attempt fails with no count recorded, in LOCKED it is a lock loss, in any
other state it is ignored. A fall that had not been taken when the synthesizer was stopped is discarded (R126; log 25). -/
def execLockIndicationFall (e : SynthEvent) (s : State) : Host.Outcome State Fault Refusal :=
  .next (if (s.chan e.channel).current e.start = true then takeFall e.channel s else s)

/-- LOCK_TIMEOUT: in AWAIT_LOCK, where a timeout is running, the attempt fails (R126, R129). -/
def execLockTimeout (p : Slot) (s : State) : Host.Outcome State Fault Refusal :=
  .next (if (s.chan p).lock = .awaitLock then startSolve (attemptFails p s) else s)

/-- The count that a window records (R127). -/
def recordedCount (count : Nat) : Nat := min count Config.maxComparatorCount

/-- The count passes: it differs from E by no more than the tolerance (R127). -/
def Channel.passes (c : Channel) (count : Nat) : Bool :=
  decide (count ≤ c.expected + c.tolerance ∧ c.expected ≤ count + c.tolerance)

/-- An attempt that passes: LOCKED, and a lock completion report, which a FAILED projector takes as a recovery check
(R128, R88, R91). -/
def attemptPasses (p : Slot) (s : State) : State :=
  recoveryCheck p (s.modChan p fun c => { c with lock := .locked })

/-- WINDOW_COMPLETION: in VALIDATING the count is recorded and the attempt passes or fails (R127 to R129). -/
def execWindowCompletion (p : Slot) (count : Nat) (s : State) : Host.Outcome State Fault Refusal :=
  .next (if (s.chan p).lock = .validating then
      let t := s.modChan p fun c => { c with lastCount := some (recordedCount count) }
      if (s.chan p).passes (recordedCount count) then attemptPasses p t else startSolve (attemptFails p t)
    else s)

/-- RESTART OUTPUT on an enrolled slot; none when it is refused with STATE (R132). -/
def restartOutput (p : Slot) (s : State) : Option State :=
  match (s.chan p).lock with
  | .lockFailed => some (beginSequence p s)
  | .locked => some (lockLoss p s)
  | .off | .starting | .awaitLock | .validating => none

/-- RESTART OUTPUT (R132): field slot. The reply carries the lock state and the attempt count, and when it is not a
refusal the projector's state. -/
def restartOutputRequest (r : Request) (s : State) : State × Answer :=
  withSlot (byteAt r.fields 0) s fun p =>
    if (s.proj p).state = .vacant then (s, .bare .badProjector)
    else
      match restartOutput p s with
      | none => (s, ⟨.state, u8 (s.chan p).lock.code ++ u8 (s.chan p).attempts⟩)
      | some t =>
        (startSolve t, .ok (u8 (t.chan p).lock.code ++ u8 (t.chan p).attempts ++ u8 (t.proj p).state.code))

/-- RESTART OUTPUT (R132). -/
def execRestartOutput (s : State) : Host.Outcome State Fault Refusal := .next (runRequest 0x30 restartOutputRequest s)

/-! ### The ready line (R135 to R138) -/

/-- The taken level that a raw level becomes. -/
def takenOf : ReadyLevel → TakenLevel
  | .ready => .ready
  | .notReady => .notReady

/-- The debounce after the raw level has changed: back at the taken level it is QUIET, else it settles toward the new
level in a new interval (R135). -/
def Channel.rawChanged (c : Channel) (level : ReadyLevel) : Channel :=
  { c with raw := level, debounce := if c.taken = takenOf level then .quiet else .settling level }

/-- READY_RAW_CHANGE: the raw level changes (R135). -/
def execReadyRawChange (p : Slot) (level : ReadyLevel) (s : State) : Host.Outcome State Fault Refusal :=
  .next (if (s.chan p).raw = level then s else s.modChan p fun c => c.rawChanged level)

/-- The candidate level taken: the debounce is QUIET again (R135). -/
def Channel.settled (c : Channel) (level : ReadyLevel) (flag : Bool) : Channel :=
  { c with taken := takenOf level, debounce := .quiet, changeFlag := c.changeFlag || flag }

/-- A taken change in an enrolled slot: the new level is recorded, the change flag set, and a fault start or a fault end
reported; the first level after reset and every level in a VACANT slot is taken silently (R136, R137). -/
def takeLevel (p : Slot) (level : ReadyLevel) (s : State) : State :=
  let told := (s.proj p).state ≠ .vacant ∧ (s.chan p).taken ≠ .unsettled ∧ (s.chan p).taken ≠ takenOf level
  let t := s.modChan p fun c => c.settled level (decide told)
  if told then
    match level with
    | .notReady => takeFaultStart p t
    | .ready => recoveryCheck p t
  else t

/-- DEBOUNCE_EXPIRY: while SETTLING, the candidate level becomes the taken level (R135 to R137). -/
def execDebounceExpiry (p : Slot) (s : State) : Host.Outcome State Fault Refusal :=
  .next (match (s.chan p).debounce with
    | .quiet => s
    | .settling level => startSolve (takeLevel p level s))

end Sys2Proof.Machine
end

