-- ==== Sys2Proof/Machine/Swap.lean ====
section
/-! DEFINITION. The swap at a frame boundary (section 3.4): single swaps, the group swap, the dissolution of the group,
and the reports to the Projector Table. -/

namespace Sys2Proof.Machine

/-- The next parts of a claim moved into its live parts: the weight, and the next trim when there is one (R67, R68). -/
def Claim.swapped (c : Claim) : Claim :=
  { c with liveWeight := c.nextWeight, liveTrim := c.nextTrim.getD c.liveTrim, nextTrim := none }

/-- The pending parts of a claim moved into its live parts by a group swap (R68). -/
def Claim.promoted (c : Claim) : Claim :=
  { c with
    livePos := c.pendingPos.or c.livePos
    pendingPos := none
    livePin := match c.pendingPin with
      | some (.set v) => some v
      | some .clear => none
      | none => c.livePin
    pendingPin := none
    pendingNew := false }

/-- The single swap frees a withdrawn claim (R67). -/
def Claim.leavesAtSingle (c : Claim) : Bool := c.withdrawn

/-- The group swap frees a pending-removal or withdrawn claim (R68). -/
def Claim.leavesAtGroup (c : Claim) : Bool := c.pendingRemoval || c.withdrawn

/-- A node swapped, with the claims the swap leaves: next-valid is cleared and the condition recomputed (R70, R6). -/
def Node.swapTo (r : Node) (claims : List Claim) : Node :=
  { r with claims := claims, condition := conditionOf claims, nextValid := false }

/-- The record after a single swap (R67). -/
def Node.singleSwapped (r : Node) : Node :=
  r.swapTo ((r.claims.filter fun c => !c.leavesAtSingle).map Claim.swapped)

/-- The record after a group swap (R68): the group mark is cleared as well. -/
def Node.groupSwapped (r : Node) : Node :=
  { r.swapTo ((r.claims.filter fun c => !c.leavesAtGroup).map fun c => c.promoted.swapped) with groupMark := false }

/-- The slots of the claims of a node that a swap frees. -/
def Node.freedSlots (r : Node) (leaves : Claim → Bool) : List Slot := (r.claims.filter leaves).map Claim.projector

/-- A claim freed by a swap: its record returns to the free list, the claim count falls, and a retiring slot whose last
claim it was is emptied (R14, R71, R87). -/
def freeAtSwap (s : State) (p : Slot) : State := emptyIfDone p (countFreed p s)

/-- What a swap of a node reports (R70, R71): DARK_NODE when the node turns dark; one node swap for each projector that
held a claim on it before the swap; each claim freed. -/
def reportSwap (n : Nat) (old new : Node) (leaves : Claim → Bool) (s : State) : State :=
  let t := if new.condition = .dark ∧ old.condition ≠ .dark then s.raise (.darkNode n) else s
  let u := (old.claims.map Claim.projector).foldl (fun v p => lowerFailover p v) t
  (old.freedSlots leaves).foldl freeAtSwap u

/-- A single swap of a node (R67). -/
def singleSwap (n : Nat) (s : State) : State :=
  let old := s.node n
  reportSwap n old old.singleSwapped Claim.leavesAtSingle (s.putNode n old.singleSwapped)

/-- The group swap of a member (R68). -/
def groupSwap (n : Nat) (s : State) : State :=
  let old := s.node n
  reportSwap n old old.groupSwapped Claim.leavesAtGroup (s.putNode n old.groupSwapped)

/-- The swap's treatment of one node: a member swaps with a READY group only, a node outside the group when its
next-valid is set (R66). -/
def swapNode (groupReady : Bool) (s : State) (n : Nat) : State :=
  let r := s.node n
  if r.groupMark then (if groupReady then groupSwap n s else s)
  else if r.nextValid then singleSwap n s
  else s

/-- The end of a group swap: the group is dissolved, SWAP_DONE carries M, and a waiting apply is taken (R69). That it
follows the whole visit is a DESIGN CHOICE (log 28; see `swapAll`). -/
def finishGroup (members : Nat) (s : State) : State :=
  (takeApplyWaiting ((dissolveGroup s).raise (.swapDone members))).1

/-- The swap of one frame boundary, taken as one step (R66 to R71).
DESIGN CHOICE (log 28): the group is dissolved, and a waiting apply taken, after the last node has been visited and not as
soon as the last member has been swapped; so a node of the open set that stands above the last member with next-valid set
has swapped singly before the apply seals it. R66 and R69 leave this open. Unsafe for such a node. -/
def swapAll (s : State) : State :=
  let ready := s.edit.groupState == .ready
  let t := nodeIndices.foldl (swapNode ready) s
  if ready then startSolve (finishGroup s.edit.members t) else t

/-- SWAP: the Dome Map takes the swap of one frame boundary, when one is owed (R66, R142). -/
def execSwap (s : State) : Host.Outcome State Fault Refusal :=
  .next (if s.owed.swap = 0 then s else swapAll { s with owed := { s.owed with swap := s.owed.swap - 1 } })

end Sys2Proof.Machine
end

