-- ==== Sys2Proof/Machine/MapRequests.lean ====
section
/-! DEFINITION. The Dome Map's requests (sections 1.5 and 1.7): READ NODE, READ POINT, PLACE CURSOR, SET WALK and
CLEAR MAP. -/

namespace Sys2Proof.Machine

/-! ### READ NODE (R16, R17) -/

/-- A pending pin change in a reply: its kind, set or clear, and the value it sets (R16). -/
def pinChangeField : PinChange → List Byte
  | .set v => u8 0 ++ u16 v
  | .clear => u8 1

/-- One claim of a READ NODE reply; the next weight is reported only while next-valid is set (R16, R197). -/
def claimEntry (nextValid : Bool) (c : Claim) : List Byte :=
  packBits [c.livePos.isSome, c.pendingPos.isSome, c.nextTrim.isSome, c.livePin.isSome, c.pendingPin.isSome, nextValid]
    ++ u8 c.projector.val ++ packBits [c.pendingNew, c.pendingRemoval, c.withdrawn]
    ++ trimField c.liveTrim ++ u16 c.liveWeight
    ++ optional posField c.livePos ++ optional posField c.pendingPos ++ optional trimField c.nextTrim
    ++ optional u16 c.livePin ++ optional pinChangeField c.pendingPin
    ++ (if nextValid then u16 c.nextWeight else [])

/-- The reply of READ NODE (R16). -/
def nodeAnswer (s : State) (n : Nat) : Answer :=
  let r := s.node n
  .ok (nodeField n ++ u16 n ++ u8 r.condition.code
    ++ packBits [r.openMark, r.groupMark, r.inFlight, r.dirty, r.nextValid]
    ++ u8 (queuedCode r.queued) ++ u16 s.dome.freeCount ++ counted (claimEntry r.nextValid) r.claims)

/-- READ NODE (R16, R23): fields address mode, ring, sector; a cursor-addressed read advances the Map Cursor after
it. -/
def readNodeRequest (r : Request) (s : State) : State × Answer :=
  let mode := byteAt r.fields 0
  let t := if mode = 0 then s else s.advance
  match addressedNode s mode (byteAt r.fields 1) (byteAt r.fields 2) with
  | none => (t, .bare .badNode)
  | some n => (t, nodeAnswer s n)

/-- READ NODE (R16). -/
def execReadNode (s : State) : Host.Outcome State Fault Refusal := .next (runRequest 0x01 readNodeRequest s)

/-! ### READ POINT (R18, R19) -/

/-- The live claim of a projector on a node (R10). -/
def State.liveClaim (s : State) (n : Nat) (p : Slot) : Option Claim :=
  match claimBy (s.node n).claims p with
  | some c => if c.live then some c else none
  | none => none

/-- The share of one projector at a placed dome point: it holds a live claim on all three corners (R18). -/
def State.pointShare (s : State) (d : DomePlace) (p : Slot) : Option (Slot × Nat) :=
  let k := cornersOf d.triangle
  match s.liveClaim k.1 p, s.liveClaim k.2.1 p, s.liveClaim k.2.2 p with
  | some c0, some c1, some c2 => some (p, blend d.b0 d.b1 d.b2 c0.liveWeight c1.liveWeight c2.liveWeight)
  | _, _, _ => none

/-- The shares of the projectors at a placed dome point, in ascending slot order (R18). -/
def State.pointShares (s : State) (d : DomePlace) : List (Slot × Nat) := slots.filterMap (s.pointShare d)

/-- The shares of the projectors at the zenith: the live weights of the live claims on Z (R19). -/
def State.zenithShares (s : State) : List (Slot × Nat) :=
  slots.filterMap fun p => (s.liveClaim Config.zenith p).map fun c => (p, c.liveWeight)

/-- One entry of a READ POINT reply (R18). -/
def shareEntry (e : Slot × Nat) : List Byte := u8 e.1.val ++ u16 e.2

/-- The reply of READ POINT (R18, R19): the triangle and the coordinates are its optional parts, absent at the zenith;
the corners and the shares are lists. -/
def pointAnswer (s : State) (azimuth elevation : Nat) : Answer :=
  if elevation < 16384 then
    let d := placePoint azimuth elevation
    let k := cornersOf d.triangle
    .ok (packBits [true, true, true, true] ++ u16 d.triangle ++ counted u16 [k.1, k.2.1, k.2.2]
      ++ u16 d.b0 ++ u16 d.b1 ++ u16 d.b2 ++ counted shareEntry (s.pointShares d))
  else if elevation = 16384 then
    .ok (packBits [false, false, false, false] ++ counted u16 [Config.zenith] ++ counted shareEntry s.zenithShares)
  else .bare .badNode

/-- READ POINT (R18, R19): fields azimuth, elevation. -/
def readPointRequest (r : Request) (s : State) : State × Answer :=
  (s, pointAnswer s (wordAt r.fields 0) (wordAt r.fields 2))

/-- READ POINT (R18). -/
def execReadPoint (s : State) : Host.Outcome State Fault Refusal := .next (runRequest 0x02 readPointRequest s)

/-! ### The Map Cursor (R20, R21) -/

/-- The cursor placed on a node: a lattice node sets the remembered sector, Z leaves it (R20). -/
def State.placeCursor (s : State) (n : Nat) : State :=
  { s with dome := { s.dome with
      cursor := n
      remembered := if n < Config.zenith then sectorOf n else s.dome.remembered } }

/-- PLACE CURSOR (R20): fields ring, sector; the reply names the node placed. -/
def placeCursorRequest (r : Request) (s : State) : State × Answer :=
  match resolveNode (byteAt r.fields 0) (byteAt r.fields 1) with
  | none => (s, .bare .badNode)
  | some n => (s.placeCursor n, .ok (nodeField n))

/-- PLACE CURSOR (R20). -/
def execPlaceCursor (s : State) : Host.Outcome State Fault Refusal := .next (runRequest 0x03 placeCursorRequest s)

/-- SET WALK (R21): field direction, modulo 4; the reply names the direction now in force. -/
def setWalkRequest (r : Request) (s : State) : State × Answer :=
  let w := walkOf (byteAt r.fields 0)
  ({ s with dome := { s.dome with walk := w } }, .ok (u8 w.code))

/-- SET WALK (R21). -/
def execSetWalk (s : State) : Host.Outcome State Fault Refusal := .next (runRequest 0x04 setWalkRequest s)

/-! ### CLEAR MAP (R24, R25) -/

/-- The number of claim records in the node lists (R24). -/
def State.claimTotal (s : State) : Nat := (nodeIndices.map fun n => (s.node n).claims.length).sum

/-- The map, the solver, Edit Control and the counts emptied (R24, R25). -/
def emptyMap (s : State) : State :=
  { s with
      dome := { s.dome with nodes := [], freeCount := 6144 }
      solver := { urgent := [], normal := [], flight := none }
      edit := { groupState := .none, members := 0, readyCount := 0, applyWaiting := false } }.mapProj
    fun r => { r with claimCount := 0, failover := 0 }

/-- CLEAR MAP, taken as one step: the map is emptied, every RETIRING slot is emptied, and a loader WAITING for YIELD is
released when a failover had been outstanding (R24, R25, R173). DESIGN CHOICE (log 26): the RETIRING slots are emptied one
after another in ascending slot order, each with its own recomputation of the gain targets; the manual gives no order. -/
def clearMap (s : State) : State :=
  let t := slots.foldl (fun u p => emptyIfDone p u) (emptyMap s)
  if s.failoverOwed then reportYield t else t

/-- CLEAR MAP (R24): OK with the number of claim records freed. -/
def clearMapRequest (_ : Request) (s : State) : State × Answer := (clearMap s, .ok (u16 s.claimTotal))

/-- CLEAR MAP (R24, R25). -/
def execClearMap (s : State) : Host.Outcome State Fault Refusal := .next (runRequest 0x05 clearMapRequest s)

end Sys2Proof.Machine
end

