-- ==== Sys2Proof/Machine/Raster.lean ====
section
/-! DEFINITION. The Raster Engine and the Content Input (chapter 6): the raster frame start and its frame view, the
computing and sending of one pixel, and the four events of the content link. -/

namespace Sys2Proof.Machine

/-! ### The frame view (R107) -/

/-- The part of the frame view that belongs to a claim (R107). -/
def Claim.view (c : Claim) : ClaimView :=
  { projector := c.projector, pendingNew := c.pendingNew, place := c.place, weight := c.liveWeight }

/-- The part of the frame view that belongs to a slot (R107). -/
def Projector.slotView (r : Projector) : SlotView :=
  { vacant := r.state == .vacant, width := r.width, height := r.height, gainLive := r.gainLive }

/-- The claim lists of the frame view, a node with no claim not listed (R107). -/
def viewNodes (nodes : List (Nat × Node)) : List (Nat × List ClaimView) :=
  nodes.filterMap fun e => if e.2.claims.isEmpty then none else some (e.1, e.2.claims.map Claim.view)

/-- The raster frame that starts from the state as it stands: its frame view and the content frame it takes (R107,
R118). -/
def State.frameView (s : State) : RasterFrame :=
  { slots := s.projectors.map Projector.slotView
    nodes := viewNodes s.dome.nodes
    content := s.content.latest }

/-! ### The raster frame start (R106, R108) -/

/-- A channel is drawn when it is LOCKED and its slot is not VACANT (R108). -/
def State.drawn (s : State) (p : Slot) : Bool :=
  (s.chan p).lock == .locked && !((s.proj p).state == .vacant)

/-- The raster frame start: the view and the content frame are taken, every drawn channel begins at pixel (0, 0), every
other channel sends no stream, and the content status is handed to the Frame Timer (R106, R117). -/
def startFrame (s : State) : State :=
  { s with
    raster :=
      { frame := some s.frameView
        streams := Vector.ofFn fun p => if s.drawn p then some 0 else none
        links := Vector.replicate 16 none }
    timer := { s.timer with content := s.content.status }
    owed := { s.owed with raster := false } }

/-- Blanking has ended: the boundary's swap, fade steps and gain slew have been taken (R106, R142). -/
def Owed.blankingEnded (o : Owed) : Bool := o.raster && o.swap == 0 && o.fade == 0 && o.slew == 0

/-- RASTER_FRAME_START: taken once after a boundary, when its blanking has ended (R106, R142). -/
def execRasterFrameStart (s : State) : Host.Outcome State Fault Refusal :=
  .next (if s.owed.blankingEnded then startFrame s else s)

/-! ### Finding the triangle (R110 to R112) -/

/-- The corner that a projector's claim gives a node in the view: its live place and live weight; none for no claim and
for a pending-new claim (R110). -/
def RasterFrame.corner (f : RasterFrame) (p : Slot) (n : Nat) : Option (Place × Nat) :=
  match (Sparse.get [] f.nodes n).find? fun c => c.projector == p with
  | some c => if c.pendingNew then none else c.place.map fun q => (q, c.weight)
  | none => none

/-- The centre of a pixel in 1/16 pixel (R111). -/
def pixelCentre (x y : Nat) : Place := ⟨16 * (x : Int) + 8, 16 * (y : Int) + 8⟩

/-- The barycentric coordinates of a centre in the triangle with the three corner places, when the triangle contains
it (R111). -/
def locate (c p0 p1 p2 : Place) : Option (Nat × Nat × Nat) :=
  let d := (p1.x - p0.x) * (p2.y - p0.y) - (p2.x - p0.x) * (p1.y - p0.y)
  let n1 := (c.x - p0.x) * (p2.y - p0.y) - (p2.x - p0.x) * (c.y - p0.y)
  let n2 := (p1.x - p0.x) * (c.y - p0.y) - (c.x - p0.x) * (p1.y - p0.y)
  if d = 0 then none
  else
    let turn : Int := if d < 0 then -1 else 1
    let b1 := (512 * (turn * n1) + turn * d - 1) / (2 * (turn * d))
    let b2 := (512 * (turn * n2) + turn * d - 1) / (2 * (turn * d))
    let b0 := 256 - b1 - b2
    if 0 ≤ b0 ∧ 0 ≤ b1 ∧ 0 ≤ b2 then some (b0.toNat, b1.toNat, b2.toNat) else none

/-- One triangle tested: when it is a cover triangle of the projector and contains the centre, its coordinates and the
weight of the pixel (R110, R111, R113). -/
def RasterFrame.hit (f : RasterFrame) (p : Slot) (c : Place) (t : Nat) : Option (Hit × Nat) :=
  let k := cornersOf t
  match f.corner p k.1, f.corner p k.2.1, f.corner p k.2.2 with
  | some q0, some q1, some q2 =>
    (locate c q0.1 q1.1 q2.1).map fun b =>
      ({ triangle := t, b0 := b.1, b1 := b.2.1, b2 := b.2.2 }, blend b.1 b.2.1 b.2.2 q0.2 q1.2 q2.2)
  | _, _, _ => none

/-- The triangles in triangle order (R2). -/
def triangles : List Nat := List.range 4032

/-- The first cover triangle, in triangle order, that contains the centre of a pixel, with the pixel weight (R112). -/
def RasterFrame.find (f : RasterFrame) (p : Slot) (x y : Nat) : Option (Hit × Nat) :=
  triangles.findSome? (f.hit p (pixelCentre x y))

/-! ### The dome point and its sample (R114 to R116) -/

/-- The azimuth of a corner of a lattice triangle: 65,536 for sector 0 in a triangle that has a corner in sector 63
(R114). -/
def cornerAzimuth (wrapped : Bool) (n : Nat) : Nat :=
  if wrapped && sectorOf n == 0 then 65536 else azimuthOf n

/-- The dome point of a pixel found in a triangle: its azimuth and its elevation (R114, R115). -/
def Hit.domePoint (h : Hit) : Nat × Nat :=
  let k := cornersOf h.triangle
  let elevation := (h.b0 * elevationOf k.1 + h.b1 * elevationOf k.2.1 + h.b2 * elevationOf k.2.2 + 128) / 256
  if h.triangle < 3968 then
    let wrapped := sectorOf k.1 == 63 || sectorOf k.2.1 == 63 || sectorOf k.2.2 == 63
    ((h.b0 * cornerAzimuth wrapped k.1 + h.b1 * cornerAzimuth wrapped k.2.1 + h.b2 * cornerAzimuth wrapped k.2.2 + 128)
      / 256 % 65536, elevation)
  else
    let sec := h.triangle - 3968
    (if h.b0 + h.b1 = 0 then 1024 * sec else (1024 * sec + h.b1 * 1024 / (h.b0 + h.b1)) % 65536, elevation)

/-- The place of a sample in a dome frame: row × 4096 + column (R116, R117). -/
def sampleKey (azimuth elevation : Nat) : Nat :=
  (1023 - min 1023 (elevation / 16)) * Config.frameColumns + azimuth / 16

/-- The sample of a content frame at a dome point; every sample of no content frame is black (R116). -/
def sampleAt (content : Option DomeFrame) (azimuth elevation : Nat) : Sample :=
  match content with
  | none => Sample.black
  | some f => Sparse.get Sample.black f.cells (sampleKey azimuth elevation)

/-! ### The drive (R119, R120) -/

/-- The drive of one colour channel of a pixel (R119). -/
def drive (level weight gain : Nat) : Nat := (level * weight * gain + 8388608) / 16777216

/-- The pixel of a channel at (x, y), computed from the raster frame alone (R109, R112, R119, R120). -/
def RasterFrame.pixel (f : RasterFrame) (p : Slot) (x y : Nat) : Pixel :=
  match f.find p x y with
  | none => { x := x, y := y, red := 0, green := 0, blue := 0 }
  | some (h, w) =>
    let d := h.domePoint
    let c := sampleAt f.content d.1 d.2
    let g := (f.slots.get p).gainLive
    { x := x, y := y, red := drive c.red w g, green := drive c.green w g, blue := drive c.blue w g }

/-- A pixel placed on a channel's link, and the stream moved on to the next (R109). -/
def placePixel (p : Slot) (k : Nat) (px : Pixel) (s : State) : State :=
  { s with raster := { s.raster with
      streams := s.raster.streams.set p.val (some (k + 1)) p.isLt
      links := s.raster.links.set p.val (some px) p.isLt } }

/-- A channel's next pixel sent, in row order; after pixel (W − 1, H − 1) the stream has ended (R109). -/
def sendPixel (p : Slot) (s : State) : State :=
  match s.raster.frame, s.raster.streams.get p with
  | some f, some k =>
    let v := f.slots.get p
    if k < v.width * v.height then placePixel p k (f.pixel p (k % v.width) (k / v.width)) s else s
  | _, _ => s

/-- SEND_PIXEL (R109). -/
def execSendPixel (p : Slot) (s : State) : Host.Outcome State Fault Refusal := .next (sendPixel p s)

/-! ### The Content Input (R117) -/

/-- DOME_FRAME_COMPLETE: the frame being received becomes the latest complete dome frame and the status PRESENT; the event
carries all its samples. A frame ends only while the content link carries its signal (R117, log 2, log 14). -/
def execDomeFrameComplete (frame : DomeFrame) (s : State) : Host.Outcome State Fault Refusal :=
  .next (if frame.wf && s.content.signal then
      { s with content := { s.content with status := .present, receiving := [], latest := some frame } }
    else s)

/-- DOME_FRAME_BAD_COUNT: the frame being received is discarded; the latest frame and the status stay (R117). -/
def execDomeFrameBadCount (samples : Nat) (s : State) : Host.Outcome State Fault Refusal :=
  .next (if samples = Config.frameSamples then s else { s with content := { s.content with receiving := [] } })

/-- CONTENT_SIGNAL_LOST: the frame being received is discarded, the latest complete dome frame becomes none and the status
ABSENT (R117). -/
def execContentSignalLost (s : State) : Host.Outcome State Fault Refusal :=
  .next { s with content := { status := .absent, receiving := [], latest := none, signal := false } }

/-- CONTENT_SIGNAL_RETURN: reception resumes; the status stays (R117). -/
def execContentSignalReturn (s : State) : Host.Outcome State Fault Refusal :=
  .next { s with content := { s.content with signal := true } }

end Sys2Proof.Machine
end

