-- ==== Sys2Proof/Machine/Reports.lean ====
section
/-! DEFINITION. The Report Executor (section 9.6): the report at the head of the Measurement Queue is removed, applied by
the rule of its type and recorded as the last executed report, all as one step. -/

namespace Sys2Proof.Machine

/-- The Report Executor's step on a report of one type: nothing when the head of the queue is no such report (R159). -/
def runReport (apply : Report → State → Option (State × ReportOutcome)) (s : State) : State :=
  match s.align.queue with
  | [] => s
  | r :: rest =>
    match apply r (s.setAlign { s.align with queue := rest }) with
    | none => s
    | some (t, o) => t.setAlign { t.align with last := some (r, o) }

/-! ### DRIFT (R160) -/

/-- A trim component saturated to −2048..+2047 (R160). -/
def saturate (x : Int) : Int := max (-2048) (min 2047 x)

/-- The base of a DRIFT correction: the next trim, else the live trim (R160). -/
def Claim.driftBase (c : Claim) : Trim := c.nextTrim.getD c.liveTrim

/-- The next trim that a DRIFT report gives a claim (R160). -/
def Claim.drifted (c : Claim) (du dv : Int) : Trim :=
  ⟨saturate (c.driftBase.tu + du), saturate (c.driftBase.tv + dv)⟩

/-- A component of the correction saturated (R160). -/
def Claim.driftSaturates (c : Claim) (du dv : Int) : Bool :=
  c.drifted du dv != ⟨c.driftBase.tu + du, c.driftBase.tv + dv⟩

/-- The claim that a DRIFT report targets; none for a projector above 15, a ring above 32, no claim, and a pending-new
claim (R160). -/
def driftTarget (s : State) (projector ring sector : Nat) : Option (Nat × Slot × Claim) :=
  match slotOf projector, resolveNode ring sector with
  | some p, some n =>
    match claimBy (s.node n).claims p with
    | some c => if c.pendingNew then none else some (n, p, c)
    | none => none
  | _, _ => none

/-- A DRIFT correction applied to its target (R160): the next trim is written, the node hard-invalidated NORMAL, and
TRIM_LIMIT raised when a component saturated. -/
def correctClaim (n : Nat) (p : Slot) (c : Claim) (du dv : Int) (s : State) : State :=
  let t := hardInvalidate .normal n
    (s.modNode n fun r => r.modClaim p fun d => { d with nextTrim := some (c.drifted du dv) })
  startSolve (if c.driftSaturates du dv then t.raise (.trimLimit n) else t)

/-- A DRIFT report applied (R160). -/
def applyDrift (projector ring sector : Byte) (du dv : Int) (s : State) : State × ReportOutcome :=
  match driftTarget s projector.toNat ring.toNat sector.toNat with
  | none => (s, .noTarget)
  | some (n, p, c) =>
    (correctClaim n p c du dv s, if c.driftSaturates du dv then .saturated else .applied)

/-- DRIFT_REPORT (R159, R160). -/
def execDriftReport (s : State) : Host.Outcome State Fault Refusal :=
  .next (runReport (fun r t => match r with
    | .drift p ring sector du dv => some (applyDrift p ring sector du dv t)
    | .luma _ _ => none
    | .step => none) s)

/-! ### LUMA (R162) -/

/-- A LUMA report applied: NO_TARGET for a projector above 15 and for a VACANT slot (R162). -/
def applyLuma (projector : Byte) (value : Nat) (s : State) : State × ReportOutcome :=
  match slotOf projector.toNat with
  | none => (s, .noTarget)
  | some p => if (s.proj p).state = .vacant then (s, .noTarget) else (storeLuminance p value s, .applied)

/-- LUMA_REPORT (R159, R162). -/
def execLumaReport (s : State) : Host.Outcome State Fault Refusal :=
  .next (runReport (fun r t => match r with
    | .luma p v => some (applyLuma p v t)
    | .drift _ _ _ _ _ => none
    | .step => none) s)

/-! ### STEP (R163, R172) -/

/-- A STEP report applied: a step credit for a loader WAITING with reason STEP, else ignored (R163, R172). -/
def applyStep (s : State) : State × ReportOutcome :=
  if s.loader.waitsFor .step then (releaseLoader true s, .credited) else (s, .ignored)

/-- STEP_REPORT (R159, R163). -/
def execStepReport (s : State) : Host.Outcome State Fault Refusal :=
  .next (runReport (fun r t => match r with
    | .step => some (applyStep t)
    | .drift _ _ _ _ _ => none
    | .luma _ _ => none) s)

end Sys2Proof.Machine
end

