-- ==== Sys2Proof/Machine/Reset.lean ====
section
/-! DEFINITION. The reset of the whole part (R191): the reset line, and RESET DEVICE. -/

namespace Sys2Proof.Machine

/-- The transaction state after a reset: a transaction in progress is disregarded until select is released (R182). -/
def resetTxn : TxnState → TxnState
  | .noSelect => .noSelect
  | .awaitHeader | .readLength | .readPayload | .sendReply | .ignoring => .ignoring

/-- The part after a reset: every block takes the values its chapter gives for reset (R191). What stands outside the part
is as it was: the commands still to come, the levels of the ready lines and of the content link, select, and the counts
of fetches and of synthesizer starts, by which an event of an abandoned one is known (log 7, log 13, log 25). -/
def afterReset (s : State) : State :=
  { State.reset with
    pending := s.pending
    channels := s.channels.map fun c => Channel.afterReset c.raw c.starts
    content := { State.reset.content with signal := s.content.signal }
    loader := Loader.afterReset s.loader.serial
    port := ControlPort.afterReset (resetTxn s.port.txn) }

/-- RESET_LINE (R191). -/
def execResetLine (s : State) : Host.Outcome State Fault Refusal := .next (afterReset s)

/-- RESET DEVICE run by the Request Executor: a reset, and no reply; a wrong length is answered BAD_LENGTH and does not
reset (R188, R191). -/
def resetDevice (s : State) : State :=
  match s.takeRequest with
  | none => s
  | some (r, t) =>
    if r.code.toNat = 0x7F then
      if r.length = 2 then afterReset s else t.reply r.tag (badLengthAnswer r 2)
    else s

/-- RESET DEVICE (R191). -/
def execResetDevice (s : State) : Host.Outcome State Fault Refusal := .next (resetDevice s)

end Sys2Proof.Machine
end

