-- ==== Sys2Proof/Machine/Dispatch.lean ====
section
/-! DEFINITION. The effect of each command on everything but the queue: one arm per constructor of Instr. -/

namespace Sys2Proof.Machine

/-- The effect of a command. -/
def exec (i : Instr) (s : State) : Host.Outcome State Fault Refusal :=
  match i with
  | .resetLine => Sys2Proof.Machine.execResetLine s
  | .selectAssert => Sys2Proof.Machine.execSelectAssert s
  | .unitHeader header => Sys2Proof.Machine.execUnitHeader header s
  | .requestLength length => Sys2Proof.Machine.execRequestLength length s
  | .requestPayloadByte value => Sys2Proof.Machine.execRequestPayloadByte value s
  | .replyByte => Sys2Proof.Machine.execReplyByte s
  | .selectRelease => Sys2Proof.Machine.execSelectRelease s
  | .readNode => Sys2Proof.Machine.execReadNode s
  | .readPoint => Sys2Proof.Machine.execReadPoint s
  | .placeCursor => Sys2Proof.Machine.execPlaceCursor s
  | .setWalk => Sys2Proof.Machine.execSetWalk s
  | .clearMap => Sys2Proof.Machine.execClearMap s
  | .setClaim => Sys2Proof.Machine.execSetClaim s
  | .dropClaim => Sys2Proof.Machine.execDropClaim s
  | .applyEdits => Sys2Proof.Machine.execApplyEdits s
  | .withdrawEdits => Sys2Proof.Machine.execWithdrawEdits s
  | .discardEdits => Sys2Proof.Machine.execDiscardEdits s
  | .readSolver => Sys2Proof.Machine.execReadSolver s
  | .enrolProjector => Sys2Proof.Machine.execEnrolProjector s
  | .fadeProjector => Sys2Proof.Machine.execFadeProjector s
  | .retireProjector => Sys2Proof.Machine.execRetireProjector s
  | .setRamp => Sys2Proof.Machine.execSetRamp s
  | .readProjector => Sys2Proof.Machine.execReadProjector s
  | .setGainFloor => Sys2Proof.Machine.execSetGainFloor s
  | .setGainSlew => Sys2Proof.Machine.execSetGainSlew s
  | .readGains => Sys2Proof.Machine.execReadGains s
  | .restartOutput => Sys2Proof.Machine.execRestartOutput s
  | .setFramePeriod => Sys2Proof.Machine.execSetFramePeriod s
  | .readFrame => Sys2Proof.Machine.execReadFrame s
  | .setAlignLink => Sys2Proof.Machine.execSetAlignLink s
  | .clearAlignErrors => Sys2Proof.Machine.execClearAlignErrors s
  | .resetAlignReceiver => Sys2Proof.Machine.execResetAlignReceiver s
  | .readAlignStatus => Sys2Proof.Machine.execReadAlignStatus s
  | .loadMesh => Sys2Proof.Machine.execLoadMesh s
  | .stopLoad => Sys2Proof.Machine.execStopLoad s
  | .resumeLoad => Sys2Proof.Machine.execResumeLoad s
  | .resetLoader => Sys2Proof.Machine.execResetLoader s
  | .readLoader => Sys2Proof.Machine.execReadLoader s
  | .readEvents => Sys2Proof.Machine.execReadEvents s
  | .clearEvents => Sys2Proof.Machine.execClearEvents s
  | .setEventMask => Sys2Proof.Machine.execSetEventMask s
  | .resetDevice => Sys2Proof.Machine.execResetDevice s
  | .unknownCode => Sys2Proof.Machine.execUnknownCode s
  | .periodTimerExpiry => Sys2Proof.Machine.execPeriodTimerExpiry s
  | .genlockPulse time => Sys2Proof.Machine.execGenlockPulse time s
  | .lossWatchdogExpiry => Sys2Proof.Machine.execLossWatchdogExpiry s
  | .swap => Sys2Proof.Machine.execSwap s
  | .fadeStep => Sys2Proof.Machine.execFadeStep s
  | .gainSlew => Sys2Proof.Machine.execGainSlew s
  | .quotaRenewal => Sys2Proof.Machine.execQuotaRenewal s
  | .rasterFrameStart => Sys2Proof.Machine.execRasterFrameStart s
  | .sendPixel channel => Sys2Proof.Machine.execSendPixel channel s
  | .domeFrameComplete frame => Sys2Proof.Machine.execDomeFrameComplete frame s
  | .domeFrameBadCount samples => Sys2Proof.Machine.execDomeFrameBadCount samples s
  | .contentSignalLost => Sys2Proof.Machine.execContentSignalLost s
  | .contentSignalReturn => Sys2Proof.Machine.execContentSignalReturn s
  | .solveCompletion => Sys2Proof.Machine.execSolveCompletion s
  | .synthStartCompletion event => Sys2Proof.Machine.execSynthStartCompletion event s
  | .lockIndicationRise event => Sys2Proof.Machine.execLockIndicationRise event s
  | .lockIndicationFall event => Sys2Proof.Machine.execLockIndicationFall event s
  | .lockTimeout channel => Sys2Proof.Machine.execLockTimeout channel s
  | .windowCompletion channel count => Sys2Proof.Machine.execWindowCompletion channel count s
  | .readyRawChange channel level => Sys2Proof.Machine.execReadyRawChange channel level s
  | .debounceExpiry channel => Sys2Proof.Machine.execDebounceExpiry channel s
  | .byteCompletion data parity stop => Sys2Proof.Machine.execByteCompletion data parity stop s
  | .lineIdle => Sys2Proof.Machine.execLineIdle s
  | .lineBreak => Sys2Proof.Machine.execLineBreak s
  | .assemblerTake => Sys2Proof.Machine.execAssemblerTake s
  | .driftReport => Sys2Proof.Machine.execDriftReport s
  | .lumaReport => Sys2Proof.Machine.execLumaReport s
  | .stepReport => Sys2Proof.Machine.execStepReport s
  | .fetchCompletion serial result => Sys2Proof.Machine.execFetchCompletion serial result s

end Sys2Proof.Machine
end

