-- ==== Sys2Proof/Machine/Step.lean ====
section
/-! DEFINITION. One step of the block: the command at the front of the queue, and idling on an empty queue. -/

namespace Sys2Proof.Machine

/-- The state with the queue of waiting commands replaced. -/
def State.setPending (s : State) (cs : List Instr) : State := { s with pending := cs }

/-- One step: the command at the front of the queue takes effect on the state with the queue's rest; an empty queue
idles (log 4). -/
def step (s : State) : Host.Outcome State Fault Refusal :=
  match s.pending with
  | [] => .next s
  | c :: rest => exec c (s.setPending rest)

/-- The state with the command that a word spells at the front of its queue; no row of the table gives bits, so no word
spells one. -/
def State.withFetchWord (s : State) (nbits w : Nat) : State :=
  match decodeTableWord nbits w with
  | none => s
  | some c => s.setPending (c :: s.pending)

end Sys2Proof.Machine
end

