-- ==== Sys2Proof/Safety.lean ====
section
/-! DEFINITION. What counts as a sound state of the part: the invariants that the spec states of its records, block by
block. Each holds at reset, and every step keeps it. -/

namespace Sys2Proof.Machine

/-! ### The Dome Map -/

/-- The node store is in its canonical form, so that equal maps are equal data. -/
def State.NodesCanonical (s : State) : Prop := Sparse.wf Node.initial s.dome.nodes = true

/-- A node never carries both the open mark and the group mark (R52). -/
def State.MarksApart (s : State) : Prop := ∀ n, ¬((s.node n).openMark = true ∧ (s.node n).groupMark = true)

/-- A node's list holds at most four claims, in ascending slot order, so at most one by any projector (R5, R11). -/
def State.ListsOrdered (s : State) : Prop :=
  ∀ n, (s.node n).claims.length ≤ 4 ∧ (s.node n).claims.Pairwise fun c d => c.projector < d.projector

/-- A node's condition is the one that its live claims give it (R6); the lists are ordered, without which an edit of one
claim could reach two. -/
def State.ConditionsAgree (s : State) : Prop :=
  s.ListsOrdered ∧ ∀ n, (s.node n).condition = conditionOf (s.node n).claims

/-- The Map Cursor stands on a node, the remembered sector is below 64, and on a lattice node it is that node's sector
(R20). -/
def State.CursorPlaced (s : State) : Prop :=
  s.dome.cursor ≤ 2048 ∧ s.dome.remembered < 64 ∧
    (s.dome.cursor < 2048 → s.dome.remembered = sectorOf s.dome.cursor)

/-! ### The Weight Solver -/

/-- The Solve Queue holds each node at most once, in the class its queued field names (R28), and the node in flight is the
one that carries the in-flight flag, the only one that may be dirty (R27). -/
def State.QueueAgrees (s : State) : Prop :=
  s.solver.urgent.Nodup ∧ s.solver.normal.Nodup ∧
    ∀ n, ((s.node n).queued = some .urgent ↔ n ∈ s.solver.urgent) ∧
      ((s.node n).queued = some .normal ↔ n ∈ s.solver.normal) ∧
      ((s.node n).inFlight = true ↔ s.solver.flight.map Flight.node = some n) ∧
      ((s.node n).dirty = true → (s.node n).inFlight = true)

/-! ### Edit Control, the weights and the Claim Pool -/

/-- No record stands at an index above that of Z (R1). -/
def State.NodesBounded (s : State) : Prop := ∀ n, 2049 ≤ n → s.node n = Node.initial

/-- M is the number of members and the ready count the number of members whose next-valid flag is set; a group exists
exactly while it has members, and it is READY exactly when all of them are ready; an apply waits only for a group (R52,
R61, R65). -/
def State.GroupAgrees (s : State) : Prop :=
  s.NodesBounded ∧ s.CursorPlaced ∧ s.QueueAgrees ∧
    s.edit.members = (nodeIndices.filter fun n => (s.node n).groupMark).length ∧
    s.edit.readyCount = (nodeIndices.filter fun n => (s.node n).groupMark && (s.node n).nextValid).length ∧
    (s.edit.groupState = .none ↔ s.edit.members = 0) ∧
    (s.edit.groupState = .ready ↔ s.edit.members ≠ 0 ∧ s.edit.readyCount = s.edit.members) ∧
    (s.edit.applyWaiting = true → s.edit.groupState ≠ .none)

/-- Weights that are all 0 or sum to exactly 4096 (R40, R70). -/
def SharesUnity (ws : List Nat) : Prop := (∀ w ∈ ws, w = 0) ∨ ws.sum = 4096

/-- The result that the solve in flight will store on a node that is not dirty: whole, and 0 for a claim that its node's
view leaves out and for a projector that has no claim there any more (R37, R40). -/
def Flight.Whole (f : Flight) (r : Node) : Prop :=
  SharesUnity (r.claims.map fun c => f.weightFor c.projector) ∧
    (∀ c ∈ r.claims, c.takesPart r.groupMark = false → f.weightFor c.projector = 0) ∧
    ∀ p, (∀ c ∈ r.claims, c.projector ≠ p) → f.weightFor p = 0

/-- The live weights of every node, and its next weights while next-valid is set, are all 0 or sum to 4096; a claim left
out of its node's view has next weight 0, and a pending-new claim has live weight 0 (R8, R37, R40, R70). -/
def State.WeightsAgree (s : State) : Prop :=
  s.GroupAgrees ∧ s.MarksApart ∧ s.ListsOrdered ∧
    (∀ n, SharesUnity ((s.node n).claims.map Claim.liveWeight) ∧
      (∀ c ∈ (s.node n).claims, c.pendingNew = true → c.liveWeight = 0) ∧
      ((s.node n).nextValid = true → SharesUnity ((s.node n).claims.map Claim.nextWeight) ∧
        ∀ c ∈ (s.node n).claims, c.takesPart (s.node n).groupMark = false → c.nextWeight = 0)) ∧
    ∀ f, s.solver.flight = some f → (s.node f.node).dirty = false → f.Whole (s.node f.node)

/-- Every claim record is free or in exactly one list, each projector's claim count is the number of nodes that it claims,
a VACANT slot claims none, and a RETIRING projector has claims left, none of them pending-new (R12, R75, R86, R87). -/
def State.ClaimsCounted (s : State) : Prop :=
  s.NodesBounded ∧ s.CursorPlaced ∧ s.QueueAgrees ∧ s.ListsOrdered ∧
    s.dome.freeCount + (nodeIndices.map fun n => (s.node n).claims.length).sum = 6144 ∧
    ∀ p, (s.proj p).claimCount = (s.claimNodes p).length ∧ ((s.proj p).state = .vacant → (s.proj p).claimCount = 0) ∧
      ((s.proj p).state = .retiring → 0 < (s.proj p).claimCount ∧
        ∀ n, ∀ c ∈ (s.node n).claims, c.projector = p → c.pendingNew = false)

/-! ### The Projector Table -/

/-- The fade factor and the fade record that a state of a projector goes with (R73, R74, R80 to R83). -/
def Projector.FadeAgrees (r : Projector) : Prop :=
  match r.state with
  | .live => r.phi = 256 ∧ r.fade = none
  | .vacant | .parked | .failed | .retiring => r.phi = 0 ∧ r.fade = none
  | .fadingIn => ∃ f, r.fade = some f ∧ r.phi = f.phi ∧ f.start ≤ 256 ∧ f.target = 256 ∧ f.elapsed < f.length ∧
      f.retireAfter = false
  | .fadingOut => ∃ f, r.fade = some f ∧ r.phi = f.phi ∧ f.start ≤ 256 ∧ f.target = 0 ∧ f.elapsed < f.length

/-- Every projector's state, fade factor, fade record and fail cause fit each other (R73, R74, R89, R91). -/
def State.ProjectorsAgree (s : State) : Prop :=
  ∀ p, (s.proj p).FadeAgrees ∧ ((s.proj p).failCause.isSome = true ↔ (s.proj p).state = .failed)

/-- The gain floor, the slew step and every gain target and live gain stay in their ranges (R95). -/
def State.GainsInRange (s : State) : Prop :=
  1024 ≤ s.gain.floor ∧ s.gain.floor ≤ 4096 ∧ 1 ≤ s.gain.slew ∧ s.gain.slew ≤ 4096 ∧
    ∀ p, s.gain.floor ≤ (s.proj p).gainTarget ∧ (s.proj p).gainTarget ≤ 4096 ∧
      s.gain.floor ≤ (s.proj p).gainLive ∧ (s.proj p).gainLive ≤ 4096

/-! ### The Output Channels -/

/-- A channel is OFF exactly while its slot is VACANT (R123, R133, R139), and the last recorded count fits (R127); the
fade records agree with the states, without which a fade could end in a VACANT slot. -/
def State.ChannelsAgree (s : State) : Prop :=
  s.ProjectorsAgree ∧ ∀ p, ((s.chan p).lock = .off ↔ (s.proj p).state = .vacant) ∧ ∀ k, (s.chan p).lastCount = some k → k ≤ 1048575

/-! ### The Frame Timer -/

/-- The parts of the Frame Timer that each of its states goes with (R141). -/
def FrameTimer.Agrees (t : FrameTimer) : Prop :=
  8000 ≤ t.period ∧ t.period ≤ 50000 ∧
    match t.state with
    | .genlocked => t.expiry = none ∧ t.run = [] ∧ ∃ m l, t.measured = some m ∧ 8000 ≤ m ∧ m ≤ 50000 ∧
        t.lastPulse = some l ∧ t.watchdog = some (l + m + m / 2)
    | .seeking | .freeRun => t.expiry.isSome = true ∧ t.measured = none ∧ t.lastPulse = none ∧ t.watchdog = none ∧
        t.run.length ≤ 2

/-! ### The Alignment Port -/

/-- The resume state, the FIFO, the assembler, the enable setting and the Measurement Queue fit the receiver state (R149,
R153, R154, R157, R158, R164, R166). -/
def AlignPort.Agrees (a : AlignPort) : Prop :=
  (a.resume.isSome = true ↔ a.receiver = .lineDown) ∧ (a.enable = false ↔ a.receiver = .disabled) ∧
    (a.receiver ≠ .listening → a.fifo = [] ∧ a.assembler = .seekLead) ∧
    (∀ r, a.assembler = .readPayload r → r.bytes.length < r.type.payload) ∧
    a.fifo.length ≤ 4 ∧ a.queue.length ≤ 16

/-! ### The Mesh Loader -/

/-- A fetch is in flight exactly in RUNNING, stop pending is set only there, the waiting reason is present exactly in
WAITING, and the fault record exactly with a fault outcome (R168). -/
def Loader.Agrees (l : Loader) : Prop :=
  (l.fetch.isSome = true ↔ l.state = .running) ∧ (l.stopPending = true → l.state = .running) ∧
    (l.reason.isSome = true ↔ l.state = .waiting) ∧
    (l.state ≠ .idle → l.descriptor.isSome = true ∧ l.outcome = .none) ∧
    (l.fault.isSome = true ↔ l.outcome = .faultFetch ∨ l.outcome = .faultStore) ∧
    l.quotaUsed ≤ 4095 ∧ l.nextAddress < 16777216

/-! ### The Control Port -/

/-- The queues hold no more than their limits (R182, R188), the partial request and the fetch in progress are present
exactly in their states, and the reply in progress is the oldest one waiting (R182, R186). -/
def ControlPort.Agrees (p : ControlPort) : Prop :=
  p.requests.length ≤ 4 ∧ p.replies.length ≤ 8 ∧ (∀ r ∈ p.requests, r.length ≤ 32) ∧
    (p.partialReq.isSome = true ↔ p.txn = .readLength ∨ p.txn = .readPayload) ∧
    (∀ q, p.txn = .readLength → p.partialReq = some q → q.length = none ∧ q.bytes = []) ∧
    (∀ q, p.txn = .readPayload → p.partialReq = some q →
      ∃ k, q.length = some k ∧ 2 ≤ k ∧ k ≤ 32 ∧ q.bytes.length < k) ∧
    (p.fetch.isSome = true ↔ p.txn = .sendReply) ∧
    ∀ f r, p.fetch = some f → f.reply = some r → p.replies.head? = some r ∧ f.sent ≤ r.length

/-! ### The Attention Unit -/

/-- A class holds a detail exactly while its status is set, a detail of its own class, and overflow only with its status
(R192). -/
def State.AttentionAgrees (s : State) : Prop :=
  ∀ k, ((s.eventRecord k).detail.isSome = true ↔ (s.eventRecord k).status = true) ∧
    ((s.eventRecord k).overflow = true → (s.eventRecord k).status = true) ∧
    ∀ e, (s.eventRecord k).detail = some e → e.cls = k

/-! ### The whole part -/

/-- A property of the state is kept by every step. -/
def KeptByStep (inv : State → Prop) : Prop := ∀ s t, inv s → step s = .next t → inv t

end Sys2Proof.Machine
end

