-- ==== Sys2Proof/Certificates/Slice0/Obligations.lean ====
section
/-! DEFINITION. The statements for the provers. A request is stated for the state in which it stands at the head of the
Request Queue and the Request Executor may run it (`Waits`), with its field bytes written out; its next state is the
state before with the request taken, its reply appended, and the changes named, so that the equation is its frame. -/

namespace Sys2Proof.Stating

open Sys2Proof.Machine

/-! ### What the statements share -/

/-- The request with this code, this tag and these field bytes is at the head of the Request Queue with `rest` behind it,
and fewer than eight replies wait, so that the Request Executor runs it (R188). -/
abbrev Waits (s : State) (code : Byte) (tag : Byte) (fields : List Byte) (rest : List Request) : Prop :=
  s.port.requests = { code := code, tag := tag, fields := fields } :: rest ∧ s.port.replies.length < 8

/-- The state with the head request taken, and its reply at the tail of the Reply Queue (R188). -/
def answered (s : State) (rest : List Request) (tag : Byte) (result : ResultCode) (fields : List Byte) : State :=
  { s with port := { s.port with
      requests := rest
      replies := s.port.replies ++ [{ tag := tag, result := result, fields := fields }] } }

/-- The two-byte field whose bytes are `lo` and `hi` (00, Byte order). -/
def word (lo hi : Byte) : Nat := lo.toNat + 256 * hi.toNat

/-- The three-byte field. -/
def triple (b0 b1 b2 : Byte) : Nat := b0.toNat + 256 * b1.toNat + 65536 * b2.toNat

/-- One byte holding a number. -/
def byte (n : Nat) : Byte := BitVec.ofNat 8 n

/-- A two-byte field holding a number, the low byte first (00, Byte order). -/
def twoBytes (n : Nat) : List Byte := [byte n, byte (n / 256)]

/-- A three-byte field holding a number. -/
def threeBytes (n : Nat) : List Byte := [byte n, byte (n / 256), byte (n / 65536)]

/-- The bytes of an optional part: none when it is absent (R197). -/
def ifPresent {α : Type} (f : α → List Byte) : Option α → List Byte
  | none => []
  | some a => f a

/-- The number whose bit n is the list's entry n: flags and presence bits from bit 0 (R197). -/
def flags : List Bool → Nat
  | [] => 0
  | b :: rest => (if b then 1 else 0) + 2 * flags rest

/-- A value's position in the list of its values, as one byte (R197). -/
def place {α : Type} [BEq α] (a : α) (values : List α) : Byte := byte (values.idxOf a)

/-- A signed two-byte field, in two's complement (R197). -/
def signedBytes (v : Int) : List Byte := twoBytes (v % 65536).toNat

/-- The signed two-byte field whose bytes are `lo` and `hi`. -/
def signed (lo hi : Byte) : Int := if word lo hi < 32768 then (word lo hi : Int) else (word lo hi : Int) - 65536

/-- What a class holds after a raising: a clear class takes the detail, a class already set overflows (R192). -/
def afterRaising (r : EventRecord) (e : Event) : EventRecord :=
  if r.status then { r with overflow := true } else { r with status := true, detail := some e }

/-- Every class but GAIN_LIMIT holds what raising these events, in this order, makes of it (R192). -/
def Raised (s t : State) (es : List Event) : Prop :=
  ∀ k, k ≠ 8 → t.eventRecord k = (es.filter fun e => e.cls = k).foldl afterRaising (s.eventRecord k)

/-- A class is masked on with its status set (R193). -/
abbrev AnyMasked (s : State) : Prop := ∃ k, (s.eventRecord k).status = true ∧ (s.eventRecord k).mask = true

/-- The first node, in ascending node index, at which a count taken node by node reaches k. -/
def reachedAt (count : Nat → Nat) (k : Nat) : Nat :=
  ((List.range 2049).find? fun n => decide (k ≤ ((List.range (n + 1)).map count).sum)).getD 2049

/-- The catalogue: each request's command, its code and the length it requires (section 13.2). -/
def catalogue : List (Instr × Nat × Nat) :=
  [(.readNode, 0x01, 5), (.readPoint, 0x02, 6), (.placeCursor, 0x03, 4), (.setWalk, 0x04, 3), (.clearMap, 0x05, 2),
   (.setClaim, 0x10, 13), (.dropClaim, 0x11, 5), (.applyEdits, 0x12, 2), (.withdrawEdits, 0x13, 2),
   (.discardEdits, 0x14, 2), (.readSolver, 0x18, 2), (.enrolProjector, 0x20, 13), (.fadeProjector, 0x21, 5),
   (.retireProjector, 0x22, 4), (.setRamp, 0x23, 5), (.readProjector, 0x24, 3), (.setGainFloor, 0x28, 4),
   (.setGainSlew, 0x29, 4), (.readGains, 0x2A, 2), (.restartOutput, 0x30, 3)]
  ++ [(.setFramePeriod, 0x38, 4), (.readFrame, 0x39, 2), (.setAlignLink, 0x40, 5), (.clearAlignErrors, 0x41, 2),
   (.resetAlignReceiver, 0x42, 2), (.readAlignStatus, 0x43, 2), (.loadMesh, 0x48, 13), (.stopLoad, 0x49, 2),
   (.resumeLoad, 0x4A, 2), (.resetLoader, 0x4B, 2), (.readLoader, 0x4C, 2), (.readEvents, 0x50, 2),
   (.clearEvents, 0x51, 4), (.setEventMask, 0x52, 4), (.resetDevice, 0x7F, 2)]

/-- The Dome Map as R26 gives it for reset. -/
def DomeMapReset (t : State) : Prop :=
  t.dome.freeCount = 6144 ∧
    (∀ n, (t.node n).claims = [] ∧ (t.node n).condition = .unclaimed ∧ (t.node n).openMark = false ∧
      (t.node n).groupMark = false ∧ (t.node n).inFlight = false ∧ (t.node n).dirty = false ∧
      (t.node n).nextValid = false ∧ (t.node n).queued = none) ∧
    t.dome.cursor = 0 ∧ t.dome.remembered = 0 ∧ t.dome.walk = .east ∧
    ∀ p x y, t.frameView.pixel p x y = { x := x, y := y, red := 0, green := 0, blue := 0 }

/-- The part after a reset, every block written out with its chapter's values. What stands outside the part keeps its
value: the waiting commands, the levels of the ready lines and of the content link, whether select is asserted, and the
counts of fetches begun and of synthesizer starts (log 7, log 13, log 25). -/
def resetFrom (s : State) : State :=
  { pending := s.pending
    dome := { nodes := [], freeCount := 6144, cursor := 0, remembered := 0, walk := .east }
    solver := { urgent := [], normal := [], flight := none }
    edit := { groupState := .none, members := 0, readyCount := 0, applyWaiting := false }
    projectors := Vector.replicate 16
      { state := .vacant, width := 256, height := 256, ramp := 256, pixelClock := 25000, autoFailover := false,
        phi := 0, fade := none, claimCount := 0, failover := 0, failCause := none, luminance := none,
        gainTarget := 4096, gainLive := 4096, limited := false }
    gain := { floor := 3072, slew := 64 }
    raster := { frame := none, streams := Vector.replicate 16 none, links := Vector.replicate 16 none }
    content := { status := .absent, receiving := [], latest := none, signal := s.content.signal }
    channels := Vector.ofFn fun p =>
      { lock := .off, attempts := 0, lastCount := none, expected := 0, tolerance := 0, taken := .unsettled,
        debounce := .settling (s.chan p).raw, changeFlag := false, raw := (s.chan p).raw
        starts := (s.chan p).starts }
    timer :=
      { state := .seeking, period := 16667, expiry := some 16667, measured := none, lastPulse := none,
        watchdog := none, run := [], counter := 0#32, content := .absent }
    owed := { swap := 0, fade := 0, slew := 0, quota := 0, raster := false }
    align :=
      { rate := .r115200, mode := .discardReport, enable := false, receiver := .disabled, resume := none,
        synced := false, gapPending := false, fifo := [], assembler := .seekLead, errors := .empty, queue := [],
        last := none }
    loader :=
      { state := .idle, reason := none, descriptor := none, nextAddress := 0, remaining := 0, stored := 0,
        fetch := none, stopPending := false, quotaUsed := 0, outcome := .none, fault := none,
        applyResult := .notAsked, serial := s.loader.serial }
    port :=
      { requests := [], replies := [], txn := if s.port.txn = .noSelect then .noSelect else .ignoring,
        partialReq := none, fetch := none, cont := false, statusByte := none, shiftedOut := none }
    attention := Vector.replicate 16 { status := false, mask := false, overflow := false, detail := none } }

/-- The node that a ring and a sector name: lattice node (ring, sector mod 64), Z for ring 32, none above (R7). -/
def namedNode (ring sector : Byte) : Option Nat :=
  if ring.toNat < 32 then some (ring.toNat * 64 + sector.toNat % 64) else if ring.toNat = 32 then some 2048 else none

/-- The node that an address mode, a ring and a sector address: 0 the named node, else the node at the cursor (R196). -/
def addressed (s : State) (mode ring sector : Byte) : Option Nat :=
  if mode = 0 then namedNode ring sector else some s.dome.cursor

/-- The cursor advances after a cursor-addressed request alone (R23). -/
def advancedUnless (explicit : Prop) [Decidable explicit] (t : State) : State := if explicit then t else t.advance

/-- The checks of SET CLAIM in their order, and the result of the first that fails (R54, R13). -/
def setClaimRefusal (s : State) (node : Option Nat) (slot : Nat) : Option ResultCode :=
  match node with
  | none => some .badNode
  | some n =>
    if h : slot < 16 then
      if (s.proj ⟨slot, h⟩).state = .vacant then some .badProjector
      else if (s.proj ⟨slot, h⟩).state = .retiring then some .state
      else if (s.node n).groupMark = true then some .sealed
      else if (∃ c ∈ (s.node n).claims, c.projector.val = slot) then none
      else if 4 ≤ (s.node n).claims.length then some .listFull
      else if s.dome.freeCount = 0 then some .poolFull
      else none
    else some .badProjector

/-- The checks of DROP CLAIM in their order, and the result of the first that fails (R57). -/
def dropClaimRefusal (s : State) (node : Option Nat) (slot : Nat) : Option ResultCode :=
  match node with
  | none => some .badNode
  | some n =>
    if slot < 16 then
      if (s.node n).groupMark = true then some .sealed
      else if (∃ c ∈ (s.node n).claims, c.projector.val = slot) then none
      else some .noClaim
    else some .badProjector

/-- The pin field that a pin mode and a pin value give: absent, a value, or a request to clear (R54, R196). -/
def pinField (mode : Byte) (value : Nat) : PinField :=
  if mode = 0 then .absent else if mode = 1 then .value (min 1023 value) else .clear

/-- The pending pin change that SET CLAIM leaves (R55, R56). -/
def pinAsked (before : Option PinChange) (isNew : Bool) : PinField → Option PinChange
  | .absent => before
  | .value v => some (.set v)
  | .clear => if isNew then none else some .clear

/-- A SET CLAIM that is taken on node n for projector p: a claim created where the node has none by p, else that claim
updated; the node joins the open set, and nothing else changes (R55, R56, R58). The outcome is 0 CREATED, 1 UPDATED or
2 RESTORED. -/
def ClaimSet (s t : State) (n : Nat) (p : Slot) (q : Pos) (pin : PinField) (outcome : Nat) : Prop :=
  t = { s with
    dome := { s.dome with nodes := t.dome.nodes, freeCount := t.dome.freeCount }, projectors := t.projectors } ∧
  (∀ m, m ≠ n → t.node m = s.node m) ∧ (∀ q, q ≠ p → t.proj q = s.proj q) ∧
  ((∀ c ∈ (s.node n).claims, c.projector ≠ p) → outcome = 0 ∧
    t.dome.freeCount = s.dome.freeCount - 1 ∧
    t.proj p = { s.proj p with claimCount := (s.proj p).claimCount + 1 } ∧
    t.node n = { s.node n with
      openMark := true
      claims := insertClaim
        { projector := p, livePos := none, pendingPos := some q, liveTrim := ⟨0, 0⟩, nextTrim := none, livePin := none,
          pendingPin := pinAsked none true pin, pendingNew := true, pendingRemoval := false, withdrawn := false,
          liveWeight := 0, nextWeight := 0 }
        (s.node n).claims }) ∧
  ∀ c, claimBy (s.node n).claims p = some c → outcome = (if c.pendingRemoval then 2 else 1) ∧
    t.dome.freeCount = s.dome.freeCount ∧ t.proj p = s.proj p ∧
    t.node n = { s.node n with
      openMark := true
      claims := (s.node n).claims.map fun d => if d.projector = p then
        { d with
          pendingPos := some q
          pendingPin := pinAsked d.pendingPin d.pendingNew pin
          pendingRemoval := false }
        else d }

/-- Some slot's failover outstanding is above 0 (R170). -/
abbrev FailoverOwed (s : State) : Prop := ∃ p, 0 < (s.proj p).failover

/-- The yield report, when `owed` says that a failover was outstanding: once none is, a loader WAITING for YIELD returns to
RUNNING and makes its fetch decision; any other loader is left alone (R173). -/
def YieldReleases (owed : Prop) (s t : State) : Prop :=
  (s.loader.state = .waiting → s.loader.reason = some .yield → owed → ¬FailoverOwed t →
    t.loader = { s.loader with state := .running, reason := none }.decide false false) ∧
  (s.loader.state ≠ .waiting ∨ s.loader.reason ≠ some .yield ∨ ¬owed ∨ FailoverOwed t → t.loader = s.loader)

/-- The yield report of a step that only lowers counts: it comes when the step brings the last failover outstanding to 0
(R173). -/
def YieldFollows (s t : State) : Prop := YieldReleases (FailoverOwed s) s t

/-- A DROP CLAIM that is taken on node n for projector p, whose claim there is c: a pending-new claim is freed, any other
marked; the node joins the open set (R57, R58, R14, R76, R173). -/
def ClaimDropped (s t : State) (n : Nat) (p : Slot) (c : Claim) : Prop :=
  (∀ m, m ≠ n → t.node m = s.node m) ∧ (∀ q, q ≠ p → t.proj q = s.proj q) ∧
  (c.pendingNew = false →
    t = { s with dome := { s.dome with nodes := t.dome.nodes } } ∧
    t.node n = { s.node n with
      openMark := true
      claims := (s.node n).claims.map fun d => if d.projector = p then { d with pendingRemoval := true } else d }) ∧
  (c.pendingNew = true →
    t = { s with
      dome := { s.dome with nodes := t.dome.nodes, freeCount := s.dome.freeCount + 1 }
      projectors := t.projectors, loader := t.loader, attention := t.attention } ∧
    t.node n = { s.node n with
      openMark := true, claims := (s.node n).claims.filter fun d => d.projector ≠ p } ∧
    t.proj p = { s.proj p with
      claimCount := (s.proj p).claimCount - 1, failover := (s.proj p).failover - 1 } ∧
    (∀ k, k ≠ 2 → t.eventRecord k = s.eventRecord k) ∧
    ((s.proj p).failover ≠ 1 → t.eventRecord 2 = s.eventRecord 2) ∧
    ((s.proj p).failover = 1 → t.eventRecord 2 = afterRaising (s.eventRecord 2) (.failover p)) ∧ YieldFollows s t)

/-- The open set sealed into the group: each of its nodes gives up the open mark for the group mark and is hard-invalidated
NORMAL, and those without an entry join the NORMAL class in ascending node index (R60, R31, R29). -/
def Sealed (s t : State) : Prop :=
  let opened := (List.range 2049).filter fun n => (s.node n).openMark
  t = { s with
    dome := { s.dome with nodes := t.dome.nodes }
    solver := { s.solver with normal := s.solver.normal ++ opened.filter fun n => (s.node n).queued = none }
    edit := { s.edit with groupState := .solving, members := opened.length, readyCount := 0 } } ∧
  (∀ n ∈ opened, t.node n = { s.node n with
    openMark := false, groupMark := true, nextValid := false, dirty := (s.node n).dirty || (s.node n).inFlight
    queued := some ((s.node n).queued.getD .normal) }) ∧
  ∀ n, n ∉ opened → t.node n = s.node n

/-- Everything but the node records and the Solver's own state stands as it was; the cursor and the pool too. -/
def OnlyNodesAndSolver (s t : State) : Prop :=
  t = { s with dome := { s.dome with nodes := t.dome.nodes }, solver := t.solver }

/-- The solver has nothing to begin: a solve is in flight, or its queue is empty (R30). -/
abbrev NothingToBegin (s : State) : Prop :=
  s.solver.flight ≠ none ∨ s.solver.urgent = [] ∧ s.solver.normal = []

/-- Taking the head of the Solve Queue may change these alone of a node's record (R30). -/
def SameButForSolver (r q : Node) : Prop :=
  q = { r with queued := q.queued, inFlight := q.inFlight, dirty := q.dirty }

/-- A projector record is as it was but for its gain target and its limited flag, which a recomputation sets (R98). -/
def SameButForTarget (r q : Projector) : Prop := q = { r with gainTarget := q.gainTarget, limited := q.limited }

/-- Every target and limited flag is the one that a recomputation gives, as RecomputationSetsGainTargets says which (R98). -/
def TargetsSettled (t : State) : Prop := (recomputeGains t).projectors = t.projectors

/-- One recomputation of the gain targets: they are settled, and GAIN_LIMIT is raised once for each limited slot, in
ascending order (R98, R99). -/
def RecomputedOnce (s t : State) : Prop :=
  TargetsSettled t ∧ t.eventRecord 8 = ((List.finRange 16).filter fun p => (t.proj p).limited).foldl
    (fun r p => afterRaising r (.gainLimit p)) (s.eventRecord 8)

/-- No recomputation: no target, no limited flag and no raising of GAIN_LIMIT. -/
def TargetsStand (s t : State) : Prop :=
  t.eventRecord 8 = s.eventRecord 8 ∧
    ∀ p, (t.proj p).gainTarget = (s.proj p).gainTarget ∧ (t.proj p).limited = (s.proj p).limited

/-- A node record is as it was but for its entry in the Solve Queue and the solve that may have begun on it (R30). -/
def SameButForQueue (r q : Node) : Prop := q = { r with queued := q.queued, inFlight := q.inFlight }

/-- The state, φ and fade record in a reply: a presence byte, the state, φ, and the record when present (R79, R85). -/
def fadeReply (r : Projector) : List Byte :=
  match r.fade with
  | none => [0, byte r.state.code] ++ twoBytes r.phi
  | some f => [1, byte r.state.code] ++ twoBytes r.phi ++ twoBytes f.start ++ twoBytes f.target
      ++ [byte f.length, byte f.elapsed, if f.retireAfter then 1 else 0]

/-- The φ_s from which FADE PROJECTOR IN with N > 0 starts a fade, when it starts one (R78). -/
def fadeInFrom (s : State) (p : Slot) : Option Nat :=
  match (s.proj p).state with
  | .parked => if (s.chan p).lock = .locked then some 0 else none
  | .fadingIn => some (s.proj p).phi
  | .fadingOut => if s.retireFade p then none else some (s.proj p).phi
  | .live | .failed | .retiring | .vacant => none

/-- The φ_s from which FADE PROJECTOR OUT with N > 0 starts a fade, when it starts one (R79). -/
def fadeOutFrom (s : State) (p : Slot) : Option Nat :=
  match (s.proj p).state with
  | .live => some 256
  | .fadingIn => some (s.proj p).phi
  | .fadingOut => some (s.proj p).phi
  | .parked | .failed | .retiring | .vacant => none

/-- A step of the Projector Table that touches no claim: the records of the projectors, the Solve Queue and the flags of
nodes, the group's counts, and events may change, and nothing else (R80, R84, R93). -/
def TableStep (s t : State) : Prop :=
  t = { s with
    dome := { s.dome with nodes := t.dome.nodes }, solver := t.solver, edit := t.edit, projectors := t.projectors
    attention := t.attention } ∧
  ∀ n, (t.node n).claims = (s.node n).claims

/-- A step that may free claims and empty slots leaves the ports, the timer, the content, the gain settings, the cursor and
the raster frame in progress as they stand, and the channel, the stream and the link of every slot that it does not empty
(R86, R108). -/
def ClaimStep (emptied : Slot → Prop) (s t : State) : Prop :=
  t = { s with
    dome := { s.dome with nodes := t.dome.nodes, freeCount := t.dome.freeCount }, solver := t.solver, edit := t.edit
    projectors := t.projectors, channels := t.channels, loader := t.loader, attention := t.attention
    raster := { s.raster with streams := t.raster.streams, links := t.raster.links } } ∧
  ∀ p, ¬emptied p → t.chan p = s.chan p ∧
    t.raster.streams.get p = s.raster.streams.get p ∧ t.raster.links.get p = s.raster.links.get p

/-- The projector has a claim on the node. -/
abbrev Claims (s : State) (p : Slot) (n : Nat) : Prop := ∃ c ∈ (s.node n).claims, c.projector = p

/-- The nodes that a projector claims, in ascending index (R34). -/
def claimed (s : State) (p : Slot) : List Nat := (List.range 2049).filter fun n => decide (Claims s p n)

/-- Every node that a projector claims is in the Solve Queue or in flight (R34). -/
def ClaimedNodesWait (s t : State) (p : Slot) : Prop :=
  ∀ n < 2049, Claims s p n → (t.node n).queued ≠ none ∨ t.solver.flight.map Flight.node = some n

/-- Every node that a projector claims is soft-refreshed: in ascending index, those without an entry join the NORMAL class
at its tail, and nothing else changes in the queue or in a node (R29, R33, R34). -/
def NodesRefreshed (s t : State) (p : Slot) : Prop :=
  let joining := (claimed s p).filter fun n => (s.node n).queued = none
  t.solver = { s.solver with normal := s.solver.normal ++ joining } ∧ t.edit = s.edit ∧
  (∀ n ∈ joining, t.node n = { s.node n with queued := some .normal }) ∧ ∀ n, n ∉ joining → t.node n = s.node n

/-- Every node that a projector claims is hard-invalidated URGENT: in ascending index, those without an URGENT entry join
the URGENT class at its tail and leave the NORMAL class; each loses its next weights and is dirty if it was in flight; the
members among them that had next weights are counted down, and a READY group returns to SOLVING; no other node changes
(R29, R31, R34, R61). -/
def NodesInvalidated (s t : State) (p : Slot) : Prop :=
  let joining := (claimed s p).filter fun n => (s.node n).queued ≠ some .urgent
  let lost := (claimed s p).countP fun n => (s.node n).groupMark && (s.node n).nextValid
  t.solver = { s.solver with
    urgent := s.solver.urgent ++ joining
    normal := s.solver.normal.diff (joining.filter fun n => (s.node n).queued = some .normal) } ∧
  t.edit = { s.edit with
    readyCount := s.edit.readyCount - lost
    groupState := if 0 < lost ∧ s.edit.groupState = .ready then .solving else s.edit.groupState } ∧
  (∀ n ∈ claimed s p, t.node n = { s.node n with
    claims := (t.node n).claims, nextValid := false, dirty := (s.node n).dirty || (s.node n).inFlight
    queued := some .urgent }) ∧
  ∀ n, n ∉ claimed s p → t.node n = s.node n

/-- A slot emptied by R87: VACANT with φ 0 and nothing outstanding, no luminance, the settings kept, its channel OFF with
attempt count 0 and all else of it kept (R133, R137), and its stream stopped. The gain target and the limited flag are
those of a recomputation. -/
def SlotEmptied (s t : State) (p : Slot) : Prop :=
  SameButForTarget { s.proj p with
    state := .vacant, phi := 0, fade := none, failCause := none, claimCount := 0, failover := 0, luminance := none }
    (t.proj p) ∧
  t.chan p = { s.chan p with lock := .off, attempts := 0 } ∧
  t.raster.streams.get p = none ∧ t.raster.links.get p = none

/-- The number of a projector's pending-new claims, which entry into RETIRING frees (R86). -/
def newClaims (s : State) (p : Slot) : Nat :=
  (List.range 2049).countP fun n => (claimBy (s.node n).claims p).any fun c => c.pendingNew

/-- The record of a projector that has entered RETIRING with `owed` failovers outstanding, or has at once left its slot
when no claim was left (R86, R87, R76). -/
def RetiredRecord (s t : State) (p : Slot) (owed : Nat) : Prop :=
  let left := (s.proj p).claimCount - newClaims s p
  (left = 0 → SlotEmptied s t p) ∧
  (left ≠ 0 → SameButForTarget { s.proj p with
    state := .retiring, phi := 0, fade := none, failCause := none, claimCount := left, failover := owed - newClaims s p }
    (t.proj p))

/-- The events of an entry into RETIRING with `owed` failovers outstanding: FAILOVER when the freeings bring the count to
0, and FADE_DONE with the retired flag when the slot is emptied at once (R76, R87). -/
def retirementEvents (s : State) (p : Slot) (owed : Nat) : List Event :=
  (if 0 < owed ∧ owed ≤ newClaims s p then [.failover p] else []) ++
    if (s.proj p).claimCount ≤ newClaims s p then [.fadeDone p true] else []

/-- Entry into RETIRING with `owed` failovers outstanding (R86, R87): the record, the claims freed or marked withdrawn, the
nodes hard-invalidated URGENT, and the targets recomputed when the projector was contributing or its slot is emptied. -/
def EnteredRetiring (s t : State) (p : Slot) (owed : Nat) : Prop :=
  let contributing := (s.proj p).state.contributing = true
  let left := (s.proj p).claimCount - newClaims s p
  RetiredRecord s t p owed ∧ NodesInvalidated s t p ∧ t.dome.freeCount = s.dome.freeCount + newClaims s p ∧
  (s.ListsOrdered → ∀ n < 2049,
    (t.node n).claims = ((s.node n).claims.filter fun c => !(c.projector == p && c.pendingNew)).map
      fun c => if c.projector = p then { c with withdrawn := true } else c) ∧
  (contributing ∧ left ≠ 0 ∨ ¬contributing ∧ left = 0 → RecomputedOnce s t) ∧
  (contributing ∧ left = 0 → TargetsSettled t) ∧ (¬contributing ∧ left ≠ 0 → TargetsStand s t)

/-- A retire-fade that a failure ends leaves no claim, so that the slot is emptied at once (R90, R87). -/
def RetiresEmpty (s : State) (p : Slot) : Prop :=
  (s.proj p).state.contributing = true ∧ s.retireFade p = true ∧ (s.proj p).claimCount ≤ newClaims s p

/-- Neither the Dome Map nor the solver nor the group nor the loader changes. -/
def NodesStand (s t : State) : Prop :=
  t.dome = s.dome ∧ t.solver = s.solver ∧ t.edit = s.edit ∧ t.loader = s.loader

/-- What a lock loss, a lock failure or a fault start that fails makes of a projector, by its state (R88 to R90). -/
def LockFaultTaken (s t : State) (p : Slot) (cause : FailCause) : Prop :=
  match (s.proj p).state with
  | .parked => t.proj p = { s.proj p with state := .failed, phi := 0, fade := none, failCause := some cause } ∧
      TargetsStand s t ∧ NodesStand s t
  | .failed => t.proj p = { s.proj p with failCause := some cause } ∧ TargetsStand s t ∧ NodesStand s t
  | .vacant | .retiring => t.proj p = s.proj p ∧ TargetsStand s t ∧ NodesStand s t
  | .fadingIn | .live | .fadingOut =>
    if s.retireFade p = true then
      EnteredRetiring s t p (s.proj p).claimCount ∧ YieldReleases (0 < (s.proj p).claimCount) s t
    else
      SameButForTarget { s.proj p with
        state := .failed, phi := 0, fade := none, failCause := some cause
        failover := (s.proj p).claimCount } (t.proj p) ∧
      RecomputedOnce s t ∧ NodesInvalidated s t p ∧ (∀ n, (t.node n).claims = (s.node n).claims) ∧
      t.dome.freeCount = s.dome.freeCount ∧ t.loader = s.loader

/-- The events of that report: PROJ_FAULT with the slot and the cause; a contributing projector with no claim raises
FAILOVER at once, and one in a retire-fade enters RETIRING (R76, R88 to R90). -/
def lockFaultEvents (s : State) (p : Slot) (cause : FailCause) : List Event :=
  match (s.proj p).state with
  | .vacant => []
  | .parked | .failed | .retiring => [.projFault p cause]
  | .fadingIn | .live | .fadingOut =>
    (if (s.proj p).claimCount = 0 then [.failover p] else []) ++ [.projFault p cause]
      ++ if s.retireFade p = true then retirementEvents s p (s.proj p).claimCount else []

/-- The recovery of a FAILED projector whose line is READY and whose channel is LOCKED, with PROJ_RECOVER (R91). -/
def Recovered (s t : State) (p : Slot) : Prop :=
  t.proj p = { s.proj p with state := .parked, failCause := none } ∧ Raised s t [.projRecover p] ∧ TargetsStand s t ∧
    NodesStand s t

/-- The classes whose record has a property, as a set: bit n for class n (R197). -/
def classesWith (s : State) (f : EventRecord → Bool) : Nat :=
  ((List.finRange 16).map fun k => if f (s.eventRecord k) then 2 ^ k.val else 0).sum

/-- One claim of a READ NODE reply (R16, R197). -/
def claimBytes (nextValid : Bool) (c : Claim) : List Byte :=
  [byte (flags [c.livePos.isSome, c.pendingPos.isSome, c.nextTrim.isSome, c.livePin.isSome, c.pendingPin.isSome,
      nextValid]), byte c.projector.val, byte (flags [c.pendingNew, c.pendingRemoval, c.withdrawn])]
    ++ signedBytes c.liveTrim.tu ++ signedBytes c.liveTrim.tv ++ twoBytes c.liveWeight
    ++ ifPresent (fun q => twoBytes q.u ++ twoBytes q.v) c.livePos
    ++ ifPresent (fun q => twoBytes q.u ++ twoBytes q.v) c.pendingPos
    ++ ifPresent (fun k => signedBytes k.tu ++ signedBytes k.tv) c.nextTrim ++ ifPresent twoBytes c.livePin
    ++ ifPresent (fun k => match k with | .set v => 0 :: twoBytes v | .clear => [1]) c.pendingPin
    ++ (if nextValid then twoBytes c.nextWeight else [])

/-- The states of a projector, in the order of R73. -/
def projStates : List ProjState := [.vacant, .parked, .fadingIn, .live, .fadingOut, .failed, .retiring]

/-- The fields of a READ PROJECTOR reply (R94, R197; log 10). -/
def projectorBytes (p : Slot) (r : Projector) (c : Channel) : List Byte :=
  [byte (flags [r.fade.isSome, r.failCause.isSome, r.luminance.isSome, c.lastCount.isSome]), byte p.val,
      place r.state projStates]
    ++ twoBytes r.width ++ twoBytes r.height ++ twoBytes r.ramp ++ threeBytes r.pixelClock
    ++ [byte (flags [r.autoFailover, (r.fade.map Fade.retireAfter).getD false, r.limited, c.changeFlag])]
    ++ twoBytes r.phi
    ++ ifPresent (fun f => twoBytes f.start ++ twoBytes f.target ++ [byte f.length, byte f.elapsed]) r.fade
    ++ twoBytes r.claimCount ++ twoBytes r.failover
    ++ ifPresent (fun k => [place k [.line, .lockLost, .lockFailed]]) r.failCause ++ ifPresent twoBytes r.luminance
    ++ twoBytes r.gainTarget ++ twoBytes r.gainLive
    ++ [place c.lock [.off, .starting, .awaitLock, .validating, .locked, .lockFailed], byte c.attempts]
    ++ ifPresent threeBytes c.lastCount ++ [place c.taken [.unsettled, .ready, .notReady]]

/-- The fields of a READ GAINS reply that finds this reference luminance (R105, R197). -/
def gainsBytes (s : State) (reference : Option Nat) : List Byte :=
  let ps := s.projectors.toList
  [byte (flags [reference.isSome])] ++ twoBytes s.gain.floor ++ twoBytes s.gain.slew ++ ifPresent twoBytes reference
    ++ twoBytes (flags (ps.map Projector.limited)) ++ twoBytes (flags (ps.map fun r => r.luminance.isSome))
    ++ ps.flatMap fun r => [place r.state projStates] ++ ifPresent twoBytes r.luminance ++ twoBytes r.gainTarget
      ++ twoBytes r.gainLive

/-- An error set as a bit mask (R197). -/
def errorByte (e : ErrorSet) : Byte :=
  byte (flags [e.parity, e.framing, e.overrun, e.stray, e.badType, e.queueFull])

/-- The last executed report in a reply: its type, its fields as received, and its outcome's place in the list of its
type (R159, R167, R197). -/
def lastBytes (e : Report × ReportOutcome) : List Byte :=
  (match e.1 with
    | .drift p ring sector du dv => [(0 : Byte), p, ring, sector] ++ signedBytes du ++ signedBytes dv
    | .luma p v => [1, p] ++ twoBytes v
    | .step => [2])
  ++ [show Byte from match e.1, e.2 with
    | _, .applied | _, .credited => 0
    | _, .saturated | _, .ignored => 1
    | .drift _ _ _ _ _, .noTarget => 2
    | _, .noTarget => 1]

/-- The fields of a READ ALIGN STATUS reply (R167, R197; log 10). -/
def alignBytes (a : AlignPort) : List Byte :=
  let part := match a.assembler with
    | .readPayload r => some r
    | .seekLead | .readType => none
  [byte (flags [a.resume.isSome, part.isSome, part.isSome, a.last.isSome]),
      place a.rate [.r115200, .r230400, .r460800, .r921600], place a.mode [.discardReport, .halt],
      byte (flags [a.enable, a.synced]), place a.receiver [.disabled, .listening, .halted, .lineDown]]
    ++ ifPresent (fun r => [place r [.listening, .halted]]) a.resume
    ++ [show Byte from match a.assembler with | .seekLead => 0 | .readType => 1 | .readPayload _ => 2]
    ++ ifPresent (fun r : PartialReport => [place r.type [.drift, .luma, .step], byte r.bytes.length]) part
    ++ [byte a.fifo.length, byte a.queue.length, errorByte a.errors] ++ ifPresent lastBytes a.last

/-- The outcomes of a load, in the order of R168. -/
def loadOutcomes : List LoadOutcome := [.none, .doneCount, .doneEnd, .faultFetch, .faultStore, .reset]

/-- The fault reasons, in R197's one list. -/
def faultList : List FaultReason :=
  [.badNode, .badProjector, .state, .sealed, .listFull, .poolFull, .noClaim, .badRecord, .readError, .noResponse]

/-- The fields of a READ LOADER reply (R181, R197; log 10, log 20). -/
def loaderBytes (l : Loader) : List Byte :=
  let size := match l.applyResult with
    | .sealed k => some k
    | .notAsked | .empty | .deferred => none
  [byte (flags [l.reason.isSome, l.descriptor.isSome, l.fault.isSome, size.isSome]),
      place l.state [.idle, .running, .held, .waiting]]
    ++ ifPresent (fun r => [place r [.quota, .step, .yield]]) l.reason
    ++ [byte (flags ([l.stopPending, l.fetch.isSome] ++ match l.descriptor with
      | some d => [d.honourEnd, d.applyAtEnd]
      | none => []))]
    ++ ifPresent (fun d : Descriptor => threeBytes d.start ++ twoBytes d.count
        ++ [place d.format [.compact, .full], place d.pacing [.burst, .perFrame, .step]] ++ twoBytes d.quota) l.descriptor
    ++ threeBytes l.nextAddress ++ threeBytes l.remaining ++ threeBytes l.stored ++ twoBytes l.quotaUsed
    ++ [place l.outcome loadOutcomes] ++ ifPresent (fun f => threeBytes f.1 ++ [place f.2 faultList]) l.fault
    ++ [show Byte from match l.applyResult with | .notAsked => 0 | .sealed _ => 1 | .empty => 2 | .deferred => 3]
    ++ ifPresent twoBytes size

/-- The detail of an event in a READ EVENTS reply (section 12.1, R197). -/
def detailBytes : Event → List Byte
  | .darkNode n => twoBytes n
  | .swapDone m => twoBytes m
  | .failover p => [byte p.val]
  | .projFault p k => [byte p.val, place k [.line, .lockLost, .lockFailed]]
  | .projRecover p => [byte p.val]
  | .lockFail p => [byte p.val]
  | .fadeDone p retired => [byte p.val, if retired then 1 else 0]
  | .trimLimit n => twoBytes n
  | .gainLimit p => [byte p.val]
  | .loadDone o stored => place o loadOutcomes :: threeBytes stored
  | .loadFault o index reason => place o loadOutcomes :: (threeBytes index ++ [place reason faultList])
  | .alignError e => [errorByte e]
  | .alignLine up => [if up then 1 else 0]
  | .genlock regained => [if regained then 1 else 0]
  | .portDrop r => [place r [.dropped, .truncated, .malformed]]
  | .offRaster n => twoBytes n

/-- A class's masked status (R193). -/
def maskedOn (r : EventRecord) : Bool := r.status && r.mask

/-- The fields of a READ EVENTS reply: the lead class and the sixteen details are its optional parts (R194, R197; log
10). -/
def eventsBytes (s : State) : List Byte :=
  let details := s.attention.toList.map EventRecord.detail
  threeBytes (flags (s.leadClass.isSome :: details.map Option.isSome))
    ++ twoBytes (classesWith s EventRecord.status) ++ twoBytes (classesWith s EventRecord.mask)
    ++ twoBytes (classesWith s maskedOn) ++ twoBytes (classesWith s EventRecord.overflow)
    ++ ifPresent (fun k => [byte k]) s.leadClass ++ details.flatMap (ifPresent detailBytes)

/-- The error set with flags of another added (R157). -/
def withFlags (a b : ErrorSet) : ErrorSet :=
  { parity := a.parity || b.parity, framing := a.framing || b.framing, overrun := a.overrun || b.overrun
    stray := a.stray || b.stray, badType := a.badType || b.badType, queueFull := a.queueFull || b.queueFull }

/-- A discard with its flags: in DISCARD_REPORT mode the error set is replaced, OVERRUN kept; in HALT mode the flags are
added, the FIFO and the assembler emptied, and the port HALTED; ALIGN_ERROR carries the error set (R156, R157). -/
def discarded (s : State) (flags : ErrorSet) : State :=
  match s.align.mode with
  | .discardReport =>
    let errors := { flags with overrun := flags.overrun || s.align.errors.overrun }
    State.raise { s with align := { s.align with assembler := .seekLead, errors := errors } } (.alignError errors)
  | .halt =>
    let errors := withFlags s.align.errors flags
    State.raise { s with align := { s.align with
      assembler := .seekLead, errors := errors, fifo := [], receiver := .halted } } (.alignError errors)

/-- The flags that a FIFO entry carries (R154). -/
def carried (e : FifoEntry) : ErrorSet :=
  { parity := e.parityError, framing := e.framingError, overrun := e.gap, stray := false, badType := false
    queueFull := false }

/-- The type of a report and the length of its payload (section 9.3). -/
def reportTypes : List (Byte × ReportType × Nat) := [(1, .drift, 7), (2, .luma, 3), (3, .step, 0)]

/-- The loader that LOAD MESH starts, before its fetch decision (R169). -/
def startedLoader (l : Loader) (d : Descriptor) : Loader :=
  { l with
    state := .running, reason := none, descriptor := some d, nextAddress := d.start
    remaining := if d.count = 0 then 65536 else d.count
    stored := 0, stopPending := false, quotaUsed := 0, outcome := .none, fault := none, applyResult := .notAsked }

/-- A load ended by a fault, with LOAD_FAULT raised (R177, R178). -/
def loadFaulted (s : State) (outcome : LoadOutcome) (reason : FaultReason) : State :=
  State.raise { s with loader := { s.loader with
    state := .idle, reason := none, fetch := none, stopPending := false, outcome := outcome
    fault := some (s.loader.stored, reason) } } (.loadFault outcome s.loader.stored reason)

/-- A load that ends without a fault in state u: the apply at end is taken when it is asked for, and LOAD_DONE carries the
outcome and the stored count (R178, R59, R65). -/
def LoadDone (u : State) (d : Descriptor) (o : LoadOutcome) (t : State) : Prop :=
  let finished := fun (v : State) (r : ApplyResult) => startSolve (State.raise { v with loader := { u.loader with
    state := .idle, reason := none, fetch := none, stopPending := false, outcome := o, applyResult := r } }
    (.loadDone o u.loader.stored))
  (d.applyAtEnd = false → t = finished u u.loader.applyResult) ∧
  (d.applyAtEnd = true → u.edit.groupState ≠ .none →
    t = finished { u with edit := { u.edit with applyWaiting := true } } .deferred) ∧
  (d.applyAtEnd = true → u.edit.groupState = .none → (∀ n < 2049, (u.node n).openMark = false) → t = finished u .empty) ∧
  (d.applyAtEnd = true → u.edit.groupState = .none → (∃ n < 2049, (u.node n).openMark = true) →
    ∃ v, Sealed u v ∧ t = finished v (.sealed v.edit.members))

/-- What follows the record that state u has taken: the address and the counts move on, and the load ends by count or makes
its fetch decision (R176, R170). -/
def RecordCounted (u : State) (d : Descriptor) (t : State) : Prop :=
  let l := { u.loader with
    fetch := none
    nextAddress := (u.loader.nextAddress + (match d.format with | .compact => 8 | .full => 10)) % 16777216
    remaining := u.loader.remaining - 1
    stored := u.loader.stored + 1 }
  (u.loader.remaining = 1 → LoadDone { u with loader := l } d .doneCount t) ∧
  (1 < u.loader.remaining → t = { u with loader := l.decide false (decide (FailoverOwed u)) })

/-- The fault reason that a refusal of an edit gives (R177). -/
def faultReasons : List (ResultCode × FaultReason) :=
  [(.badNode, .badNode), (.badProjector, .badProjector), (.state, .state), (.sealed, .sealed), (.listFull, .listFull),
   (.poolFull, .poolFull), (.noClaim, .noClaim)]

/-- The reference luminance: the least luminance of a contributing projector that has one (R98). -/
def IsReference (s : State) (l : Nat) : Prop :=
  (∃ p, (s.proj p).state.contributing = true ∧ (s.proj p).luminance = some l) ∧
    ∀ p k, (s.proj p).state.contributing = true → (s.proj p).luminance = some k → l ≤ k

end Sys2Proof.Stating

open Sys2Proof Sys2Proof.Machine Sys2Proof.Stating

/-! ### The block as a machine -/

/-- A step is the front command run on the state with the queue's rest; on an empty queue the block idles (the model's
choice, log 4). No command stops the block: each answers a next state, and leaves the queue of waiting commands alone. -/
def Obligations.StepRunsFrontCommand : Prop :=
  (∀ s, (∀ c rest, s.pending = c :: rest → step s = exec c { s with pending := rest }) ∧
    (s.pending = [] → step s = .next s)) ∧
  (∀ c s, ∃ t, exec c s = .next t ∧ t.pending = s.pending)

/-! ### Reset (R26, R191) -/

/-- After the reset line and after RESET DEVICE the Dome Map holds the values of R26, and a frame drawn from them is
black. -/
def Obligations.ResetEmptiesDomeMap : Prop :=
  (∀ s, ∃ t, exec .resetLine s = .next t ∧ DomeMapReset t) ∧
    ∀ s tag rest, Waits s 0x7F tag [] rest → ∃ t, exec .resetDevice s = .next t ∧ DomeMapReset t

/-- The reset line gives every block its chapter's values, and RESET DEVICE gives the same and appends no reply; what
stands outside the part is kept (the model's choice, log 7, log 13). -/
def Obligations.ResetGivesEveryBlocksValues : Prop :=
  (∀ s, exec .resetLine s = .next (resetFrom s)) ∧
    (∀ s tag rest, Waits s 0x7F tag [] rest → exec .resetDevice s = .next (resetFrom s)) ∧
    State.reset = { resetFrom State.reset with pending := [] }

/-! ### The Control Port (chapter 11) -/

/-- Select asserted takes the Port Status byte and awaits a header; select released ends the transaction, and drops a
partial request with PORT_DROP TRUNCATED. -/
def Obligations.SelectBeginsAndEndsTransactions : Prop :=
  (∀ s, s.port.txn = .noSelect →
      exec .selectAssert s = .next { s with port := { s.port with
        txn := .awaitHeader
        statusByte := some (byte ((if AnyMasked s then 128 else 0) + 16 * (4 - s.port.requests.length)
          + s.port.replies.length))
        shiftedOut := none } }) ∧
    ∀ s, s.port.txn ≠ .noSelect →
      let t := { s with port := { s.port with
        txn := .noSelect, partialReq := none, fetch := none, statusByte := none } }
      exec .selectRelease s = .next
        (if s.port.txn = .readLength ∨ s.port.txn = .readPayload then t.raise (.portDrop .truncated) else t)

/-- A header byte records Continue and begins a FILL, a REQUEST or a FETCH by its kind, or is malformed; the part shifts
out the status byte first, else 0x00. A byte clocked in IGNORING is disregarded. -/
def Obligations.HeaderByteBeginsUnit : Prop :=
  (∀ s (b : Byte), s.port.txn = .awaitHeader →
    let p := { s.port with cont := decide (128 ≤ b.toNat), shiftedOut := some (s.port.statusByte.getD 0), statusByte := none }
    (b.toNat % 128 = 0 → exec (.unitHeader b) s = .next { s with port := { p with
        txn := if 128 ≤ b.toNat then .awaitHeader else .ignoring, partialReq := none, fetch := none } }) ∧
    (b.toNat % 128 = 1 → exec (.unitHeader b) s = .next { s with port := { p with
        txn := .readLength, partialReq := some { header := b, length := none, bytes := [] } } }) ∧
    (b.toNat % 128 = 2 → exec (.unitHeader b) s = .next { s with port := { p with
        txn := .sendReply, fetch := some { reply := s.port.replies.head?, sent := 0 } } }) ∧
    (2 < b.toNat % 128 → exec (.unitHeader b) s = .next
      (State.raise { s with port := { p with txn := .ignoring, partialReq := none, fetch := none } }
        (.portDrop .malformed)))) ∧
  (∀ s (b : Byte) c, s.port.txn = .ignoring → c ∈ [Instr.unitHeader b, .requestLength b, .requestPayloadByte b, .replyByte] →
    exec c s = .next { s with port := { s.port with
      shiftedOut := some (s.port.statusByte.getD 0), statusByte := none } })

/-- A REQUEST unit: a length 2..32 is taken and any other is malformed; payload bytes are gathered, and the byte that
completes the request offers it to a queue of at most four, or drops it with PORT_DROP DROPPED. -/
def Obligations.RequestUnitReachesQueue : Prop :=
  (∀ s (b : Byte) q, s.port.txn = .readLength → s.port.partialReq = some q →
    let p := { s.port with shiftedOut := some (s.port.statusByte.getD 0), statusByte := none }
    (2 ≤ b.toNat ∧ b.toNat ≤ 32 → exec (.requestLength b) s = .next { s with port := { p with
        txn := .readPayload, partialReq := some { q with length := some b.toNat } } }) ∧
    (b.toNat < 2 ∨ 32 < b.toNat → exec (.requestLength b) s = .next
      (State.raise { s with port := { p with txn := .ignoring, partialReq := none, fetch := none } }
        (.portDrop .malformed)))) ∧
  ∀ s (b : Byte) q k, s.port.txn = .readPayload → s.port.partialReq = some q → q.length = some k →
    let p := { s.port with shiftedOut := some (s.port.statusByte.getD 0), statusByte := none }
    let ended := { p with
      txn := if s.port.cont then .awaitHeader else .ignoring, partialReq := none, fetch := none }
    (q.bytes.length + 1 < k → exec (.requestPayloadByte b) s = .next { s with port := { p with
        partialReq := some { q with bytes := q.bytes ++ [b] } } }) ∧
    ∀ code tag fields, q.bytes ++ [b] = code :: tag :: fields → fields.length + 2 = k →
      (s.port.requests.length < 4 → exec (.requestPayloadByte b) s = .next { s with port := { ended with
        requests := s.port.requests ++ [{ code := code, tag := tag, fields := fields }] } }) ∧
      (4 ≤ s.port.requests.length → exec (.requestPayloadByte b) s = .next
        (State.raise { s with port := ended } (.portDrop .dropped)))

/-- A FETCH shifts out length 0 when no reply is in progress; else the length, the tag, the result and the fields, and the
step of the last byte removes the reply. -/
def Obligations.FetchShiftsOutReply : Prop :=
  ∀ s f, s.port.txn = .sendReply → s.port.fetch = some f →
    let after := fun p : ControlPort => { p with
      txn := if s.port.cont then .awaitHeader else .ignoring, partialReq := none, fetch := none, statusByte := none }
    (f.reply = none → exec .replyByte s = .next { s with port := { after s.port with shiftedOut := some 0 } }) ∧
    ∀ r, f.reply = some r →
      (f.sent = 0 → exec .replyByte s = .next { s with port := { s.port with
        shiftedOut := some (byte (2 + r.fields.length)), statusByte := none, fetch := some { f with sent := 1 } } }) ∧
      ∀ b, (r.tag :: byte r.result.code :: r.fields)[f.sent - 1]? = some b → 0 < f.sent →
        (f.sent < 2 + r.fields.length → exec .replyByte s = .next { s with port := { s.port with
          shiftedOut := some b, statusByte := none, fetch := some { f with sent := f.sent + 1 } } }) ∧
        (f.sent = 2 + r.fields.length → exec .replyByte s = .next { s with port := { after s.port with
          shiftedOut := some b, replies := s.port.replies.tail } })

/-- A code that names no request is answered UNKNOWN, and a length that does not fit the code BAD_LENGTH, by UNKNOWN_CODE
and by the command of the code; neither answer changes anything else. -/
def Obligations.WrongRequestsAreAnsweredUnrun : Prop :=
  (∀ s (code : Byte) tag fields rest, Waits s code tag fields rest → (∀ e ∈ catalogue, code.toNat ≠ e.2.1) →
      exec .unknownCode s = .next (answered s rest tag .unknown [code])) ∧
    ∀ s (code : Byte) tag fields rest, Waits s code tag fields rest → ∀ e ∈ catalogue, code.toNat = e.2.1 →
      fields.length + 2 ≠ e.2.2 → ∀ c ∈ [e.1, .unknownCode],
        exec c s = .next (answered s rest tag .badLength [code, byte (fields.length + 2), byte e.2.2])

/-! ### The Dome Map (chapter 1) -/

/-- READ NODE reports the node its address selects, the whole of its record and of each claim, and changes nothing but the
cursor, which advances after a cursor-addressed read (the packing of the reply's flags is the model's reading, log 10). -/
def Obligations.ReadNodeReportsNode : Prop :=
  (∀ s tag (mode ring sector : Byte) rest, Waits s 0x01 tag [mode, ring, sector] rest →
    (∀ n, addressed s mode ring sector = some n →
      exec .readNode s = .next (answered (advancedUnless (mode = 0) s) rest tag .ok (nodeAnswer s n).fields)) ∧
    (addressed s mode ring sector = none → exec .readNode s = .next (answered s rest tag .badNode []))) ∧
  ∀ s n, (nodeAnswer s n).fields =
    [byte (n / 64), byte (n % 64)] ++ twoBytes n
      ++ [byte (match (s.node n).condition with | .unclaimed => 0 | .dark => 1 | .covered => 2),
          byte ((if (s.node n).openMark then 1 else 0) + (if (s.node n).groupMark then 2 else 0)
            + (if (s.node n).inFlight then 4 else 0) + (if (s.node n).dirty then 8 else 0)
            + (if (s.node n).nextValid then 16 else 0)),
          byte (match (s.node n).queued with | none => 0 | some .normal => 1 | some .urgent => 2)]
      ++ twoBytes s.dome.freeCount ++ [byte (s.node n).claims.length]
      ++ (s.node n).claims.flatMap (claimBytes (s.node n).nextValid)

/-- A dome point below the zenith lies in exactly the triangle of R3, with the barycentric coordinates of R4, which are
0..256 each and sum to 256. -/
def Obligations.DomePointIsPlaced : Prop :=
  ∀ azimuth elevation, azimuth < 65536 → elevation < 16384 →
    let r := elevation / 512
    let sec := azimuth / 1024
    let fs := azimuth % 1024
    let fr := 2 * (elevation % 512)
    let d := placePoint azimuth elevation
    d.b0 ≤ 256 ∧ d.b1 ≤ 256 ∧ d.b2 ≤ 256 ∧ d.b0 + d.b1 + d.b2 = 256 ∧
      (r ≤ 30 → fr ≤ fs → d.triangle = 2 * (r * 64 + sec) ∧ d.b1 = (fs - fr + 2) / 4 ∧ d.b2 = (fr + 2) / 4) ∧
      (r ≤ 30 → fs < fr → d.triangle = 2 * (r * 64 + sec) + 1 ∧ d.b1 = (fs + 2) / 4 ∧ d.b2 = (fr - fs + 2) / 4) ∧
      (r = 31 → d.triangle = 3968 + sec ∧ d.b1 = ((256 - d.b2) * fs + 512) / 1024 ∧ d.b2 = (fr + 2) / 4)

/-- READ POINT lists exactly the projectors with a live claim on all three corners, with the blended weight; at the zenith
those with a live claim on Z; above it the result is BAD_NODE. It changes nothing. -/
def Obligations.ReadPointReportsShares : Prop :=
  (∀ s tag (a0 a1 e0 e1 : Byte) rest, Waits s 0x02 tag [a0, a1, e0, e1] rest →
    (word e0 e1 < 16384 → let d := placePoint (word a0 a1) (word e0 e1)
      exec .readPoint s = .next (answered s rest tag .ok
        ([15] ++ twoBytes d.triangle ++ [3] ++ twoBytes (cornersOf d.triangle).1 ++ twoBytes (cornersOf d.triangle).2.1
          ++ twoBytes (cornersOf d.triangle).2.2 ++ twoBytes d.b0 ++ twoBytes d.b1 ++ twoBytes d.b2
          ++ [byte (s.pointShares d).length] ++ (s.pointShares d).flatMap fun e => byte e.1.val :: twoBytes e.2))) ∧
    (word e0 e1 = 16384 → exec .readPoint s = .next (answered s rest tag .ok
        ([0, 1] ++ twoBytes 2048
          ++ [byte s.zenithShares.length] ++ s.zenithShares.flatMap fun e => byte e.1.val :: twoBytes e.2))) ∧
    (16384 < word e0 e1 → exec .readPoint s = .next (answered s rest tag .badNode []))) ∧
  (∀ (s : State) (d : DomePlace) p w, (p, w) ∈ s.pointShares d ↔ ∃ c0 c1 c2, s.liveClaim (cornersOf d.triangle).1 p = some c0 ∧
      s.liveClaim (cornersOf d.triangle).2.1 p = some c1 ∧ s.liveClaim (cornersOf d.triangle).2.2 p = some c2 ∧
      w = (d.b0 * c0.liveWeight + d.b1 * c1.liveWeight + d.b2 * c2.liveWeight + 128) / 256) ∧
  (∀ (s : State) p w, (p, w) ∈ s.zenithShares ↔ ∃ c, s.liveClaim 2048 p = some c ∧ w = c.liveWeight) ∧
  ∀ (s : State) d, (s.pointShares d).Pairwise (fun a b => a.1 < b.1) ∧ s.zenithShares.Pairwise (fun a b => a.1 < b.1)

/-- PLACE CURSOR places the cursor on the node its fields name, remembers a lattice node's sector, and refuses a ring
above 32 with BAD_NODE and the cursor unchanged. SET WALK is always taken: the direction modulo 4 replaces the walk
direction, and the reply names it; the cursor and the remembered sector stay. -/
def Obligations.CursorRequestsSetCursorAndWalk : Prop :=
  (∀ s tag (ring sector : Byte) rest, Waits s 0x03 tag [ring, sector] rest →
    (ring.toNat < 32 → exec .placeCursor s = .next (answered { s with dome := { s.dome with
        cursor := ring.toNat * 64 + sector.toNat % 64, remembered := sector.toNat % 64 } }
      rest tag .ok [ring, byte (sector.toNat % 64)])) ∧
    (ring.toNat = 32 → exec .placeCursor s = .next (answered { s with dome := { s.dome with cursor := 2048 } }
      rest tag .ok [32, 0])) ∧
    (32 < ring.toNat → exec .placeCursor s = .next (answered s rest tag .badNode []))) ∧
  (∀ s tag (d : Byte) rest, Waits s 0x04 tag [d] rest → ∀ k walk,
    (k, walk) ∈ [(0, Walk.east), (1, .west), (2, .north), (3, .south)] → d.toNat % 4 = k →
      exec .setWalk s = .next (answered { s with dome := { s.dome with walk := walk } } rest tag .ok [byte k]))

/-- The advance of the Map Cursor, cell by cell of R22's table. -/
def Obligations.AdvanceFollowsWalkTable : Prop :=
  ∀ s : State,
    let moved := fun cursor remembered => { s with dome := { s.dome with cursor := cursor, remembered := remembered } }
    (∀ r sec, r ≤ 31 → sec < 64 → s.dome.cursor = r * 64 + sec →
      (s.dome.walk = .east → s.advance = moved (r * 64 + (sec + 1) % 64) ((sec + 1) % 64)) ∧
      (s.dome.walk = .west → s.advance = moved (r * 64 + (sec + 63) % 64) ((sec + 63) % 64)) ∧
      (s.dome.walk = .north → r < 31 → s.advance = moved ((r + 1) * 64 + sec) sec) ∧
      (s.dome.walk = .north → r = 31 → s.advance = moved 2048 sec) ∧
      (s.dome.walk = .south → 0 < r → s.advance = moved ((r - 1) * 64 + sec) sec) ∧
      (s.dome.walk = .south → r = 0 → s.advance = moved sec sec)) ∧
    (s.dome.cursor = 2048 →
      (s.dome.walk = .east → s.advance = moved 2048 ((s.dome.remembered + 1) % 64)) ∧
      (s.dome.walk = .west → s.advance = moved 2048 ((s.dome.remembered + 63) % 64)) ∧
      (s.dome.walk = .north → s.advance = s) ∧
      (s.dome.walk = .south → s.advance = moved (31 * 64 + s.dome.remembered) s.dome.remembered))

/-- CLEAR MAP empties the map, the solver, Edit Control and every projector's counts; a retiring slot becomes VACANT with
its channel OFF, FADE_DONE and a recomputation; the cursor, the other projectors and the rest of the part stand, but for a
loader that waited for YIELD, which is released when a failover had been outstanding. FADE_DONE is raised for the retiring
slots in some order: which order is the model's choice (log 26), and nothing here rests on it. -/
def Obligations.ClearMapEmptiesMap : Prop :=
  ∀ s tag rest, Waits s 0x05 tag [] rest →
    let retiring := fun p => decide ((s.proj p).state = .retiring)
    ∃ (t : State) (order : List Slot),
    exec .clearMap s = .next (answered t rest tag .ok
      (twoBytes ((List.range 2049).map fun n => (s.node n).claims.length).sum)) ∧
    t = { s with
      dome := { s.dome with nodes := [], freeCount := 6144 }
      solver := { urgent := [], normal := [], flight := none }
      edit := { groupState := .none, members := 0, readyCount := 0, applyWaiting := false }
      projectors := t.projectors, channels := t.channels, loader := t.loader, attention := t.attention
      raster := { s.raster with streams := t.raster.streams, links := t.raster.links } } ∧
    (∀ p, (s.proj p).state = .retiring → SlotEmptied s t p) ∧
    (∀ p, (s.proj p).state ≠ .retiring → t.chan p = s.chan p ∧
      t.raster.streams.get p = s.raster.streams.get p ∧ t.raster.links.get p = s.raster.links.get p ∧
      SameButForTarget { s.proj p with claimCount := 0, failover := 0 } (t.proj p)) ∧
    order.Perm ((List.finRange 16).filter retiring) ∧ Raised s t (order.map fun p => .fadeDone p true) ∧
    ((∃ p, retiring p = true) → TargetsSettled t) ∧ ((∀ p, retiring p = false) → TargetsStand s t) ∧ YieldFollows s t

/-! ### Edits and the swap (chapter 3) -/

/-- SET CLAIM: the first check that fails gives the result, and nothing changes but the cursor after a cursor-addressed
request. When none fails it creates a pending-new claim when the node holds none by the projector, else it updates that
claim and clears its pending-removal mark; the node joins the open set. -/
def Obligations.SetClaimChecksCreatesOrUpdates : Prop :=
  (∀ s tag (mode ring sector slot u0 u1 v0 v1 pm p0 p1 : Byte) rest,
    Waits s 0x10 tag [mode, ring, sector, slot, u0, u1, v0, v1, pm, p0, p1] rest → ∀ code,
    setClaimRefusal s (addressed s mode ring sector) slot.toNat = some code →
      exec .setClaim s = .next (answered (advancedUnless (mode = 0) s) rest tag code [])) ∧
  (∀ s tag (mode ring sector slot u0 u1 v0 v1 pm p0 p1 : Byte) rest,
    Waits s 0x10 tag [mode, ring, sector, slot, u0, u1, v0, v1, pm, p0, p1] rest → ∀ n (p : Slot),
    addressed s mode ring sector = some n → slot.toNat = p.val → setClaimRefusal s (some n) slot.toNat = none →
    ∃ t outcome,
      exec .setClaim s = .next (answered (advancedUnless (mode = 0) t) rest tag .ok
        ([byte (n / 64), byte (n % 64), slot, byte outcome] ++ twoBytes t.dome.freeCount)) ∧
      ClaimSet s t n p ⟨word u0 u1, word v0 v1⟩ (pinField pm (word p0 p1)) outcome)

/-- DROP CLAIM: the first check that fails gives the result; a pending-new claim is freed, any other receives the
pending-removal mark; the node joins the open set. A freeing that brings the last failover outstanding to 0 raises FAILOVER
and releases a loader that waits for YIELD. -/
def Obligations.DropClaimFreesOrMarks : Prop :=
  ∀ s tag (ring sector slot : Byte) rest, Waits s 0x11 tag [ring, sector, slot] rest →
    (∀ code, dropClaimRefusal s (namedNode ring sector) slot.toNat = some code →
      exec .dropClaim s = .next (answered s rest tag code [])) ∧
    ∀ n (p : Slot) c, namedNode ring sector = some n → slot.toNat = p.val →
      dropClaimRefusal s (some n) slot.toNat = none → claimBy (s.node n).claims p = some c →
      ∃ t, exec .dropClaim s = .next (answered t rest tag .ok [if c.pendingNew then 0 else 1]) ∧ ClaimDropped s t n p c

/-- APPLY EDITS: BUSY while a group exists; size 0 with an empty open set; else the open set is sealed, each node
hard-invalidated NORMAL, so that it stands in the Solve Queue and is dirty if it is in flight, and the group is SOLVING;
the solver begins on the queue's head if it was idle. That a solve begins at the end of the step, after all of its queue
requests, is the model's choice (log 5). -/
def Obligations.ApplyEditsSealsOpenSet : Prop :=
  ∀ s tag rest, Waits s 0x12 tag [] rest →
    (s.edit.groupState ≠ .none → exec .applyEdits s = .next (answered s rest tag .busy
      ([byte (if s.edit.groupState = .ready then 2 else 1)] ++ twoBytes s.edit.members ++ twoBytes s.edit.readyCount
        ++ [if s.edit.applyWaiting then 1 else 0]))) ∧
    (s.edit.groupState = .none → (∀ n < 2049, (s.node n).openMark = false) → NothingToBegin s →
      exec .applyEdits s = .next (answered s rest tag .ok [0, 0])) ∧
    (s.edit.groupState = .none → (∃ n < 2049, (s.node n).openMark = true) →
      ∃ t, Sealed s t ∧
        exec .applyEdits s = .next (answered (startSolve t) rest tag .ok
          (twoBytes ((List.range 2049).filter fun n => (s.node n).openMark).length)))

/-- WITHDRAW EDITS: NO_GROUP without a group; else the members return to the open set with next-valid clear, a member in
flight is dirty, the group is dissolved, and a waiting apply seals the open set anew; no other node and no entry of the
Solve Queue changes but by that seal, and the solver begins on the queue's head if it was idle. That a solve begins at
the end of the step, after all of its queue requests, is the model's choice (log 5). -/
def Obligations.WithdrawEditsReopensGroup : Prop :=
  ∀ s tag rest, Waits s 0x13 tag [] rest →
    (s.edit.groupState = .none → exec .withdrawEdits s = .next (answered s rest tag .noGroup [])) ∧
    (s.edit.groupState ≠ .none →
      let members := (List.range 2049).filter fun n => (s.node n).groupMark
      let done := fun (t : State) size => exec .withdrawEdits s = .next
        (answered (startSolve t) rest tag .ok (twoBytes members.length ++ twoBytes size))
      ∃ t, t = { s with
          dome := { s.dome with nodes := t.dome.nodes }
          edit := { groupState := .none, members := 0, readyCount := 0, applyWaiting := false } } ∧
        (∀ n ∈ members, t.node n = { s.node n with
          openMark := true, groupMark := false, nextValid := false
          dirty := (s.node n).dirty || (s.node n).inFlight }) ∧
        (∀ n, n ∉ members → t.node n = s.node n) ∧
        (s.edit.applyWaiting = false ∨ (∀ n < 2049, (t.node n).openMark = false) → done t 0) ∧
        (s.edit.applyWaiting = true → (∃ n < 2049, (t.node n).openMark = true) →
          ∃ u, Sealed t u ∧ done u u.edit.members))

/-- DISCARD EDITS: every pending-new claim on the open set is freed, every other edit there removed, and the open set is
empty; the group, the solver and every other node stand. Each freed claim lowers its projector's claim count, and its
failover outstanding while that is above 0; FAILOVER is raised for each projector whose count reaches 0, in the order of the
nodes at which they do, no other class changes, and a loader that waits for YIELD is released when none is outstanding any
more. -/
def Obligations.DiscardEditsRemovesEdits : Prop :=
  ∀ s tag rest, Waits s 0x14 tag [] rest → s.ListsOrdered →
    let opened := (List.range 2049).filter fun n => (s.node n).openMark
    let newAt := fun (p : Slot) (n : Nat) =>
      if (s.node n).openMark && (s.node n).claims.any fun c => c.pendingNew && c.projector == p then 1 else 0
    let freed := fun p => ((List.range 2049).map (newAt p)).sum
    let total := (opened.map fun n => ((s.node n).claims.filter fun c => c.pendingNew).length).sum
    ∃ (t : State) (order : List Slot),
      exec .discardEdits s = .next (answered t rest tag .ok (twoBytes opened.length ++ twoBytes total)) ∧
      t = { s with
        dome := { s.dome with nodes := t.dome.nodes, freeCount := s.dome.freeCount + total }
        projectors := t.projectors, loader := t.loader, attention := t.attention } ∧
      (∀ n ∈ opened, t.node n = { s.node n with
        openMark := false
        claims := ((s.node n).claims.filter fun c => !c.pendingNew).map fun c =>
          { c with pendingPos := none, pendingPin := none, pendingRemoval := false } }) ∧
      (∀ n, n ∉ opened → t.node n = s.node n) ∧
      (∀ p, t.proj p = { s.proj p with
        failover := (s.proj p).failover - freed p, claimCount := (s.proj p).claimCount - freed p }) ∧
      order.Perm ((List.finRange 16).filter fun p => decide (0 < (s.proj p).failover ∧ (s.proj p).failover ≤ freed p)) ∧
      order.Pairwise (fun p q => reachedAt (newAt p) (s.proj p).failover ≤ reachedAt (newAt q) (s.proj q).failover) ∧
      Raised s t (order.map .failover) ∧ t.eventRecord 8 = s.eventRecord 8 ∧ YieldFollows s t

/-- The swap of a boundary: every node outside the group with next-valid set swaps singly, every member of a READY group
swaps with its pending parts, and no other node changes. It raises DARK_NODE for each node that turns DARK, in ascending
index, and SWAP_DONE with M; it lowers failover outstanding once for each claim on a swapped node and the claim count
once for each claim freed, raises FAILOVER when an outstanding count reaches 0 and FADE_DONE when it empties a retiring
slot whose last claim it frees, each in the order of the nodes at which the counts are reached, and releases a loader
that waits for YIELD when none is outstanding any more. A waiting apply is taken after the last node has been visited
(the model's choice, log 28). (The first part speaks of a swap without a waiting apply and with a solver that has
nothing to begin.) The condition of a node is UNCLAIMED, DARK or COVERED by its live claims and their weights; that
COVERED needs only one weight other than 0 is the model's reading (log 22). That a solve begins at the end of the step,
after all of its queue requests, is the model's choice (log 5). -/
def Obligations.SwapMovesNextPartsLive : Prop :=
  (∀ s, 0 < s.owed.swap → s.edit.applyWaiting = false → NothingToBegin s →
    let swaps := fun n => if (s.node n).groupMark then s.edit.groupState = .ready else (s.node n).nextValid = true
    let leaves := fun (n : Nat) (c : Claim) => c.withdrawn || ((s.node n).groupMark && c.pendingRemoval)
    let heldAt := fun (p : Slot) (n : Nat) => if swaps n then (s.node n).claims.countP fun c => c.projector = p else 0
    let freedAt := fun (p : Slot) (n : Nat) =>
      if swaps n then (s.node n).claims.countP fun c => c.projector = p && leaves n c else 0
    let held := fun p => ((List.range 2049).map (heldAt p)).sum
    let freed := fun p => ((List.range 2049).map (freedAt p)).sum
    let emptied := fun p => (s.proj p).state = .retiring ∧ 0 < freed p ∧ (s.proj p).claimCount ≤ freed p
    ∃ (t : State) (failed retired : List Slot),
      exec .swap s = .next t ∧ t.solver = s.solver ∧
      ClaimStep emptied { s with owed := { s.owed with swap := s.owed.swap - 1 } } t ∧
      (s.edit.groupState = .ready → t.edit = { groupState := .none, members := 0, readyCount := 0, applyWaiting := false } ∧
        t.eventRecord 1 = afterRaising (s.eventRecord 1) (.swapDone s.edit.members)) ∧
      (s.edit.groupState ≠ .ready → t.edit = s.edit ∧ t.eventRecord 1 = s.eventRecord 1) ∧
      (∀ n < 2049,
        ((s.node n).groupMark = false → (s.node n).nextValid = true →
          let claims := ((s.node n).claims.filter fun c => !c.withdrawn).map fun c =>
            { c with liveWeight := c.nextWeight, liveTrim := c.nextTrim.getD c.liveTrim, nextTrim := none }
          t.node n = { s.node n with claims := claims, condition := conditionOf claims, nextValid := false }) ∧
        ((s.node n).groupMark = true → s.edit.groupState = .ready →
          let claims := ((s.node n).claims.filter fun c => !(c.pendingRemoval || c.withdrawn)).map fun c =>
            { c with
              livePos := if c.pendingPos.isSome then c.pendingPos else c.livePos
              pendingPos := none
              livePin := match c.pendingPin with | some (.set v) => some v | some .clear => none | none => c.livePin
              pendingPin := none, pendingNew := false
              liveWeight := c.nextWeight, liveTrim := c.nextTrim.getD c.liveTrim, nextTrim := none }
          t.node n = { s.node n with
            claims := claims, condition := conditionOf claims, nextValid := false, groupMark := false }) ∧
        ((s.node n).groupMark = false → (s.node n).nextValid = false → t.node n = s.node n) ∧
        ((s.node n).groupMark = true → s.edit.groupState ≠ .ready → t.node n = s.node n)) ∧
      t.eventRecord 0 = (((List.range 2049).filter fun n => swaps n ∧ (t.node n).condition = .dark ∧
        (s.node n).condition ≠ .dark).foldl (fun r n => afterRaising r (.darkNode n)) (s.eventRecord 0)) ∧
      t.dome.freeCount = s.dome.freeCount
        + ((List.range 2049).map fun n => if swaps n then (s.node n).claims.countP (leaves n) else 0).sum ∧
      (∀ p,
        (¬emptied p → SameButForTarget { s.proj p with
          failover := (s.proj p).failover - held p, claimCount := (s.proj p).claimCount - freed p } (t.proj p)) ∧
        (emptied p → SlotEmptied s t p)) ∧
      failed.Nodup ∧ failed.Pairwise (fun p q =>
        reachedAt (heldAt p) (s.proj p).failover ≤ reachedAt (heldAt q) (s.proj q).failover) ∧
      (∀ p ∈ failed, 0 < (s.proj p).failover ∧ (s.proj p).failover ≤ held p) ∧
      (∀ p, ¬emptied p ∨ freed p = held p ∧ freed p = (s.proj p).claimCount → 0 < (s.proj p).failover →
        (s.proj p).failover ≤ held p → p ∈ failed) ∧
      t.eventRecord 2 = failed.foldl (fun r p => afterRaising r (.failover p)) (s.eventRecord 2) ∧
      retired.Nodup ∧ retired.Pairwise (fun p q =>
        reachedAt (freedAt p) (max 1 (s.proj p).claimCount)
          ≤ reachedAt (freedAt q) (max 1 (s.proj q).claimCount)) ∧
      (∀ p, p ∈ retired ↔ emptied p) ∧
      t.eventRecord 6 = retired.foldl (fun r p => afterRaising r (.fadeDone p true)) (s.eventRecord 6) ∧
      ((∃ p, emptied p) → TargetsSettled t) ∧ ((∀ p, ¬emptied p) → TargetsStand s t) ∧
      (∀ k, k ≠ 0 → k ≠ 1 → k ≠ 2 → k ≠ 6 → k ≠ 8 → t.eventRecord k = s.eventRecord k) ∧ YieldFollows s t) ∧
  (∀ s, 0 < s.owed.swap → s.edit.applyWaiting = true →
    let plain := { s with edit := { s.edit with applyWaiting := false } }
    ∃ t, exec .swap plain = .next t ∧
      (s.edit.groupState ≠ .ready → exec .swap s = .next { t with edit := s.edit }) ∧
      (s.edit.groupState = .ready → NothingToBegin s →
        ((∀ n < 2049, (t.node n).openMark = false) → exec .swap s = .next t) ∧
        ((∃ n < 2049, (t.node n).openMark = true) → ∃ u, Sealed t u ∧ exec .swap s = .next (startSolve u)))) ∧
  ∀ claims : List Claim,
    (conditionOf claims = .unclaimed ↔ ∀ c ∈ claims, c.pendingNew = true) ∧
    (conditionOf claims = .dark ↔ (∃ c ∈ claims, c.pendingNew = false) ∧
      ∀ c ∈ claims, c.pendingNew = false → c.liveWeight = 0) ∧
    (conditionOf claims = .covered ↔ ∃ c ∈ claims, c.pendingNew = false ∧ c.liveWeight ≠ 0)

/-! ### The Weight Solver (chapter 2) -/

/-- A request to queue a node, cell by cell of R29's table. Hard invalidation clears next-valid, makes a node in flight
dirty, queues the node in its class as such a request does, and tells Edit Control of a member that lost its next weights;
soft refresh queues NORMAL as such a request does, and does nothing else. -/
def Obligations.QueueRequestsAndInvalidations : Prop :=
  (∀ s n,
    let queuedAs := fun (cls : QueueClass) (v : Solver) (t : State) =>
      OnlyNodesAndSolver s t ∧ t.solver = v ∧ t.node n = { s.node n with queued := some cls } ∧
        ∀ m, m ≠ n → t.node m = s.node m
    ((s.node n).queued = none →
      queuedAs .normal { s.solver with normal := s.solver.normal ++ [n] } (queueNode .normal n s) ∧
      queuedAs .urgent { s.solver with urgent := s.solver.urgent ++ [n] } (queueNode .urgent n s)) ∧
    ((s.node n).queued = some .normal → queueNode .normal n s = s ∧
      queuedAs .urgent { s.solver with urgent := s.solver.urgent ++ [n], normal := s.solver.normal.erase n }
        (queueNode .urgent n s)) ∧
    ((s.node n).queued = some .urgent → queueNode .normal n s = s ∧ queueNode .urgent n s = s)) ∧
  (∀ s n,
    (∀ cls, let t := hardInvalidate cls n s
      t.node n = { s.node n with
        nextValid := false
        dirty := (s.node n).dirty || (s.node n).inFlight
        queued := if (s.node n).queued = some .urgent then some .urgent else
          if cls = .urgent then some .urgent else some .normal } ∧
      (∀ m, m ≠ n → t.node m = s.node m) ∧
      t = { s with dome := { s.dome with nodes := t.dome.nodes }, solver := (queueNode cls n s).solver, edit := t.edit } ∧
      ((s.node n).groupMark = true ∧ (s.node n).nextValid = true → t.edit = { s.edit with
        readyCount := s.edit.readyCount - 1
        groupState := if s.edit.groupState = .ready then .solving else s.edit.groupState }) ∧
      (¬((s.node n).groupMark = true ∧ (s.node n).nextValid = true) → t.edit = s.edit)) ∧
    let t := softRefresh n s
    OnlyNodesAndSolver s t ∧ t.solver = (queueNode .normal n s).solver ∧ (∀ m, m ≠ n → t.node m = s.node m) ∧
      t.node n = { s.node n with queued := if (s.node n).queued = none then some .normal else (s.node n).queued })

/-- A solve begins when none is in flight and the queue is not empty: it takes the oldest URGENT entry, else the oldest
NORMAL entry, and reads the node's group mark, its claims, and for each claim its projector's state, φ, W, H and R. -/
def Obligations.SolveBeginsAtQueueHead : Prop :=
  ∀ s,
    let began := fun (n : Nat) (cls : QueueClass) (urgent normal : List Nat) (t : State) =>
      OnlyNodesAndSolver s t ∧ t.solver.urgent = urgent ∧ t.solver.normal = normal ∧
        (∃ f, t.solver.flight = some f ∧ f.node = n ∧ f.cls = cls ∧ f.member = (s.node n).groupMark ∧
          f.claims = (s.node n).claims.map fun c =>
            let r := s.proj c.projector
            { claim := c
              projector := { state := r.state, phi := r.phi, width := r.width, height := r.height, ramp := r.ramp } }) ∧
        t.node n = { s.node n with queued := none, inFlight := true } ∧ ∀ m, m ≠ n → t.node m = s.node m
    (∀ n urgent, s.solver.flight = none → s.solver.urgent = n :: urgent →
      began n .urgent urgent s.solver.normal (startSolve s)) ∧
    (∀ n normal, s.solver.flight = none → s.solver.urgent = [] → s.solver.normal = n :: normal →
      began n .normal [] normal (startSolve s)) ∧
    (NothingToBegin s → startSolve s = s)

/-- A solve that completes on a dirty node is discarded; on a clean node its weights are stored against the claims
present, next-valid is set, and a member that gains its next weights is counted; the next solve then begins. The weight a
solve gives a claim is its share by effective affinity, and 0 for a claim it did not read; the effective affinity follows
from the claim as its view reads it: position, trim and pin, edge distance, ramp, and the projector's fade. -/
def Obligations.SolveCompletionStoresOrDiscards : Prop :=
  (∀ s f, s.solver.flight = some f → ∃ t, exec .solveCompletion s = .next (startSolve t) ∧
    t = { s with
      dome := { s.dome with nodes := t.dome.nodes }, solver := { s.solver with flight := none }
      edit := t.edit, attention := t.attention } ∧
    (∀ m, m ≠ f.node → t.node m = s.node m) ∧
    ((s.node f.node).dirty = true → t.edit = s.edit ∧ t.attention = s.attention ∧
      t.node f.node = { s.node f.node with dirty := false, inFlight := false }) ∧
    ((s.node f.node).dirty = false →
      t.node f.node = { s.node f.node with
        inFlight := false, nextValid := true
        claims := (s.node f.node).claims.map fun c => { c with nextWeight := f.weightFor c.projector } } ∧
      ((s.node f.node).groupMark = true → (s.node f.node).nextValid = false → t.edit = { s.edit with
        readyCount := s.edit.readyCount + 1
        groupState := if s.edit.readyCount + 1 = s.edit.members then .ready else s.edit.groupState }) ∧
      ((s.node f.node).groupMark = false ∨ (s.node f.node).nextValid = true → t.edit = s.edit) ∧
      ((∃ c ∈ f.claims, c.offRaster f.member = true) → Raised s t [.offRaster f.node] ∧ t.eventRecord 8 = s.eventRecord 8) ∧
      ((∀ c ∈ f.claims, c.offRaster f.member = false) → t.attention = s.attention))) ∧
  (∀ f : Flight, (f.claims.map fun c => c.claim.projector).Nodup →
    ∀ w ∈ shareWeights (f.claims.map fun c => (c.claim.projector, c.effective f.member)), f.weightFor w.1 = w.2) ∧
  (∀ (f : Flight) p, (∀ c ∈ f.claims, c.claim.projector ≠ p) → f.weightFor p = 0) ∧
  ∀ (c : ReadClaim) (member : Bool),
    let k := c.claim
    let excluded := k.withdrawn = true ∨ (member = true ∧ k.pendingRemoval = true) ∨
      (member = false ∧ k.pendingNew = true)
    (excluded → c.effective member = 0 ∧ c.offRaster member = false) ∧
    ∀ q, ¬excluded → (if member ∧ k.pendingPos.isSome then k.pendingPos else k.livePos) = some q →
      let trim := match k.nextTrim with | some n => n | none => k.liveTrim
      let pin := if member then
          match k.pendingPin with | some (.set v) => some v | some .clear => none | none => k.livePin
        else k.livePin
      let px := Int.fdiv (q.u + trim.tu) 16
      let py := Int.fdiv (q.v + trim.tv) 16
      let d := min (min px ((c.projector.width : Int) - 1 - px)) (min py ((c.projector.height : Int) - 1 - py))
      let a := if d < 0 then 0 else
        match pin with | some v => v | none => min 1023 (1023 * d.toNat / c.projector.ramp)
      (c.offRaster member = true ↔ d < 0) ∧
        (c.projector.state ∈ [ProjState.fadingIn, .live, .fadingOut] → c.effective member = a * c.projector.phi) ∧
        (c.projector.state ∉ [ProjState.fadingIn, .live, .fadingOut] → c.effective member = 0)

/-- The weights of a solve: all 0 when no claim has effective affinity; else the quotients of R47 with the shortfall made
up one unit each by the largest remainders, the lower slot first, so that they sum to exactly 4096. -/
def Obligations.SolvedWeightsShareUnity : Prop :=
  ∀ es : List (Slot × Nat), es.length ≤ 4 → (es.map Prod.fst).Nodup →
    let total := (es.map Prod.snd).sum
    let ws := shareWeights es
    ws.map Prod.fst = es.map Prod.fst ∧
    (total = 0 → ∀ w ∈ ws, w.2 = 0) ∧
    (0 < total → (ws.map Prod.snd).sum = 4096 ∧
      ∀ (i : Nat) (e w : Slot × Nat), es[i]? = some e → ws[i]? = some w →
        (w.2 = 4096 * e.2 / total ∨ w.2 = 4096 * e.2 / total + 1) ∧ (e.2 = 0 → w.2 = 0) ∧
        ∀ (j : Nat) (e' w' : Slot × Nat), es[j]? = some e' → ws[j]? = some w' →
          w.2 = 4096 * e.2 / total + 1 → w'.2 = 4096 * e'.2 / total →
            4096 * e'.2 % total < 4096 * e.2 % total ∨
              4096 * e'.2 % total = 4096 * e.2 % total ∧ e.1 < e'.1)

/-! ### Projector records and fades (chapter 4) -/

/-- ENROL PROJECTOR: refused on a slot above 15 or not VACANT; else the record is filled with the clamped fields and the
channel begins its lock sequence (the count of synthesizer starts is the model's own, log 25). -/
def Obligations.EnrolFillsVacantSlot : Prop :=
  ∀ s tag (slot w0 w1 h0 h1 r0 r1 c0 c1 c2 auto : Byte) rest,
    Waits s 0x20 tag [slot, w0, w1, h0, h1, r0, r1, c0, c1, c2, auto] rest →
    (16 ≤ slot.toNat → exec .enrolProjector s = .next (answered s rest tag .badProjector [])) ∧
    ∀ p : Slot, slot.toNat = p.val →
      ((s.proj p).state ≠ .vacant → exec .enrolProjector s = .next (answered s rest tag .state [])) ∧
      ((s.proj p).state = .vacant →
        let w := max 256 (min 4096 (word w0 w1))
        let h := max 256 (min 4096 (word h0 h1))
        let r := max 1 (min 2047 (word r0 r1))
        let clock := max 25000 (min 600000 (triple c0 c1 c2))
        let expected := (65536 * clock + 50000) / 100000
        ∃ t, exec .enrolProjector s = .next (answered t rest tag .ok
            (twoBytes w ++ twoBytes h ++ twoBytes r ++ threeBytes clock ++ [if auto = 0 then 0 else 1])) ∧
          t = { s with projectors := t.projectors, channels := t.channels } ∧
          (∀ q, q ≠ p → t.proj q = s.proj q ∧ t.chan q = s.chan q) ∧
          t.proj p = { s.proj p with
            state := .parked, width := w, height := h, ramp := r, pixelClock := clock
            autoFailover := decide (auto ≠ 0), phi := 0, fade := none, failCause := none, luminance := none
            gainTarget := 4096, gainLive := 4096, claimCount := 0, failover := 0 } ∧
          t.chan p = { s.chan p with
            lock := .starting, attempts := 1, expected := expected, tolerance := expected / 512
            changeFlag := false, starts := (s.chan p).starts + 1 })

/-- FADE PROJECTOR: a slot above 15 or VACANT is refused, and so is a state that the direction does not fit; LIVE asked
IN and PARKED asked OUT change nothing. Else it starts, restarts or reverses a fade with N > 0, φ unchanged, and cuts
with N = 0; the projector's nodes are queued in ascending index, after a cut out hard-invalidated, a change of the
contributing set recomputes the targets, and the solver then begins on the queue's head if it was idle. A refusal
carries the projector's state; that the refusal of a slot above 15, which has no state to carry, has no field is the
model's choice (log 11), and the packing of the reply's flag is its reading (log 10). That a solve begins at the end of
the step, after all of its queue requests, is the model's choice (log 5). -/
def Obligations.FadeProjectorFollowsTables : Prop :=
  (∀ s tag (slot dir n : Byte) rest, Waits s 0x21 tag [slot, dir, n] rest →
    (16 ≤ slot.toNat → exec .fadeProjector s = .next (answered s rest tag .badProjector [])) ∧
    ∀ p : Slot, slot.toNat = p.val →
      ((s.proj p).state = .vacant → exec .fadeProjector s = .next (answered s rest tag .badProjector [0])) ∧
      ((s.proj p).state = .failed ∨ (s.proj p).state = .retiring ∨
          dir.toNat % 2 = 0 ∧ ((s.proj p).state = .parked ∧ (s.chan p).lock ≠ .locked ∨
            (s.proj p).state = .fadingOut ∧ s.retireFade p = true) →
        exec .fadeProjector s = .next (answered s rest tag .state [byte (s.proj p).state.code])) ∧
      (dir.toNat % 2 = 0 ∧ (s.proj p).state = .live ∨ dir.toNat % 2 = 1 ∧ (s.proj p).state = .parked →
        NothingToBegin s → exec .fadeProjector s = .next (answered s rest tag .ok (fadeReply (s.proj p))))) ∧
  (∀ s tag (slot dir n : Byte) rest, Waits s 0x21 tag [slot, dir, n] rest → ∀ p : Slot, slot.toNat = p.val →
    (∀ start, dir.toNat % 2 = 0 → fadeInFrom s p = some start → ∃ t,
      exec .fadeProjector s = .next (answered (startSolve t) rest tag .ok (fadeReply (t.proj p))) ∧ TableStep s t ∧
      NodesRefreshed s t p ∧ (∀ q, q ≠ p → SameButForTarget (s.proj q) (t.proj q)) ∧
      (n.toNat ≠ 0 → SameButForTarget { s.proj p with
        state := .fadingIn
        fade := some { start := start, target := 256, length := n.toNat, elapsed := 0, retireAfter := false } }
        (t.proj p)) ∧
      (n.toNat = 0 → SameButForTarget { s.proj p with state := .live, phi := 256, fade := none } (t.proj p)) ∧
      Raised s t [] ∧
      ((s.proj p).state = .parked → RecomputedOnce s t) ∧ ((s.proj p).state ≠ .parked → TargetsStand s t)) ∧
    ∀ start, dir.toNat % 2 = 1 → fadeOutFrom s p = some start →
      (n.toNat ≠ 0 →
        let kept := decide ((s.proj p).state = .fadingOut) && s.retireFade p
        ∃ t,
        exec .fadeProjector s = .next (answered (startSolve t) rest tag .ok (fadeReply (t.proj p))) ∧ TableStep s t ∧
        NodesRefreshed s t p ∧ (∀ q, q ≠ p → t.proj q = s.proj q) ∧ t.attention = s.attention ∧
        t.proj p = { s.proj p with
          state := .fadingOut
          fade := some { start := start, target := 0, length := n.toNat, elapsed := 0, retireAfter := kept } }) ∧
      (n.toNat = 0 → (s.proj p).state ≠ .fadingOut ∨ s.retireFade p = false → ∃ t,
        exec .fadeProjector s = .next (answered (startSolve t) rest tag .ok (fadeReply (t.proj p))) ∧ TableStep s t ∧
        (∀ q, q ≠ p → SameButForTarget (s.proj q) (t.proj q)) ∧
        SameButForTarget { s.proj p with state := .parked, phi := 0, fade := none } (t.proj p) ∧
        NodesInvalidated s t p ∧ Raised s t [] ∧ RecomputedOnce s t) ∧
      (n.toNat = 0 → (s.proj p).state = .fadingOut → s.retireFade p = true → ∃ t,
        exec .fadeProjector s = .next (answered (startSolve t) rest tag .ok (fadeReply (t.proj p))) ∧
        EnteredRetiring s t p (s.proj p).failover ∧ Raised s t (retirementEvents s p (s.proj p).failover) ∧
        (∀ q, q ≠ p → SameButForTarget (s.proj q) (t.proj q)) ∧
        ClaimStep (fun q => q = p ∧ (s.proj p).claimCount ≤ newClaims s p) s t ∧ YieldFollows s t))

/-- φ of a fade record: R81's formula, its ends, its range, its direction and its steps, with R81's two examples. -/
def Obligations.FadeFactorFollowsFormula : Prop :=
  (∀ f : Fade, 0 < f.length → f.elapsed ≤ f.length → f.start ≤ 256 → f.target ≤ 256 →
    let at' := fun j => { f with elapsed := j }.phi
    (f.phi : Int) = f.start
      + Int.fdiv (2 * ((f.target : Int) - f.start) * f.elapsed + f.length) (2 * (f.length : Int)) ∧
    at' 0 = f.start ∧ at' f.length = f.target ∧ min f.start f.target ≤ f.phi ∧ f.phi ≤ max f.start f.target ∧
    (f.elapsed < f.length →
      ((at' (f.elapsed + 1) : Int) - f.target).natAbs ≤ ((f.phi : Int) - f.target).natAbs ∧
      ((at' (f.elapsed + 1) : Int) - f.phi).natAbs ≤ (256 + f.length - 1) / f.length)) ∧
  [1, 2, 3].map (fun j => (Fade.mk 256 0 3 j false).phi) = [171, 85, 0] ∧
  [1, 2, 3, 4, 5].map (fun j => (Fade.mk 0 256 5 j false).phi) = [51, 102, 154, 205, 256]

/-- The fade steps of a boundary: every fading projector's j rises by one, φ follows and the nodes it claims are queued; at N
the fade completes, into LIVE, PARKED, or retirement, and FADE_DONE is raised, and raised again with the retired flag for a
slot that is emptied at once; no other projector's state moves, and no node changes but in its queue entry and by a
retirement. The completed fades raise their events in some order of the projectors: which order is the model's choice (log
27), and nothing here rests on it. The steps are taken one projector at a time; each queues the projector's nodes in
ascending index, and hard-invalidates them URGENT when it enters RETIRING. That the solver begins on the queue's head, if it
is idle, at the end of each projector's step is the model's choice (log 5). -/
def Obligations.FadeStepAdvancesFades : Prop :=
  (∀ s, 0 < s.owed.fade → s.ProjectorsAgree →
    let completes := fun p => (s.proj p).fade.any fun f => f.elapsed + 1 == f.length
    let retires := fun p => completes p && s.retireFade p
    let done := fun p => Event.fadeDone p false ::
      if s.retireFade p = true then retirementEvents s p (s.proj p).failover else []
    ∃ (t : State) (order : List Slot), exec .fadeStep s = .next t ∧
    ClaimStep (fun p => retires p = true ∧ (s.proj p).claimCount ≤ newClaims s p)
      { s with owed := { s.owed with fade := s.owed.fade - 1 } } t ∧
    order.Perm ((List.finRange 16).filter completes) ∧ Raised s t (order.flatMap done) ∧ YieldFollows s t ∧
    ((∃ p, completes p = true ∧ (s.proj p).state = .fadingOut) → TargetsSettled t) ∧
    ((∀ p, completes p = true → (s.proj p).state = .fadingIn) → TargetsStand s t) ∧
    ((∀ p, retires p = false) → t.edit = s.edit) ∧
    t.dome.freeCount = s.dome.freeCount + ((List.finRange 16).map fun p => if retires p then newClaims s p else 0).sum ∧
    (∀ m, (∀ p, retires p = true → ¬Claims s p m) → SameButForQueue (s.node m) (t.node m)) ∧
    (∀ m < 2049, ∀ p, retires p = true → Claims s p m →
      SameButForSolver { s.node m with claims := (t.node m).claims, nextValid := false } (t.node m)) ∧
    (s.ListsOrdered → ∀ m < 2049,
      (t.node m).claims = ((s.node m).claims.filter fun c => !(retires c.projector && c.pendingNew)).map
        fun c => if retires c.projector then { c with withdrawn := true } else c) ∧
    ∀ p,
      ((s.proj p).fade = none → SameButForTarget (s.proj p) (t.proj p)) ∧
      ∀ f, (s.proj p).fade = some f → ClaimedNodesWait s t p ∧
        let g := { f with elapsed := f.elapsed + 1 }
        (g.elapsed < g.length → SameButForTarget { s.proj p with fade := some g, phi := g.phi } (t.proj p)) ∧
        (g.elapsed = g.length →
          ((s.proj p).state = .fadingIn →
            SameButForTarget { s.proj p with state := .live, fade := none, phi := 256 } (t.proj p)) ∧
          ((s.proj p).state = .fadingOut → f.retireAfter = false →
            SameButForTarget { s.proj p with state := .parked, fade := none, phi := 0 } (t.proj p)) ∧
          ((s.proj p).state = .fadingOut → f.retireAfter = true → RetiredRecord s t p (s.proj p).failover))) ∧
  (∀ s, 0 < s.owed.fade → ∃ order : List Slot, order.Perm (List.finRange 16) ∧
    exec .fadeStep s = .next (order.foldl fadeStepSlot { s with owed := { s.owed with fade := s.owed.fade - 1 } })) ∧
  ∀ s p,
    ((s.proj p).fade = none → fadeStepSlot s p = startSolve s) ∧
    ∀ f, (s.proj p).fade = some f →
      let g := { f with elapsed := f.elapsed + 1 }
      ∃ t, fadeStepSlot s p = startSolve t ∧ (∀ q, q ≠ p → SameButForTarget (s.proj q) (t.proj q)) ∧
        (g.elapsed ≠ g.length → TableStep s t ∧ NodesRefreshed s t p ∧ t.attention = s.attention ∧ TargetsStand s t ∧
          t.proj p = { s.proj p with fade := some g, phi := g.phi }) ∧
        (g.elapsed = g.length → (s.proj p).state = .fadingIn →
          TableStep s t ∧ NodesRefreshed s t p ∧ Raised s t [.fadeDone p false] ∧ TargetsStand s t ∧
          t.proj p = { s.proj p with state := .live, fade := none, phi := g.phi }) ∧
        (g.elapsed = g.length → (s.proj p).state = .fadingOut → f.retireAfter = false →
          TableStep s t ∧ NodesRefreshed s t p ∧ Raised s t [.fadeDone p false] ∧ RecomputedOnce s t ∧
          SameButForTarget { s.proj p with state := .parked, fade := none, phi := g.phi } (t.proj p)) ∧
        (g.elapsed = g.length → (s.proj p).state = .fadingOut → f.retireAfter = true →
          ∃ u, OnlyNodesAndSolver s u ∧ NodesRefreshed s u p ∧ EnteredRetiring u t p (s.proj p).failover ∧
            Raised s t (.fadeDone p false :: retirementEvents s p (s.proj p).failover) ∧
            ClaimStep (fun q => q = p ∧ (s.proj p).claimCount ≤ newClaims s p) s t ∧ YieldFollows s t)

/-- RETIRE PROJECTOR, state by state: entry into RETIRING, with FADE_DONE and the retired flag for a slot that is
emptied at once, a retire-fade, retire-after set on a running fade out, no change in RETIRING, BAD_PROJECTOR for a slot
above 15 or VACANT (the packing of the reply's flag is the model's reading, log 10). The solver then begins on the
queue's head if it was idle. That a solve begins at the end of the step, after all of its queue requests, is the model's
choice (log 5). -/
def Obligations.RetireProjectorByState : Prop :=
  ∀ s tag (slot n : Byte) rest, Waits s 0x22 tag [slot, n] rest →
    (16 ≤ slot.toNat → exec .retireProjector s = .next (answered s rest tag .badProjector [])) ∧
    ∀ p : Slot, slot.toNat = p.val →
      ((s.proj p).state = .vacant → exec .retireProjector s = .next (answered s rest tag .badProjector [])) ∧
      ((s.proj p).state = .retiring → NothingToBegin s →
        exec .retireProjector s = .next (answered s rest tag .ok (fadeReply (s.proj p)))) ∧
      ((s.proj p).state = .fadingOut → ∃ t,
        exec .retireProjector s = .next (answered (startSolve t) rest tag .ok (fadeReply (t.proj p))) ∧
        t = { s with projectors := t.projectors } ∧ (∀ q, q ≠ p → t.proj q = s.proj q) ∧
        t.proj p = { s.proj p with fade := (s.proj p).fade.map fun f => { f with retireAfter := true } }) ∧
      ((s.proj p).state = .live ∨ (s.proj p).state = .fadingIn → n.toNat ≠ 0 → ∃ t,
        exec .retireProjector s = .next (answered (startSolve t) rest tag .ok (fadeReply (t.proj p))) ∧ TableStep s t ∧
        NodesRefreshed s t p ∧ (∀ q, q ≠ p → t.proj q = s.proj q) ∧ t.attention = s.attention ∧
        t.proj p = { s.proj p with
          state := .fadingOut
          fade := some { start := if (s.proj p).state = .live then 256 else (s.proj p).phi, target := 0
                         length := n.toNat, elapsed := 0, retireAfter := true } }) ∧
      ((s.proj p).state = .parked ∨ (s.proj p).state = .failed ∨
          ((s.proj p).state = .live ∨ (s.proj p).state = .fadingIn) ∧ n.toNat = 0 → ∃ t,
        exec .retireProjector s = .next (answered (startSolve t) rest tag .ok (fadeReply (t.proj p))) ∧
        EnteredRetiring s t p (s.proj p).failover ∧ Raised s t (retirementEvents s p (s.proj p).failover) ∧
        (∀ q, q ≠ p → SameButForTarget (s.proj q) (t.proj q)) ∧
        ClaimStep (fun q => q = p ∧ (s.proj p).claimCount ≤ newClaims s p) s t ∧ YieldFollows s t)

/-- SET RAMP replaces the clamped ramp width and queues the projector's nodes in ascending index, and the solver then
begins on the queue's head if it was idle; READ PROJECTOR reports the slot, its record and its channel, field by field,
and clears the channel's change flag; both refuse a slot above 15, and SET RAMP a VACANT one (the packing of the reply's
flags is the model's reading, log 10). That a solve begins at the end of the step, after all of its queue requests, is
the model's choice (log 5). -/
def Obligations.RampAndProjectorRead : Prop :=
  (∀ s tag (slot r0 r1 : Byte) rest, Waits s 0x23 tag [slot, r0, r1] rest →
    (16 ≤ slot.toNat → exec .setRamp s = .next (answered s rest tag .badProjector [])) ∧
    ∀ p : Slot, slot.toNat = p.val →
      ((s.proj p).state = .vacant → exec .setRamp s = .next (answered s rest tag .badProjector [])) ∧
      ((s.proj p).state ≠ .vacant →
        let ramp := max 1 (min 2047 (word r0 r1))
        ∃ t, exec .setRamp s = .next (answered (startSolve t) rest tag .ok (twoBytes ramp)) ∧ TableStep s t ∧
          NodesRefreshed s t p ∧ t.attention = s.attention ∧
          (∀ q, q ≠ p → t.proj q = s.proj q) ∧ t.proj p = { s.proj p with ramp := ramp })) ∧
  ∀ s tag (slot : Byte) rest, Waits s 0x24 tag [slot] rest →
    (16 ≤ slot.toNat → exec .readProjector s = .next (answered s rest tag .badProjector [])) ∧
    ∀ p : Slot, slot.toNat = p.val →
      exec .readProjector s = .next (answered (s.modChan p fun c => { c with changeFlag := false }) rest tag .ok
        (projectorBytes p (s.proj p) (s.chan p)))

/-! ### Luminance matching (chapter 5) -/

/-- A recomputation of the gain targets, case by case of R98, with GAIN_LIMIT raised once for each clamped slot, in ascending
order; it changes nothing but targets, limited flags and that class. -/
def Obligations.RecomputationSetsGainTargets : Prop :=
  ∀ s : State, let t := recomputeGains s
    t = { s with projectors := t.projectors, attention := t.attention } ∧
    (∀ p, SameButForTarget (s.proj p) (t.proj p)) ∧
    ((∀ p, (s.proj p).state.contributing = true → (s.proj p).luminance = none) →
      ∀ p, (t.proj p).gainTarget = 4096 ∧ (t.proj p).limited = false) ∧
    (∀ l, IsReference s l → ∀ p,
      ((s.proj p).luminance = none → (t.proj p).gainTarget = 4096 ∧ (t.proj p).limited = false) ∧
      ∀ k, (s.proj p).luminance = some k →
        (4096 < 4096 * l / k → (t.proj p).gainTarget = 4096 ∧ (t.proj p).limited = false) ∧
        (s.gain.floor ≤ 4096 * l / k → 4096 * l / k ≤ 4096 →
          (t.proj p).gainTarget = 4096 * l / k ∧ (t.proj p).limited = false) ∧
        (4096 * l / k < s.gain.floor → 4096 * l / k ≤ 4096 →
          (t.proj p).gainTarget = s.gain.floor ∧ (t.proj p).limited = true)) ∧
    t.eventRecord 8 = ((List.finRange 16).filter fun p => (t.proj p).limited).foldl
      (fun r p => afterRaising r (.gainLimit p)) (s.eventRecord 8) ∧
    ∀ k, k ≠ 8 → t.eventRecord k = s.eventRecord k

/-- SET GAIN FLOOR replaces the clamped floor, raises live gains below it and recomputes the targets, which all come to lie
in the new range; its reply counts the limited slots. SET GAIN SLEW replaces the clamped slew step; no gain changes. The
gain slew of a boundary moves every live gain toward its target by at most the slew step, and changes nothing else. -/
def Obligations.GainSettingsAndSlew : Prop :=
  ((∀ s tag (v0 v1 : Byte) rest, Waits s 0x28 tag [v0, v1] rest →
    let floor := max 1024 (min 4096 (word v0 v1))
    let raised := { s with
      gain := { s.gain with floor := floor }
      projectors := s.projectors.map fun r => { r with gainLive := max floor r.gainLive } }
    let t := recomputeGains raised
    exec .setGainFloor s = .next (answered t rest tag .ok
        (twoBytes floor ++ [byte (t.projectors.toList.countP fun r => r.limited)])) ∧
      ∀ p, SameButForTarget { s.proj p with gainLive := max floor (s.proj p).gainLive } (t.proj p) ∧
        (floor ≤ (t.proj p).gainTarget ∧ (t.proj p).gainTarget ≤ 4096)) ∧
  (∀ s tag (v0 v1 : Byte) rest, Waits s 0x29 tag [v0, v1] rest →
    let step := max 1 (min 4096 (word v0 v1))
    exec .setGainSlew s = .next (answered { s with gain := { s.gain with slew := step } } rest tag .ok (twoBytes step)))) ∧
  (∀ s, 0 < s.owed.slew → ∃ t, exec .gainSlew s = .next t ∧
    t = { s with projectors := t.projectors, owed := { s.owed with slew := s.owed.slew - 1 } } ∧
    ∀ p,
      let live := (s.proj p).gainLive
      let target := (s.proj p).gainTarget
      (live < target → t.proj p = { s.proj p with gainLive := min target (live + s.gain.slew) }) ∧
      (target < live → t.proj p = { s.proj p with gainLive := max target (live - s.gain.slew) }) ∧
      (live = target → t.proj p = s.proj p))

/-! ### The Raster Engine and the Content Input (chapter 6) -/

/-- The raster frame start takes the view and the content frame, draws the channels that are LOCKED with a slot not
VACANT, begins their streams at pixel (0, 0), and hands over the content status. -/
def Obligations.RasterFrameStartTakesView : Prop :=
  ∀ s, s.owed.raster = true → s.owed.swap = 0 → s.owed.fade = 0 → s.owed.slew = 0 → s.NodesCanonical →
    ∃ t f, exec .rasterFrameStart s = .next t ∧ t.raster.frame = some f ∧
      t = { s with
        raster := t.raster, timer := { s.timer with content := s.content.status }
        owed := { s.owed with raster := false } } ∧
      f.content = s.content.latest ∧
      (∀ p, f.slots.get p =
        { vacant := decide ((s.proj p).state = .vacant), width := (s.proj p).width, height := (s.proj p).height
          gainLive := (s.proj p).gainLive }) ∧
      (∀ n, Sparse.get [] f.nodes n = (s.node n).claims.map fun c =>
        { projector := c.projector, pendingNew := c.pendingNew
          place := c.livePos.map fun q => { x := (q.u : Int) + c.liveTrim.tu, y := (q.v : Int) + c.liveTrim.tv }
          weight := c.liveWeight }) ∧
      ∀ p, t.raster.links.get p = none ∧ t.raster.streams.get p =
        if (s.chan p).lock = .locked ∧ (s.proj p).state ≠ .vacant then some 0 else none

/-- A drawn channel sends its next pixel in row order, until W × H are sent: black where no cover triangle holds the
centre, else the drives of the first such triangle in triangle order. A triangle holds a centre by the coordinates of R111
on the live places of the projector's claims at its corners, which give the pixel its weight, its dome point and the sample
of the content frame at that point. -/
def Obligations.PixelIsSentInRowOrder : Prop :=
  (∀ s p f k, s.raster.frame = some f → s.raster.streams.get p = some k →
    let w := (f.slots.get p).width
    let centre : Place := { x := 16 * ((k % w : Nat) : Int) + 8, y := 16 * ((k / w : Nat) : Int) + 8 }
    let sent := fun px : Pixel => ({ s with raster := { s.raster with
      streams := s.raster.streams.set p.val (some (k + 1)) p.isLt
      links := s.raster.links.set p.val (some px) p.isLt } } : State)
    (k < w * (f.slots.get p).height →
      ((∀ i < 4032, f.hit p centre i = none) →
        exec (.sendPixel p) s = .next (sent { x := k % w, y := k / w, red := 0, green := 0, blue := 0 })) ∧
      ∀ i < 4032, ∀ h weight, f.hit p centre i = some (h, weight) → (∀ j < i, f.hit p centre j = none) →
        let c := sampleAt f.content h.domePoint.1 h.domePoint.2
        let out := fun level => (level * weight * (f.slots.get p).gainLive + 8388608) / 16777216
        exec (.sendPixel p) s = .next (sent
          { x := k % w, y := k / w, red := out c.red, green := out c.green, blue := out c.blue })) ∧
    (w * (f.slots.get p).height ≤ k → exec (.sendPixel p) s = .next s)) ∧
  (∀ r sec, sec < 64 →
    (r ≤ 30 → cornersOf (2 * (r * 64 + sec)) = (r * 64 + sec, r * 64 + (sec + 1) % 64, (r + 1) * 64 + (sec + 1) % 64) ∧
      cornersOf (2 * (r * 64 + sec) + 1) = (r * 64 + sec, (r + 1) * 64 + (sec + 1) % 64, (r + 1) * 64 + sec)) ∧
    cornersOf (3968 + sec) = (31 * 64 + sec, 31 * 64 + (sec + 1) % 64, 2048)) ∧
  (∀ (f : RasterFrame) p (centre : Place) i h weight, f.hit p centre i = some (h, weight) ↔
    ∃ (c0 c1 c2 : ClaimView) (p0 p1 p2 : Place),
      (let viewed := fun n (c : ClaimView) (q : Place) =>
        (Sparse.get [] f.nodes n).find? (fun e => e.projector == p) = some c ∧ c.pendingNew = false ∧ c.place = some q
      viewed (cornersOf i).1 c0 p0 ∧ viewed (cornersOf i).2.1 c1 p1 ∧ viewed (cornersOf i).2.2 c2 p2) ∧
      let cross := (p1.x - p0.x) * (p2.y - p0.y) - (p2.x - p0.x) * (p1.y - p0.y)
      let turn : Int := if cross < 0 then -1 else 1
      let d := turn * cross
      let n1 := turn * ((centre.x - p0.x) * (p2.y - p0.y) - (p2.x - p0.x) * (centre.y - p0.y))
      let n2 := turn * ((p1.x - p0.x) * (centre.y - p0.y) - (centre.x - p0.x) * (p1.y - p0.y))
      let b1 := Int.fdiv (512 * n1 + d - 1) (2 * d)
      let b2 := Int.fdiv (512 * n2 + d - 1) (2 * d)
      let b0 := 256 - b1 - b2
      cross ≠ 0 ∧ 0 ≤ b0 ∧ 0 ≤ b1 ∧ 0 ≤ b2 ∧
        h = { triangle := i, b0 := b0.toNat, b1 := b1.toNat, b2 := b2.toNat } ∧
        weight = (b0.toNat * c0.weight + b1.toNat * c1.weight + b2.toNat * c2.weight + 128) / 256) ∧
  (∀ h : Hit,
    (h.triangle < 3968 →
      let k := cornersOf h.triangle
      let seam := k.1 % 64 = 63 ∨ k.2.1 % 64 = 63 ∨ k.2.2 % 64 = 63
      let az := fun n => if seam ∧ n % 64 = 0 then 65536 else n % 64 * 1024
      let el := fun n => n / 64 * 512
      h.domePoint = ((h.b0 * az k.1 + h.b1 * az k.2.1 + h.b2 * az k.2.2 + 128) / 256 % 65536,
        (h.b0 * el k.1 + h.b1 * el k.2.1 + h.b2 * el k.2.2 + 128) / 256)) ∧
    ∀ sec < 64, h.triangle = 3968 + sec → h.domePoint =
      (if h.b0 + h.b1 = 0 then 1024 * sec else (1024 * sec + h.b1 * 1024 / (h.b0 + h.b1)) % 65536,
        (h.b0 * 15872 + h.b1 * 15872 + h.b2 * 16384 + 128) / 256)) ∧
  ∀ azimuth elevation,
    sampleAt none azimuth elevation = { red := 0, green := 0, blue := 0 } ∧
    ∀ content : DomeFrame, sampleAt (some content) azimuth elevation =
      Sparse.get { red := 0, green := 0, blue := 0 } content.cells
        ((1023 - min 1023 (elevation / 16)) * 4096 + azimuth / 16)

/-- The drive of R119 is no greater than the content level, exactly that level at full weight and gain, and 0 with no
weight, no content, or a product below half the divisor. -/
def Obligations.DriveNeverExceedsContent : Prop :=
  ∀ level weight gain, level ≤ 1023 → weight ≤ 4096 → gain ≤ 4096 →
    drive level weight gain = (level * weight * gain + 8388608) / 16777216 ∧
    drive level weight gain ≤ level ∧ drive level 4096 4096 = level ∧ drive level 0 gain = 0 ∧
    drive 0 weight gain = 0 ∧ (level * weight * gain < 8388608 → drive level weight gain = 0)

/-- The four events of the Content Input: a complete frame becomes the latest, a frame with a wrong count of samples is
discarded, a loss of the signal discards the frame being received and the latest, and its return changes no frame and no
status (that the event which ends a frame carries its samples is the model's reading, log 14). -/
def Obligations.ContentEventsFollowTable : Prop :=
  (∀ s frame, frame.wf = true → s.content.signal = true → exec (.domeFrameComplete frame) s = .next
    { s with content := { s.content with latest := some frame, status := .present, receiving := [] } }) ∧
  (∀ s k, k ≠ 4096 * 1024 → exec (.domeFrameBadCount k) s = .next
    { s with content := { s.content with receiving := [] } }) ∧
  (∀ s, exec .contentSignalLost s = .next
    { s with content := { status := .absent, receiving := [], latest := none, signal := false } }) ∧
  ∀ s, exec .contentSignalReturn s = .next { s with content := { s.content with signal := true } }

/-! ### Output Channels (chapter 7) -/

/-- A lock sequence before its third failure: the start completion opens the attempt, a rise begins validation, a failed
attempt below 3 starts the synthesizer again and enters AWAIT_LOCK with the count raised, and a start completion, a rise or
a fall in any other state is ignored, as is one that belongs to an earlier start of the synthesizer (each start's number is
the model's own, log 25). An attempt whose count differs from E by no more than the tolerance locks the channel, records
the count, and lets a FAILED projector with its line READY recover; any other projector's record stands. -/
def Obligations.LockAttemptsFollowTable : Prop :=
  (∀ s p,
    let next := fun c : Channel => ({ s with channels := s.channels.set p.val c p.isLt } : State)
    let last := (s.chan p).starts
    let retried := { s.chan p with
      lock := .awaitLock, attempts := (s.chan p).attempts + 1, starts := (s.chan p).starts + 1 }
    ((s.chan p).lock = .starting →
      exec (.synthStartCompletion ⟨p, last⟩) s = .next (next { s.chan p with lock := .awaitLock })) ∧
    (∀ k, (s.chan p).lock ≠ .starting ∨ k ≠ last → exec (.synthStartCompletion ⟨p, k⟩) s = .next s) ∧
    ((s.chan p).lock = .awaitLock →
      exec (.lockIndicationRise ⟨p, last⟩) s = .next (next { s.chan p with lock := .validating })) ∧
    (∀ k, (s.chan p).lock ≠ .awaitLock ∨ k ≠ last → exec (.lockIndicationRise ⟨p, k⟩) s = .next s) ∧
    ((s.chan p).lock = .awaitLock → (s.chan p).attempts < 3 → NothingToBegin s →
      exec (.lockTimeout p) s = .next (next retried)) ∧
    ((s.chan p).lock = .validating → (s.chan p).attempts < 3 → NothingToBegin s →
      exec (.lockIndicationFall ⟨p, last⟩) s = .next (next retried)) ∧
    (∀ k, (s.chan p).lock ≠ .validating ∧ (s.chan p).lock ≠ .locked ∨ k ≠ last →
      exec (.lockIndicationFall ⟨p, k⟩) s = .next s) ∧
    ∀ n, (s.chan p).lock = .validating → (s.chan p).attempts < 3 → NothingToBegin s →
      (min n 1048575 + (s.chan p).tolerance < (s.chan p).expected ∨
        (s.chan p).expected + (s.chan p).tolerance < min n 1048575) →
      exec (.windowCompletion p n) s = .next (next { retried with lastCount := some (min n 1048575) })) ∧
  (∀ s p n, (s.chan p).lock = .validating →
    (s.chan p).expected ≤ min n 1048575 + (s.chan p).tolerance →
    min n 1048575 ≤ (s.chan p).expected + (s.chan p).tolerance →
    ∃ t, exec (.windowCompletion p n) s = .next t ∧
      t = { s with
        channels := s.channels.set p.val { s.chan p with lock := .locked, lastCount := some (min n 1048575) } p.isLt
        projectors := t.projectors, attention := t.attention } ∧
      (∀ q, q ≠ p → t.proj q = s.proj q) ∧
      ((s.proj p).state = .failed → (s.chan p).taken = .ready → Recovered s t p) ∧
      ((s.proj p).state ≠ .failed ∨ (s.chan p).taken ≠ .ready → t.proj p = s.proj p ∧ t.attention = s.attention))

/-- The failure of a third attempt ends the sequence in LOCK_FAILED, reports a lock failure and raises LOCK_FAIL; a lock
loss (a fall or RESTART OUTPUT in LOCKED) reports, stops the stream and begins a new sequence. RESTART OUTPUT begins one
in LOCK_FAILED and is refused in between. A failing window's count is recorded, and all else of the channel is kept, as
are the other channels and their streams; the nodes that fail over are queued URGENT in ascending index, and the solver
then begins on the queue's head if it was idle. (The count of synthesizer starts is the model's own, log 25; that a
channel whose slot the report emptied stays OFF is log 12.) That a solve begins at the end of the step, after all of its
queue requests, is the model's choice (log 5). -/
def Obligations.LockFailuresReportToTable : Prop :=
  (∀ s p c last, 3 ≤ (s.chan p).attempts →
    c = .lockTimeout p ∧ (s.chan p).lock = .awaitLock ∧ last = (s.chan p).lastCount ∨
      c = .lockIndicationFall ⟨p, (s.chan p).starts⟩ ∧ (s.chan p).lock = .validating ∧ last = (s.chan p).lastCount ∨
      (∃ n, c = .windowCompletion p n ∧ (s.chan p).lock = .validating ∧ (s.chan p).passes (min n 1048575) = false ∧
        last = some (min n 1048575)) →
    let ended := { s.chan p with lock := .lockFailed, attempts := 3, lastCount := last }
    let u := { s with channels := s.channels.set p.val ended p.isLt }
    ∃ t, exec c s = .next (startSolve t) ∧ LockFaultTaken u t p .lockFailed ∧
      Raised s t (lockFaultEvents s p .lockFailed ++ [.lockFail p]) ∧
      (∀ q, q ≠ p → SameButForTarget (s.proj q) (t.proj q)) ∧ ClaimStep (fun q => q = p ∧ RetiresEmpty s p) u t) ∧
  (∀ s p, (s.chan p).lock = .locked → (s.proj p).state ≠ .vacant →
    let expected := (65536 * (s.proj p).pixelClock + 50000) / 100000
    ∃ t, exec (.lockIndicationFall ⟨p, (s.chan p).starts⟩) s = .next (startSolve t) ∧ LockFaultTaken s t p .lockLost ∧
      Raised s t (lockFaultEvents s p .lockLost) ∧
      t.raster.streams.get p = none ∧ t.raster.links.get p = none ∧
      (¬RetiresEmpty s p → t.chan p = { s.chan p with
        lock := .starting, attempts := 1, expected := expected, tolerance := expected / 512
        starts := (s.chan p).starts + 1 }) ∧
      (∀ q, q ≠ p → SameButForTarget (s.proj q) (t.proj q)) ∧ ClaimStep (fun q => q = p) s t ∧
      ∀ rest tag (slot : Byte), slot.toNat = p.val → Waits s 0x30 tag [slot] rest →
        exec .restartOutput s = .next (answered (startSolve t) rest tag .ok
          [byte (t.chan p).lock.code, byte (t.chan p).attempts, byte (t.proj p).state.code])) ∧
  ∀ s tag (slot : Byte) rest, Waits s 0x30 tag [slot] rest →
    (16 ≤ slot.toNat → exec .restartOutput s = .next (answered s rest tag .badProjector [])) ∧
    ∀ p : Slot, slot.toNat = p.val →
      ((s.proj p).state = .vacant → exec .restartOutput s = .next (answered s rest tag .badProjector [])) ∧
      ((s.proj p).state ≠ .vacant → (s.chan p).lock ∈ [LockState.starting, .awaitLock, .validating] →
        exec .restartOutput s = .next (answered s rest tag .state
          [byte (s.chan p).lock.code, byte (s.chan p).attempts])) ∧
      ((s.proj p).state ≠ .vacant → (s.chan p).lock = .lockFailed → NothingToBegin s →
        let expected := (65536 * (s.proj p).pixelClock + 50000) / 100000
        let begun := { s.chan p with
          lock := .starting, attempts := 1, expected := expected, tolerance := expected / 512
          starts := (s.chan p).starts + 1 }
        exec .restartOutput s = .next (answered { s with channels := s.channels.set p.val begun p.isLt }
          rest tag .ok [1, 1, byte (s.proj p).state.code]))

/-- The ready line: a raw change settles toward the new level or returns to QUIET; the expiry takes the level; in an
enrolled slot a taken change sets the change flag and reports a fault start or a fault end, while the first level after
reset and every level of a VACANT slot are taken silently. That an expiry in QUIET, where no interval runs, leaves the
state as it was is the model's choice (log 2). That a solve begins at the end of the step, after all of its queue
requests, is the model's choice (log 5). -/
def Obligations.ReadyLineIsDebounced : Prop :=
  (∀ s p level, (s.chan p).raw ≠ level →
    let quiet := match level with | .ready => TakenLevel.ready | .notReady => .notReady
    exec (.readyRawChange p level) s = .next { s with channels := s.channels.set p.val { s.chan p with
      raw := level
      debounce := if (s.chan p).taken = quiet then .quiet else .settling level } p.isLt }) ∧
  (∀ s p level, (s.chan p).debounce = .settling level →
    let new := match level with | .ready => TakenLevel.ready | .notReady => .notReady
    let silent := { s.chan p with taken := new, debounce := .quiet }
    ((s.proj p).state = .vacant ∨ (s.chan p).taken = .unsettled ∨ (s.chan p).taken = new → NothingToBegin s →
      exec (.debounceExpiry p) s = .next { s with channels := s.channels.set p.val silent p.isLt }) ∧
    ((s.proj p).state ≠ .vacant → (s.chan p).taken ≠ .unsettled → (s.chan p).taken ≠ new →
      let u := { s with channels := s.channels.set p.val { silent with changeFlag := true } p.isLt }
      let fails := level = .notReady ∧ (s.proj p).autoFailover = true ∧ (s.proj p).state ≠ .retiring
      ∃ t, exec (.debounceExpiry p) s = .next (startSolve t) ∧
        (∀ q, q ≠ p → SameButForTarget (s.proj q) (t.proj q)) ∧
        ClaimStep (fun q => q = p ∧ fails ∧ RetiresEmpty s p) u t ∧
        (level = .ready → (s.proj p).state = .failed → (s.chan p).lock = .locked → Recovered u t p) ∧
        (level = .ready → (s.proj p).state ≠ .failed ∨ (s.chan p).lock ≠ .locked → t = u) ∧
        (fails → LockFaultTaken u t p .line ∧ Raised s t (lockFaultEvents s p .line)) ∧
        (level = .notReady → (s.proj p).autoFailover = false ∨ (s.proj p).state = .retiring →
          TargetsStand s t ∧ NodesStand s t ∧ Raised s t [.projFault p .line] ∧
          ((s.proj p).state ≠ .failed → t.proj p = s.proj p) ∧
          ((s.proj p).state = .failed → t.proj p = { s.proj p with failCause := some .line })))) ∧
  ∀ s p, (s.chan p).debounce = .quiet → exec (.debounceExpiry p) s = .next s

/-! ### Frame timing (chapter 8) -/

/-- An expiry of the period timer is a boundary, delivered to every consumer, and restarts the timer one programmed period
later; SET FRAME PERIOD replaces the clamped period and leaves a pending expiry. An expiry of the loss watchdog loses
genlock: FREE_RUN with a boundary, the period timer one programmed period later, and GENLOCK "lost". That an expiry of a
stopped timer or watchdog, which has none pending, leaves the state as it was is the model's choice (log 2). -/
def Obligations.TimerExpiriesAreBoundaries : Prop :=
  ((∀ s at', s.timer.expiry = some at' → exec .periodTimerExpiry s = .next { s with
    timer := { s.timer with expiry := some (at' + s.timer.period), counter := s.timer.counter + 1 }
    owed := { swap := s.owed.swap + 1, fade := s.owed.fade + 1, slew := s.owed.slew + 1, quota := s.owed.quota + 1
              raster := true } }) ∧
  (∀ s, s.timer.expiry = none → exec .periodTimerExpiry s = .next s) ∧
  ∀ s tag (v0 v1 : Byte) rest, Waits s 0x38 tag [v0, v1] rest →
    let period := max 8000 (min 50000 (word v0 v1))
    exec .setFramePeriod s = .next
      (answered { s with timer := { s.timer with period := period } } rest tag .ok (twoBytes period))) ∧
  ((∀ s at', s.timer.watchdog = some at' → exec .lossWatchdogExpiry s = .next (State.raise { s with
    timer := { s.timer with
      state := .freeRun, measured := none, lastPulse := none, watchdog := none, run := []
      expiry := some (at' + s.timer.period), counter := s.timer.counter + 1 }
    owed := { swap := s.owed.swap + 1, fade := s.owed.fade + 1, slew := s.owed.slew + 1, quota := s.owed.quota + 1
              raster := true } } (.genlock false))) ∧
  ∀ s, s.timer.watchdog = none → exec .lossWatchdogExpiry s = .next s)

/-- A genlock pulse in SEEKING or FREE_RUN fills the pulse run, and the third steady pulse acquires genlock with a
boundary; in GENLOCKED a pulse 8,000 µs or more after the last is a boundary, and an earlier one is ignored. -/
def Obligations.GenlockPulsesAreFollowed : Prop :=
  ∀ s now,
    let boundary := fun t : FrameTimer => ({ s with
      timer := { t with counter := s.timer.counter + 1 }
      owed := { swap := s.owed.swap + 1, fade := s.owed.fade + 1, slew := s.owed.slew + 1, quota := s.owed.quota + 1
                raster := true } } : State)
    let ran := fun run => ({ s with timer := { s.timer with run := run } } : State)
    (s.timer.state ≠ .genlocked →
      (s.timer.run = [] → exec (.genlockPulse now) s = .next (ran [now])) ∧
      (∀ a, s.timer.run = [a] → a ≤ now →
        (8000 ≤ now - a → now - a ≤ 50000 → exec (.genlockPulse now) s = .next (ran [a, now])) ∧
        (now - a < 8000 ∨ 50000 < now - a → exec (.genlockPulse now) s = .next (ran [now]))) ∧
      ∀ a b, s.timer.run = [a, b] → a ≤ b → b ≤ now →
        (now - b < 8000 ∨ 50000 < now - b → exec (.genlockPulse now) s = .next (ran [now])) ∧
        (8000 ≤ now - b → now - b ≤ 50000 →
          (b - a < ((now - b : Int) - (b - a)).natAbs * 100 → exec (.genlockPulse now) s = .next (ran [b, now])) ∧
          (((now - b : Int) - (b - a)).natAbs * 100 ≤ b - a → exec (.genlockPulse now) s = .next
            ((boundary { s.timer with
              state := .genlocked, expiry := none, measured := some (now - b), lastPulse := some now, run := []
              watchdog := some (now + (now - b) + (now - b) / 2) }).raise (.genlock true))))) ∧
    ∀ last, s.timer.state = .genlocked → s.timer.lastPulse = some last → last ≤ now →
      (now - last < 8000 → exec (.genlockPulse now) s = .next s) ∧
      (8000 ≤ now - last →
        let measured := min 50000 (now - last)
        exec (.genlockPulse now) s = .next (boundary { s.timer with
          measured := some measured, lastPulse := some now, watchdog := some (now + measured + measured / 2) }))

/-! ### The Alignment Port (chapter 9) -/

/-- The line: a byte completed in step joins the FIFO or is lost to a full one, halts the port in HALT mode when it is in
error, and is checked and discarded in HALTED; idle synchronises or ends LINE_DOWN, and is ignored in DISABLED and in
HALTED; a break enters LINE_DOWN, and is ignored in DISABLED and in LINE_DOWN. That a byte
completion which cannot occur (in DISABLED, in LINE_DOWN, and in LISTENING out of step) leaves the state as it was is the
model's choice (log 2), and that every return from LINE_DOWN to LISTENING is in step is its reading (log 16). -/
def Obligations.LineEventsDriveReceiver : Prop :=
  ∀ s (data : Byte) parity stop,
    let ones := ((List.range 8).countP fun i => data.getLsbD i) + (if parity then 1 else 0)
    let e : FifoEntry :=
      { value := data, parityError := decide (ones % 2 = 1), framingError := !stop, gap := false }
    let done := exec (.byteCompletion data parity stop) s
    (s.align.receiver = .listening → s.align.synced = true →
      (s.align.mode = .halt → e.parityError = true ∨ e.framingError = true → done = .next (discarded s (carried e))) ∧
      (s.align.mode = .discardReport ∨ e.parityError = false ∧ e.framingError = false →
        (s.align.fifo.length < 4 → done = .next { s with align := { s.align with
          fifo := s.align.fifo ++ [{ e with gap := s.align.gapPending }], gapPending := false } }) ∧
        (4 ≤ s.align.fifo.length →
          let errors := { s.align.errors with overrun := true }
          (s.align.mode = .discardReport → done = .next (State.raise { s with align := { s.align with
            gapPending := true, errors := errors } } (.alignError errors))) ∧
          (s.align.mode = .halt → done = .next (State.raise { s with align := { s.align with
            gapPending := true, errors := errors, fifo := [], assembler := .seekLead, receiver := .halted } }
            (.alignError errors)))))) ∧
    (s.align.receiver = .halted → done = .next { s with align := { s.align with
      errors := withFlags s.align.errors (carried e) } }) ∧
    (s.align.receiver = .disabled ∨ s.align.receiver = .lineDown ∨
      s.align.receiver = .listening ∧ s.align.synced = false → done = .next s) ∧
    (s.align.receiver = .listening → exec .lineIdle s = .next { s with align := { s.align with synced := true } }) ∧
    (s.align.receiver = .lineDown → s.align.resume = some .listening → exec .lineIdle s = .next
      (State.raise { s with align := { s.align with receiver := .listening, resume := none, synced := true } }
        (.alignLine true))) ∧
    (s.align.receiver = .lineDown → s.align.resume = some .halted → exec .lineIdle s = .next
      (State.raise { s with align := { s.align with receiver := .halted, resume := none } } (.alignLine true))) ∧
    (s.align.receiver = .listening ∨ s.align.receiver = .halted → exec .lineBreak s = .next
      (State.raise { s with align := { s.align with
        receiver := .lineDown, fifo := [], assembler := .seekLead
        resume := some (if s.align.receiver = .halted then .halted else .listening) } } (.alignLine false))) ∧
    (s.align.receiver = .disabled → exec .lineIdle s = .next s) ∧
    (s.align.receiver = .halted → exec .lineIdle s = .next s) ∧
    (s.align.receiver = .disabled → exec .lineBreak s = .next s) ∧
    (s.align.receiver = .lineDown → exec .lineBreak s = .next s)

/-- The assembler takes the head of the FIFO in LISTENING: a lead, a stray, a type, a bad or doubtful type, a payload byte,
and at the full length a clean report into a queue with room, or a discard. A payload's bytes are the report's fields in
their order: projector, ring, sector, du and dv of a DRIFT, projector and luminance of a LUMA. -/
def Obligations.AssemblerTakesFifoHead : Prop :=
  (∀ s e fifo, s.align.receiver = .listening → s.align.fifo = e :: fifo →
    let doubtful := (e.parityError || e.framingError || e.gap)
    let set := fun a => ({ s with align := { s.align with fifo := fifo, assembler := a } } : State)
    let done := exec .assemblerTake s
    let complete := fun (type : ReportType) (bytes : List Byte) (faulty : Bool) (flags : ErrorSet) =>
      (faulty = true → done = .next (discarded (set s.align.assembler) flags)) ∧
      (faulty = false → s.align.queue.length < 16 → done = .next { s with align := { s.align with
        fifo := fifo, assembler := .seekLead, queue := s.align.queue ++ [reportOf type bytes] } }) ∧
      (faulty = false → 16 ≤ s.align.queue.length → done = .next (discarded (set s.align.assembler)
        { ErrorSet.empty with queueFull := true }))
    (s.align.assembler = .seekLead →
      (e.value = 0xA5 → doubtful = false → done = .next (set .readType)) ∧
      (e.value ≠ 0xA5 ∨ doubtful = true →
        done = .next (discarded (set .seekLead) { carried e with stray := true }))) ∧
    (s.align.assembler = .readType →
      (doubtful = true → done = .next (discarded (set .readType) (carried e))) ∧
      (doubtful = false → (∀ k ∈ reportTypes, e.value ≠ k.1) →
        done = .next (discarded (set .readType) { ErrorSet.empty with badType := true })) ∧
      ∀ k ∈ reportTypes, doubtful = false → e.value = k.1 →
        (0 < k.2.2 → done = .next (set (.readPayload
          { type := k.2.1, bytes := [], faulty := false, flags := .empty }))) ∧
        (k.2.2 = 0 → complete k.2.1 [] false .empty)) ∧
    ∀ r k, s.align.assembler = .readPayload r → k ∈ reportTypes → r.type = k.2.1 →
      let bytes := r.bytes ++ [e.value]
      let faulty := r.faulty || doubtful
      let flags := withFlags r.flags (carried e)
      (bytes.length < k.2.2 → done = .next (set (.readPayload
        { type := r.type, bytes := bytes, faulty := faulty, flags := flags }))) ∧
      (k.2.2 ≤ bytes.length → complete r.type bytes faulty flags)) ∧
  (∀ p ring sector u0 u1 v0 v1 : Byte, reportOf .drift [p, ring, sector, u0, u1, v0, v1] =
    .drift p ring sector (signed u0 u1) (signed v0 v1)) ∧
  (∀ p l0 l1 : Byte, reportOf .luma [p, l0, l1] = .luma p (word l0 l1)) ∧ reportOf .step [] = .step

/-- The report at the head of the Measurement Queue is removed, applied and recorded: DRIFT writes the claim's next trim and
hard-invalidates its node NORMAL, as QueueRequestsAndInvalidations says what that does, LUMA stores or removes a luminance
and recomputes the targets, STEP credits a loader that waits for it; without a target or a waiting loader nothing but the
record changes. -/
def Obligations.ReportsAreApplied : Prop :=
  ∀ s r queue, s.align.queue = r :: queue →
    let recorded := fun (t : State) (o : ReportOutcome) =>
      ({ t with align := { s.align with queue := queue, last := some (r, o) } } : State)
    (∀ slot ring sector du dv, r = .drift slot ring sector du dv →
      ((∀ (p : Slot) n c, slot.toNat = p.val → namedNode ring sector = some n →
          claimBy (s.node n).claims p = some c → c.pendingNew = true) →
        exec .driftReport s = .next (recorded s .noTarget)) ∧
      ∀ (p : Slot) n c, slot.toNat = p.val → namedNode ring sector = some n →
        claimBy (s.node n).claims p = some c → c.pendingNew = false →
        let base := c.nextTrim.getD c.liveTrim
        let u' := max (-2048) (min 2047 (base.tu + du))
        let v' := max (-2048) (min 2047 (base.tv + dv))
        let exact := decide (u' = base.tu + du ∧ v' = base.tv + dv)
        ∃ u, u = { s with dome := { s.dome with nodes := u.dome.nodes } } ∧ (∀ m, m ≠ n → u.node m = s.node m) ∧
          u.node n = { s.node n with
            claims := (s.node n).claims.map fun d =>
              if d.projector = p then { d with nextTrim := some { tu := u', tv := v' } } else d } ∧
          let t := hardInvalidate .normal n u
          (exact = true → exec .driftReport s = .next (recorded (startSolve t) .applied)) ∧
          (exact = false → exec .driftReport s = .next (recorded (startSolve (t.raise (.trimLimit n))) .saturated))) ∧
    (∀ slot value, r = .luma slot value →
      ((∀ p : Slot, slot.toNat = p.val → (s.proj p).state = .vacant) →
        exec .lumaReport s = .next (recorded s .noTarget)) ∧
      ∀ p : Slot, slot.toNat = p.val → (s.proj p).state ≠ .vacant →
        exec .lumaReport s = .next (recorded (recomputeGains
          (s.modProj p fun q => { q with luminance := if value = 0 then none else some value })) .applied)) ∧
    (r = .step →
      (s.loader.state = .waiting → s.loader.reason = some .step →
        exec .stepReport s = .next (recorded { s with loader :=
          { s.loader with state := .running, reason := none }.decide true (decide (FailoverOwed s)) } .credited)) ∧
      (s.loader.state ≠ .waiting ∨ s.loader.reason ≠ some .step →
        exec .stepReport s = .next (recorded s .ignored)))

/-- SET ALIGN LINK, CLEAR ALIGN ERRORS and RESET ALIGN RECEIVER, with their receiver states and replies. -/
def Obligations.AlignRequestsSetReceiver : Prop :=
  (∀ s tag (rate mode enable : Byte) rest, Waits s 0x40 tag [rate, mode, enable] rest →
    let a := s.align
    let code := min 3 rate.toNat
    let receiver : ReceiverState :=
      if enable = 0 then .disabled else if a.receiver = .disabled then .listening else a.receiver
    exec .setAlignLink s = .next (answered { s with align := { a with
        rate := match code with | 0 => .r115200 | 1 => .r230400 | 2 => .r460800 | _ => .r921600
        mode := if mode = 0 then .discardReport else .halt
        enable := decide (enable ≠ 0), fifo := [], assembler := .seekLead, gapPending := false, synced := false
        receiver := receiver, resume := if enable = 0 then none else a.resume } }
      rest tag .ok [byte code, if mode = 0 then 0 else 1, if enable = 0 then 0 else 1, byte receiver.code])) ∧
  (∀ s tag rest, Waits s 0x41 tag [] rest →
    let cleared := { s.align with errors := .empty, gapPending := false }
    let reply := fun (t : AlignPort) => [byte s.align.errors.mask, byte t.receiver.code]
    let done := fun (t : AlignPort) =>
      exec .clearAlignErrors s = .next (answered { s with align := t } rest tag .ok (reply t))
    (s.align.receiver = .halted →
      done { cleared with receiver := .listening, synced := true, assembler := .seekLead }) ∧
    (s.align.receiver = .lineDown → s.align.resume = some .halted →
      done { cleared with resume := some .listening }) ∧
    (s.align.receiver = .disabled ∨ s.align.receiver = .listening ∨
      s.align.receiver = .lineDown ∧ s.align.resume ≠ some .halted → done cleared)) ∧
  ∀ s tag rest, Waits s 0x42 tag [] rest →
    let receiver : ReceiverState := if s.align.enable then .listening else .disabled
    exec .resetAlignReceiver s = .next (answered { s with align := { s.align with
        fifo := [], assembler := .seekLead, queue := [], errors := .empty, gapPending := false, synced := false
        receiver := receiver, resume := none } }
      rest tag .ok [byte s.align.queue.length, byte receiver.code])

/-! ### The Mesh Loader (chapter 10) -/

/-- The fetch decision, condition by condition of R170. A fetch that it begins asks the Memory Port for the bytes of the
record at the next address, 8 or 10 in their order, which past address 16,777,215 continue from address 0. (A fetch's serial
and the next serial are the model's own, log 13.) -/
def Obligations.FetchDecisionFollowsTable : Prop :=
  ∀ (l : Loader) d credit owed, l.descriptor = some d → l.state = .running → l.reason = none → l.fetch = none →
    let n := l.decide credit owed
    (l.stopPending = true → n = { l with state := .held, stopPending := false }) ∧
    (l.stopPending = false →
      (owed = true → n = { l with state := .waiting, reason := some .yield }) ∧
      (owed = false →
        (d.pacing = .perFrame → l.quotaUsed = d.quota → n = { l with state := .waiting, reason := some .quota }) ∧
        (d.pacing = .step → credit = false → n = { l with state := .waiting, reason := some .step }) ∧
        (¬(d.pacing = .perFrame ∧ l.quotaUsed = d.quota) → ¬(d.pacing = .step ∧ credit = false) →
          n = { l with
            fetch := some { serial := l.serial, address := l.nextAddress }, serial := l.serial + 1
            quotaUsed := min 4095 (l.quotaUsed + 1) } ∧
          n.asked.length = (match d.format with | .compact => 8 | .full => 10) ∧
          ∀ i < n.asked.length, n.asked[i]? = some ((l.nextAddress + i) % 16777216))))

/-- LOAD MESH, STOP LOAD, RESUME LOAD and RESET LOADER, by the loader's state, and the quota renewal of a boundary. (That
LOAD MESH's reply gives the count as the two-byte field received, and the packing of its flags, are the model's reading, log
10 and log 20.) -/
def Obligations.LoaderRequestsByState : Prop :=
  (∀ s tag (a0 a1 a2 c0 c1 format pacing q0 q1 honour apply : Byte) rest,
    Waits s 0x48 tag [a0, a1, a2, c0, c1, format, pacing, q0, q1, honour, apply] rest →
    let quota := max 1 (min 4095 (word q0 q1))
    let d : Descriptor :=
      { start := triple a0 a1 a2, count := word c0 c1
        format := if format = 0 then .compact else .full
        pacing := if pacing = 0 then .burst else if pacing = 1 then .perFrame else .step
        quota := quota, honourEnd := decide (honour ≠ 0), applyAtEnd := decide (apply ≠ 0) }
    (s.loader.state = .idle →
      let l := (startedLoader s.loader d).decide false (decide (FailoverOwed s))
      exec .loadMesh s = .next (answered { s with loader := l } rest tag .ok
        ([a0, a1, a2, c0, c1, if format = 0 then 0 else 1, byte (min 2 pacing.toNat)] ++ twoBytes quota
          ++ [(if honour = 0 then 0 else 1) + (if apply = 0 then 0 else 2), byte l.state.code]))) ∧
    (s.loader.state ≠ .idle → exec .loadMesh s = .next (answered s rest tag .busy
      ([byte s.loader.state.code] ++ threeBytes s.loader.remaining ++ threeBytes s.loader.stored)))) ∧
  (∀ s tag rest, Waits s 0x49 tag [] rest →
    let pending : Byte := if s.loader.stopPending then 1 else 0
    (s.loader.state = .running → exec .stopLoad s = .next
      (answered { s with loader := { s.loader with stopPending := true } } rest tag .ok [1, 1])) ∧
    (s.loader.state = .waiting → exec .stopLoad s = .next
      (answered { s with loader := { s.loader with state := .held, reason := none } } rest tag .ok [2, pending])) ∧
    (s.loader.state = .held → exec .stopLoad s = .next (answered s rest tag .ok [2, pending])) ∧
    (s.loader.state = .idle → exec .stopLoad s = .next (answered s rest tag .state [0, pending]))) ∧
  (∀ s tag rest, Waits s 0x4A tag [] rest →
    (s.loader.state = .held →
      let l := { s.loader with state := .running, reason := none }.decide false (decide (FailoverOwed s))
      exec .resumeLoad s = .next (answered { s with loader := l } rest tag .ok [byte l.state.code])) ∧
    (s.loader.state = .running → exec .resumeLoad s = .next
      (answered { s with loader := { s.loader with stopPending := false } } rest tag .ok [1])) ∧
    (s.loader.state = .waiting → exec .resumeLoad s = .next (answered s rest tag .ok [3])) ∧
    (s.loader.state = .idle → exec .resumeLoad s = .next (answered s rest tag .state [0]))) ∧
  (∀ s tag rest, Waits s 0x4B tag [] rest → exec .resetLoader s = .next (answered { s with loader := { s.loader with
      state := .idle, reason := none, fetch := none, stopPending := false, outcome := .reset, fault := none } }
    rest tag .ok ([byte s.loader.state.code] ++ threeBytes s.loader.remaining ++ threeBytes s.loader.stored))) ∧
  ∀ s, 0 < s.owed.quota →
    let renewed := fun l : Loader =>
      ({ s with loader := l, owed := { s.owed with quota := s.owed.quota - 1 } } : State)
    (s.loader.state = .waiting → s.loader.reason = some .quota → exec .quotaRenewal s = .next (renewed
      ({ s.loader with state := .running, reason := none, quotaUsed := 0 }.decide false (decide (FailoverOwed s))))) ∧
    (s.loader.state ≠ .waiting ∨ s.loader.reason ≠ some .quota →
      exec .quotaRenewal s = .next (renewed { s.loader with quotaUsed := 0 }))

/-- A completion of the fetch in flight: a fetch fault, a bad record and a refused edit end the load with LOAD_FAULT; a
CLAIM and a DROP record are stored as their edits and an END record that is not honoured is passed over, each advancing
the counts and going on with a fetch decision or ending with DONE_COUNT; an honoured END record ends the load with
DONE_END. A load that ends so takes its apply at end: SEALED, EMPTY or DEFERRED. A completion of any other fetch is
ignored, and so is one that comes with no fetch in flight (a fetch's serial, and that data of any other size than the record
asked for is no answer, are the model's own, log 13). A record's
bytes give its kind, slot, ring, sector, position and pin field. That a solve begins at the end of the step, after all
of its queue requests, is the model's choice (log 5). -/
def Obligations.FetchCompletionStoresRecord : Prop :=
  (∀ s k result, s.loader.fetch = none → exec (.fetchCompletion k result) s = .next s) ∧
  (∀ s f d, s.loader.state = .running → s.loader.fetch = some f → s.loader.descriptor = some d → NothingToBegin s →
    (∀ k result, k ≠ f.serial → exec (.fetchCompletion k result) s = .next s) ∧
    exec (.fetchCompletion f.serial .readError) s = .next (loadFaulted s .faultFetch .readError) ∧
    exec (.fetchCompletion f.serial .noResponse) s = .next (loadFaulted s .faultFetch .noResponse) ∧
    (∀ bytes, bytes.length ≠ (match d.format with | .compact => 8 | .full => 10) →
      exec (.fetchCompletion f.serial (.data bytes)) s = .next s) ∧
    ∀ bytes, bytes.length = (match d.format with | .compact => 8 | .full => 10) →
      let done := exec (.fetchCompletion f.serial (.data bytes)) s
      (decodeRecord d.format bytes = .bad → done = .next (loadFaulted s .faultStore .badRecord)) ∧
      (∀ slot ring sector q pin, decodeRecord d.format bytes = .claim slot ring sector q pin →
        (∀ code reason, (code, reason) ∈ faultReasons → setClaimRefusal s (resolveNode ring sector) slot = some code →
          done = .next (loadFaulted s .faultStore reason)) ∧
        (setClaimRefusal s (resolveNode ring sector) slot = none → 0 < s.loader.remaining → ∃ t, done = .next t ∧
          t.dome.cursor = s.dome.cursor ∧ t.port = s.port ∧
          ∀ n (p : Slot), resolveNode ring sector = some n → slot = p.val →
            ∃ u outcome, ClaimSet s u n p q pin outcome ∧ RecordCounted u d t)) ∧
      (∀ slot ring sector, decodeRecord d.format bytes = .drop slot ring sector →
        (∀ code reason, (code, reason) ∈ faultReasons → dropClaimRefusal s (resolveNode ring sector) slot = some code →
          done = .next (loadFaulted s .faultStore reason)) ∧
        (dropClaimRefusal s (resolveNode ring sector) slot = none → 0 < s.loader.remaining → ∃ t, done = .next t ∧
          t.dome.cursor = s.dome.cursor ∧ t.port = s.port ∧
          ∀ n (p : Slot) c, resolveNode ring sector = some n → slot = p.val → claimBy (s.node n).claims p = some c →
            ∃ u, ClaimDropped s u n p c ∧ RecordCounted u d t)) ∧
      (decodeRecord d.format bytes = .endMark → d.honourEnd = false → 0 < s.loader.remaining →
        ∃ t, done = .next t ∧ RecordCounted s d t) ∧
      (decodeRecord d.format bytes = .endMark → d.honourEnd = true → ∃ t, done = .next t ∧ LoadDone s d .doneEnd t)) ∧
  ∀ (b0 ring sector b3 u0 u1 v0 v1 p0 p1 : Byte),
    let slot := b0.toNat % 16
    let head := [b0, ring, sector, b3, u0, u1, v0, v1]
    let q : Pos := ⟨word u0 u1, word v0 v1⟩
    let clear := b3.toNat % 2 = 1
    let pinned := 32768 ≤ word p0 p1
    (b0.toNat / 16 = 1 →
      decodeRecord .compact head = .claim slot ring.toNat sector.toNat q (if clear then .clear else .absent) ∧
      (clear → pinned → decodeRecord .full (head ++ [p0, p1]) = .bad) ∧
      (clear → ¬pinned → decodeRecord .full (head ++ [p0, p1]) = .claim slot ring.toNat sector.toNat q .clear) ∧
      (¬clear → pinned → decodeRecord .full (head ++ [p0, p1]) =
        .claim slot ring.toNat sector.toNat q (.value (min 1023 (word p0 p1 % 32768)))) ∧
      (¬clear → ¬pinned → decodeRecord .full (head ++ [p0, p1]) = .claim slot ring.toNat sector.toNat q .absent)) ∧
    ∀ format bytes, (format, bytes) ∈ [(RecordFormat.compact, head), (.full, head ++ [p0, p1])] →
      (b0.toNat / 16 = 2 → decodeRecord format bytes = .drop slot ring.toNat sector.toNat) ∧
      (b0.toNat / 16 = 3 → decodeRecord format bytes = .endMark) ∧
      (b0.toNat / 16 = 0 ∨ 3 < b0.toNat / 16 → decodeRecord format bytes = .bad)

/-! ### Attention (chapter 12) and the reads -/

/-- ATTN is asserted exactly when some class has its status and its mask set, and the lead class is the lowest such; SET
EVENT MASK replaces the mask and replies with it and the masked status that results. A raising sets a clear class with its
detail, and overflows a class already set, which keeps its first detail; nothing else changes. -/
def Obligations.AttentionFollowsStatusAndMask : Prop :=
  ((∀ s : State, (s.attn = true ↔ AnyMasked s) ∧ (s.leadClass = none ↔ ¬AnyMasked s) ∧
    ∀ k : ClassNumber, s.leadClass = some k.val ↔ maskedOn (s.eventRecord k) = true ∧
      ∀ j < k, maskedOn (s.eventRecord j) = false) ∧
  ∀ s tag (m0 m1 : Byte) rest, Waits s 0x52 tag [m0, m1] rest →
    ∃ t, exec .setEventMask s = .next (answered t rest tag .ok
        (twoBytes (word m0 m1) ++ twoBytes (classesWith t maskedOn))) ∧
      t = { s with attention := t.attention } ∧
      ∀ k, t.eventRecord k = { s.eventRecord k with mask := (word m0 m1).testBit k.val }) ∧
  (∀ (s : State) e, let t := s.raise e
    t = { s with attention := t.attention } ∧ (∀ k, k ≠ e.cls → t.eventRecord k = s.eventRecord k) ∧
    ((s.eventRecord e.cls).status = false →
      t.eventRecord e.cls = { s.eventRecord e.cls with status := true, detail := some e }) ∧
    ((s.eventRecord e.cls).status = true →
      t.eventRecord e.cls = { s.eventRecord e.cls with overflow := true }))

/-- CLEAR EVENTS clears the status, the overflow and the detail of the classes it names and of no other, leaves every mask,
and replies with the status and overflow sets before the clear and the masked status after it. -/
def Obligations.ClearEventsClearsNamedClasses : Prop :=
  ∀ s tag (m0 m1 : Byte) rest, Waits s 0x51 tag [m0, m1] rest →
    ∃ t, exec .clearEvents s = .next (answered t rest tag .ok
        (twoBytes (classesWith s EventRecord.status) ++ twoBytes (classesWith s EventRecord.overflow)
          ++ twoBytes (classesWith t maskedOn))) ∧
      t = { s with attention := t.attention } ∧
      ∀ k, ((word m0 m1).testBit k.val = true →
          t.eventRecord k = { s.eventRecord k with status := false, overflow := false, detail := none }) ∧
        ((word m0 m1).testBit k.val = false → t.eventRecord k = s.eventRecord k)

/-- The reads without fields are never refused, reply with what their block's state gives, field by field, and change
nothing but the queues: READ SOLVER, READ GAINS, READ FRAME, READ ALIGN STATUS, READ LOADER and READ EVENTS (where R197 does
not decide the packing of a reply's flags and optional parts, it is the model's reading, log 10). READ FRAME waits while a
swap is owed (the model's deduction, log 3), and resets apart the frame counter less the swaps owed rises by one with each
swap taken and with nothing else: so the difference of the counters of two replies is the number of swaps taken between
them. -/
def Obligations.ReadsReplyAndChangeNothing : Prop :=
  (∀ s tag rest (c : Instr) code fields,
    (c, code, fields) ∈ [(Instr.readAlignStatus, (0x43 : Byte), alignBytes s.align), (.readLoader, 0x4C, loaderBytes s.loader),
      (.readEvents, 0x50, eventsBytes s)] → Waits s code tag [] rest →
    exec c s = .next (answered s rest tag .ok fields)) ∧
  (∀ s tag rest, Waits s 0x39 tag [] rest → s.owed.swap = 0 → exec .readFrame s = .next (answered s rest tag .ok
    ([(if s.timer.measured.isSome then 1 else 0 : Byte),
        (match s.timer.state with | .seeking => 0 | .genlocked => 1 | .freeRun => 2)] ++ twoBytes s.timer.period
      ++ (match s.timer.measured with | some m => twoBytes m | none => []) ++ [byte s.timer.run.length]
      ++ [byte s.timer.counter.toNat, byte (s.timer.counter.toNat / 256), byte (s.timer.counter.toNat / 65536),
        byte (s.timer.counter.toNat / 16777216), (match s.timer.content with | .present => 0 | .absent => 1)]))) ∧
  (∀ s tag rest, Waits s 0x39 tag [] rest → 0 < s.owed.swap → exec .readFrame s = .next s) ∧
  (∀ c s t, exec c s = .next t → c ≠ .resetLine → c ≠ .resetDevice →
    t.timer.counter + BitVec.ofNat 32 s.owed.swap = s.timer.counter + BitVec.ofNat 32 t.owed.swap
      + if c = .swap ∧ 0 < s.owed.swap then 1 else 0) ∧
  (∀ s tag rest, Waits s 0x18 tag [] rest → exec .readSolver s = .next (answered s rest tag .ok
    (match s.solver.flight with
      | none => [0, 0] ++ twoBytes s.solver.urgent.length ++ twoBytes s.solver.normal.length
      | some f => [7, 1] ++ twoBytes s.solver.urgent.length ++ twoBytes s.solver.normal.length ++ twoBytes f.node
        ++ [(match f.cls with | .normal => 0 | .urgent => 1), (if (s.node f.node).dirty then 1 else 0)]))) ∧
  (∀ s tag rest, Waits s 0x2A tag [] rest →
    (∀ l, IsReference s l → exec .readGains s = .next (answered s rest tag .ok (gainsBytes s (some l)))) ∧
    ((∀ p, (s.proj p).state.contributing = true → (s.proj p).luminance = none) →
      exec .readGains s = .next (answered s rest tag .ok (gainsBytes s none)))) ∧
  ∀ s tag rest, Waits s 0x2A tag [] rest → (∀ p, (s.proj p).luminance.isSome = true) →
    (∃ p, (s.proj p).state.contributing = true) →
    ∃ fields, exec .readGains s = .next (answered s rest tag .ok fields) ∧ 2 + fields.length = 125

/-! ### Invariants -/

/-- Every invariant below holds at reset. -/
def Obligations.InvariantsHoldAtReset : Prop :=
  State.reset.NodesCanonical ∧ State.reset.MarksApart ∧ State.reset.ListsOrdered ∧ State.reset.ConditionsAgree ∧
    State.reset.CursorPlaced ∧ State.reset.QueueAgrees ∧ State.reset.ProjectorsAgree ∧ State.reset.GainsInRange ∧
    State.reset.ChannelsAgree ∧ State.reset.timer.Agrees ∧ State.reset.align.Agrees ∧ State.reset.loader.Agrees ∧
    State.reset.port.Agrees ∧ State.reset.AttentionAgrees ∧ State.reset.GroupAgrees ∧ State.reset.WeightsAgree ∧
    State.reset.ClaimsCounted

/-- Every step keeps the node store canonical, the open and group marks apart, the claim lists ordered and at most four
long, every condition the one the live claims give, and the cursor on a node with the remembered sector that belongs to
it. -/
def Obligations.StepKeepsMapSound : Prop :=
  KeptByStep State.NodesCanonical ∧ KeptByStep State.MarksApart ∧ KeptByStep State.ListsOrdered ∧
    KeptByStep State.ConditionsAgree ∧ KeptByStep State.CursorPlaced

/-- Every step keeps the Solve Queue, the queued fields, the solve in flight and the in-flight and dirty flags in
agreement. -/
def Obligations.StepKeepsSolveQueue : Prop := KeptByStep State.QueueAgrees

/-- Every step keeps the member count, the ready count and the group state what the node records make them. -/
def Obligations.StepKeepsGroupCounts : Prop := KeptByStep State.GroupAgrees

/-- Every step keeps every node's live weights, and its next weights while they are valid, all 0 or of sum 4096. -/
def Obligations.StepKeepsWeightsWhole : Prop := KeptByStep State.WeightsAgree

/-- Every step keeps the free count and the claim counts what the node lists make them. -/
def Obligations.StepKeepsClaimCounts : Prop := KeptByStep State.ClaimsCounted

/-- Every step keeps each projector's state, φ, fade record and fail cause in agreement, every gain in its range, and a
channel OFF exactly while its slot is VACANT. -/
def Obligations.StepKeepsProjectors : Prop :=
  KeptByStep State.ProjectorsAgree ∧ KeptByStep State.GainsInRange ∧ KeptByStep State.ChannelsAgree

/-- Every step keeps the parts of the Frame Timer and of the Mesh Loader in agreement with their states, and the Attention
Unit's details with its status flags. -/
def Obligations.StepKeepsTimerLoaderAttention : Prop :=
  KeptByStep (fun s => s.timer.Agrees) ∧ KeptByStep (fun s => s.loader.Agrees) ∧ KeptByStep State.AttentionAgrees

/-- Every step keeps the parts of the Alignment Port, and of the Control Port, in agreement with their states. -/
def Obligations.StepKeepsPorts : Prop :=
  KeptByStep (fun s => s.align.Agrees) ∧ KeptByStep (fun s => s.port.Agrees)
end

