-- ==== Sys2Proof/Laws/Sparse.lean ====
section
/-! SUPPORT. The laws of the sparse store: what is read back after a write, and that every write keeps the canonical
form, in which equal stores are equal data. -/

namespace Sys2Proof.Machine.Sparse

variable {α : Type}

theorem get_erase_self (d : α) (l : List (Nat × α)) (k : Nat) : get d (erase k l) k = d := by
  induction l with
  | nil => rfl
  | cons e rest ih =>
    obtain ⟨j, v⟩ := e
    by_cases h : j = k <;> simp [erase, get, h, ih]

theorem get_erase_other (d : α) (l : List (Nat × α)) {k m : Nat} (h : m ≠ k) : get d (erase k l) m = get d l m := by
  induction l with
  | nil => rfl
  | cons e rest ih =>
    obtain ⟨j, v⟩ := e
    by_cases hj : j = k
    · subst hj; simp [erase, get, ih, Ne.symm h]
    · simp [erase, get, hj, ih]

theorem get_place_other (d : α) (l : List (Nat × α)) {k m : Nat} (v : α) (h : m ≠ k) :
    get d (place k v l) m = get d l m := by
  induction l with
  | nil => simp [place, get, Ne.symm h]
  | cons e rest ih =>
    obtain ⟨j, w⟩ := e
    by_cases hk : k < j
    · simp [place, hk, get, Ne.symm h]
    · simp [place, hk, get, ih]

theorem get_place_self (d : α) (l : List (Nat × α)) (k : Nat) (v : α) (h : ∀ e ∈ l, e.1 ≠ k) :
    get d (place k v l) k = v := by
  induction l with
  | nil => simp [place, get]
  | cons e rest ih =>
    obtain ⟨j, w⟩ := e
    have hj : j ≠ k := h (j, w) (by simp)
    by_cases hk : k < j
    · simp [place, hk, get]
    · simp [place, hk, get, hj, ih fun e he => h e (by simp [he])]

theorem mem_erase {l : List (Nat × α)} {k : Nat} {e : Nat × α} : e ∈ erase k l ↔ e ∈ l ∧ e.1 ≠ k := by
  induction l with
  | nil => simp [erase]
  | cons f rest ih =>
    obtain ⟨j, w⟩ := f
    by_cases h : j = k
    · subst h
      simp only [erase, if_true, ih, List.mem_cons]
      constructor
      · rintro ⟨h1, h2⟩; exact ⟨Or.inr h1, h2⟩
      · rintro ⟨rfl | h1, h2⟩
        · exact absurd rfl h2
        · exact ⟨h1, h2⟩
    · simp only [erase, h, if_false, List.mem_cons, ih]
      constructor
      · rintro (rfl | ⟨h1, h2⟩)
        · exact ⟨Or.inl rfl, h⟩
        · exact ⟨Or.inr h1, h2⟩
      · rintro ⟨rfl | h1, h2⟩
        · exact Or.inl rfl
        · exact Or.inr ⟨h1, h2⟩

theorem mem_place {l : List (Nat × α)} {k : Nat} {v : α} {e : Nat × α} : e ∈ place k v l ↔ e = (k, v) ∨ e ∈ l := by
  induction l with
  | nil => simp [place]
  | cons f rest ih =>
    obtain ⟨j, w⟩ := f
    by_cases h : k < j
    · simp [place, h]
    · simp only [place, h, if_false, List.mem_cons, ih]; tauto

/-- A write is read back at its key. -/
@[simp] theorem get_put_self [DecidableEq α] (d : α) (l : List (Nat × α)) (k : Nat) (v : α) :
    get d (put d l k v) k = v := by
  unfold put
  split
  · next h => rw [get_erase_self, h]
  · exact get_place_self d _ k v fun e he => (mem_erase.1 he).2

/-- A write leaves every other key as it was. -/
theorem get_put_other [DecidableEq α] (d : α) (l : List (Nat × α)) {k m : Nat} (v : α) (h : m ≠ k) :
    get d (put d l k v) m = get d l m := by
  unfold put
  split
  · exact get_erase_other d l h
  · rw [get_place_other d _ v h, get_erase_other d l h]

/-- What is read after a write, at any key. -/
theorem get_put [DecidableEq α] (d : α) (l : List (Nat × α)) (k m : Nat) (v : α) :
    get d (put d l k v) m = if m = k then v else get d l m := by
  by_cases h : m = k
  · subst h; simp
  · rw [get_put_other d l v h, if_neg h]

/-- Rising from a lower bound, in the terms of the pairwise order. -/
theorem rising_iff (b : Option Nat) (l : List (Nat × α)) :
    rising b l = true ↔ (∀ k, b = some k → ∀ e ∈ l, k < e.1) ∧ l.Pairwise fun e f => e.1 < f.1 := by
  induction l generalizing b with
  | nil => cases b <;> simp [rising]
  | cons e rest ih =>
    obtain ⟨j, v⟩ := e
    have hr := ih (some j)
    cases b with
    | none => simp only [rising, hr, List.pairwise_cons]; simp
    | some k =>
      simp only [rising, Bool.and_eq_true, decide_eq_true_eq, hr, List.pairwise_cons, Option.some.injEq, List.mem_cons,
        forall_eq', forall_eq_or_imp]
      constructor
      · rintro ⟨h1, h2, h3⟩; exact ⟨⟨h1, fun e he => h1.trans (h2 e he)⟩, h2, h3⟩
      · rintro ⟨⟨h1, -⟩, h2, h3⟩; exact ⟨h1, h2, h3⟩

theorem pairwise_erase {l : List (Nat × α)} (k : Nat) (h : l.Pairwise fun e f => e.1 < f.1) :
    (erase k l).Pairwise fun e f => e.1 < f.1 := by
  induction l with
  | nil => simp [erase]
  | cons e rest ih =>
    obtain ⟨j, v⟩ := e
    rw [List.pairwise_cons] at h
    by_cases hj : j = k
    · simpa [erase, hj] using ih h.2
    · simp only [erase, hj, if_false, List.pairwise_cons]
      exact ⟨fun f hf => h.1 f (mem_erase.1 hf).1, ih h.2⟩

theorem pairwise_place {l : List (Nat × α)} (k : Nat) (v : α) (h : l.Pairwise fun e f => e.1 < f.1)
    (hk : ∀ e ∈ l, e.1 ≠ k) : (place k v l).Pairwise fun e f => e.1 < f.1 := by
  induction l with
  | nil => simp [place]
  | cons e rest ih =>
    obtain ⟨j, w⟩ := e
    rw [List.pairwise_cons] at h
    by_cases hj : k < j
    · rw [place, if_pos hj]
      simp only [List.pairwise_cons, List.mem_cons, forall_eq_or_imp]
      exact ⟨⟨hj, fun f hf => hj.trans (h.1 f hf)⟩, h.1, h.2⟩
    · have hjk : j < k := lt_of_le_of_ne (not_lt.1 hj) (hk (j, w) (by simp))
      simp only [place, hj, if_false, List.pairwise_cons]
      refine ⟨fun f hf => ?_, ih h.2 fun f hf => hk f (by simp [hf])⟩
      rcases mem_place.1 hf with rfl | hf
      · exact hjk
      · exact h.1 f hf

/-- Every write keeps the canonical form. -/
theorem wf_put [DecidableEq α] (d : α) (l : List (Nat × α)) (k : Nat) (v : α) (h : wf d l = true) :
    wf d (put d l k v) = true := by
  simp only [wf, Bool.and_eq_true, rising_iff, List.all_eq_true, decide_eq_true_eq] at h ⊢
  obtain ⟨⟨-, hp⟩, hv⟩ := h
  refine ⟨⟨by simp, ?_⟩, ?_⟩
  · unfold put
    split
    · exact pairwise_erase k hp
    · exact pairwise_place k v (pairwise_erase k hp) fun e he => (mem_erase.1 he).2
  · intro e he
    unfold put at he
    split at he
    · exact hv e (mem_erase.1 he).1
    · next hne =>
      rcases mem_place.1 he with rfl | he
      · exact hne
      · exact hv e (mem_erase.1 he).1

/-- The empty store is canonical. -/
@[simp] theorem wf_nil [DecidableEq α] (d : α) : wf d ([] : List (Nat × α)) = true := rfl

/-- The keys after a write are the written key and keys that were there. -/
theorem key_of_mem_put [DecidableEq α] {d : α} {l : List (Nat × α)} {k : Nat} {v : α} {e : Nat × α}
    (h : e ∈ put d l k v) : e.1 = k ∨ e ∈ l := by
  unfold put at h
  split at h
  · exact Or.inr (mem_erase.1 h).1
  · rcases mem_place.1 h with rfl | h
    · exact Or.inl rfl
    · exact Or.inr (mem_erase.1 h).1

/-- A listed pair is what its key reads as, in a canonical store. -/
theorem get_of_mem (d : α) {l : List (Nat × α)} (h : l.Pairwise fun e f => e.1 < f.1) {e : Nat × α} (he : e ∈ l) :
    get d l e.1 = e.2 := by
  induction l with
  | nil => simp at he
  | cons f rest ih =>
    obtain ⟨j, w⟩ := f
    rw [List.pairwise_cons] at h
    rcases List.mem_cons.1 he with rfl | he
    · simp [get]
    · have : j ≠ e.1 := (h.1 e he).ne
      simp [get, this, ih h.2 he]

end Sys2Proof.Machine.Sparse
end

