-- ==== Sys2Proof/Laws/State.lean ====
section
/-! SUPPORT. One lemma per field per update of State, each true by rfl, so that no later proof unfolds a record update. -/

namespace Sys2Proof.Machine

/-! ### setPending -/

@[simp] theorem State.setPending_pending (s : State) (cs : List Instr) :
    (s.setPending cs).pending = cs := rfl

@[simp] theorem State.setPending_dome (s : State) (cs : List Instr) :
    (s.setPending cs).dome = s.dome := rfl

@[simp] theorem State.setPending_solver (s : State) (cs : List Instr) :
    (s.setPending cs).solver = s.solver := rfl

@[simp] theorem State.setPending_edit (s : State) (cs : List Instr) :
    (s.setPending cs).edit = s.edit := rfl

@[simp] theorem State.setPending_projectors (s : State) (cs : List Instr) :
    (s.setPending cs).projectors = s.projectors := rfl

@[simp] theorem State.setPending_gain (s : State) (cs : List Instr) :
    (s.setPending cs).gain = s.gain := rfl

@[simp] theorem State.setPending_raster (s : State) (cs : List Instr) :
    (s.setPending cs).raster = s.raster := rfl

@[simp] theorem State.setPending_content (s : State) (cs : List Instr) :
    (s.setPending cs).content = s.content := rfl

@[simp] theorem State.setPending_channels (s : State) (cs : List Instr) :
    (s.setPending cs).channels = s.channels := rfl

@[simp] theorem State.setPending_timer (s : State) (cs : List Instr) :
    (s.setPending cs).timer = s.timer := rfl

@[simp] theorem State.setPending_owed (s : State) (cs : List Instr) :
    (s.setPending cs).owed = s.owed := rfl

@[simp] theorem State.setPending_align (s : State) (cs : List Instr) :
    (s.setPending cs).align = s.align := rfl

@[simp] theorem State.setPending_loader (s : State) (cs : List Instr) :
    (s.setPending cs).loader = s.loader := rfl

@[simp] theorem State.setPending_port (s : State) (cs : List Instr) :
    (s.setPending cs).port = s.port := rfl

@[simp] theorem State.setPending_attention (s : State) (cs : List Instr) :
    (s.setPending cs).attention = s.attention := rfl

/-! ### setPort -/

@[simp] theorem State.setPort_pending (s : State) (p : ControlPort) :
    (s.setPort p).pending = s.pending := rfl

@[simp] theorem State.setPort_dome (s : State) (p : ControlPort) :
    (s.setPort p).dome = s.dome := rfl

@[simp] theorem State.setPort_solver (s : State) (p : ControlPort) :
    (s.setPort p).solver = s.solver := rfl

@[simp] theorem State.setPort_edit (s : State) (p : ControlPort) :
    (s.setPort p).edit = s.edit := rfl

@[simp] theorem State.setPort_projectors (s : State) (p : ControlPort) :
    (s.setPort p).projectors = s.projectors := rfl

@[simp] theorem State.setPort_gain (s : State) (p : ControlPort) :
    (s.setPort p).gain = s.gain := rfl

@[simp] theorem State.setPort_raster (s : State) (p : ControlPort) :
    (s.setPort p).raster = s.raster := rfl

@[simp] theorem State.setPort_content (s : State) (p : ControlPort) :
    (s.setPort p).content = s.content := rfl

@[simp] theorem State.setPort_channels (s : State) (p : ControlPort) :
    (s.setPort p).channels = s.channels := rfl

@[simp] theorem State.setPort_timer (s : State) (p : ControlPort) :
    (s.setPort p).timer = s.timer := rfl

@[simp] theorem State.setPort_owed (s : State) (p : ControlPort) :
    (s.setPort p).owed = s.owed := rfl

@[simp] theorem State.setPort_align (s : State) (p : ControlPort) :
    (s.setPort p).align = s.align := rfl

@[simp] theorem State.setPort_loader (s : State) (p : ControlPort) :
    (s.setPort p).loader = s.loader := rfl

@[simp] theorem State.setPort_port (s : State) (p : ControlPort) :
    (s.setPort p).port = p := rfl

@[simp] theorem State.setPort_attention (s : State) (p : ControlPort) :
    (s.setPort p).attention = s.attention := rfl

/-! ### setSolver -/

@[simp] theorem State.setSolver_pending (s : State) (v : Solver) :
    (s.setSolver v).pending = s.pending := rfl

@[simp] theorem State.setSolver_dome (s : State) (v : Solver) :
    (s.setSolver v).dome = s.dome := rfl

@[simp] theorem State.setSolver_solver (s : State) (v : Solver) :
    (s.setSolver v).solver = v := rfl

@[simp] theorem State.setSolver_edit (s : State) (v : Solver) :
    (s.setSolver v).edit = s.edit := rfl

@[simp] theorem State.setSolver_projectors (s : State) (v : Solver) :
    (s.setSolver v).projectors = s.projectors := rfl

@[simp] theorem State.setSolver_gain (s : State) (v : Solver) :
    (s.setSolver v).gain = s.gain := rfl

@[simp] theorem State.setSolver_raster (s : State) (v : Solver) :
    (s.setSolver v).raster = s.raster := rfl

@[simp] theorem State.setSolver_content (s : State) (v : Solver) :
    (s.setSolver v).content = s.content := rfl

@[simp] theorem State.setSolver_channels (s : State) (v : Solver) :
    (s.setSolver v).channels = s.channels := rfl

@[simp] theorem State.setSolver_timer (s : State) (v : Solver) :
    (s.setSolver v).timer = s.timer := rfl

@[simp] theorem State.setSolver_owed (s : State) (v : Solver) :
    (s.setSolver v).owed = s.owed := rfl

@[simp] theorem State.setSolver_align (s : State) (v : Solver) :
    (s.setSolver v).align = s.align := rfl

@[simp] theorem State.setSolver_loader (s : State) (v : Solver) :
    (s.setSolver v).loader = s.loader := rfl

@[simp] theorem State.setSolver_port (s : State) (v : Solver) :
    (s.setSolver v).port = s.port := rfl

@[simp] theorem State.setSolver_attention (s : State) (v : Solver) :
    (s.setSolver v).attention = s.attention := rfl

/-! ### setEdit -/

@[simp] theorem State.setEdit_pending (s : State) (e : EditControl) :
    (s.setEdit e).pending = s.pending := rfl

@[simp] theorem State.setEdit_dome (s : State) (e : EditControl) :
    (s.setEdit e).dome = s.dome := rfl

@[simp] theorem State.setEdit_solver (s : State) (e : EditControl) :
    (s.setEdit e).solver = s.solver := rfl

@[simp] theorem State.setEdit_edit (s : State) (e : EditControl) :
    (s.setEdit e).edit = e := rfl

@[simp] theorem State.setEdit_projectors (s : State) (e : EditControl) :
    (s.setEdit e).projectors = s.projectors := rfl

@[simp] theorem State.setEdit_gain (s : State) (e : EditControl) :
    (s.setEdit e).gain = s.gain := rfl

@[simp] theorem State.setEdit_raster (s : State) (e : EditControl) :
    (s.setEdit e).raster = s.raster := rfl

@[simp] theorem State.setEdit_content (s : State) (e : EditControl) :
    (s.setEdit e).content = s.content := rfl

@[simp] theorem State.setEdit_channels (s : State) (e : EditControl) :
    (s.setEdit e).channels = s.channels := rfl

@[simp] theorem State.setEdit_timer (s : State) (e : EditControl) :
    (s.setEdit e).timer = s.timer := rfl

@[simp] theorem State.setEdit_owed (s : State) (e : EditControl) :
    (s.setEdit e).owed = s.owed := rfl

@[simp] theorem State.setEdit_align (s : State) (e : EditControl) :
    (s.setEdit e).align = s.align := rfl

@[simp] theorem State.setEdit_loader (s : State) (e : EditControl) :
    (s.setEdit e).loader = s.loader := rfl

@[simp] theorem State.setEdit_port (s : State) (e : EditControl) :
    (s.setEdit e).port = s.port := rfl

@[simp] theorem State.setEdit_attention (s : State) (e : EditControl) :
    (s.setEdit e).attention = s.attention := rfl

/-! ### setTimer -/

@[simp] theorem State.setTimer_pending (s : State) (t : FrameTimer) :
    (s.setTimer t).pending = s.pending := rfl

@[simp] theorem State.setTimer_dome (s : State) (t : FrameTimer) :
    (s.setTimer t).dome = s.dome := rfl

@[simp] theorem State.setTimer_solver (s : State) (t : FrameTimer) :
    (s.setTimer t).solver = s.solver := rfl

@[simp] theorem State.setTimer_edit (s : State) (t : FrameTimer) :
    (s.setTimer t).edit = s.edit := rfl

@[simp] theorem State.setTimer_projectors (s : State) (t : FrameTimer) :
    (s.setTimer t).projectors = s.projectors := rfl

@[simp] theorem State.setTimer_gain (s : State) (t : FrameTimer) :
    (s.setTimer t).gain = s.gain := rfl

@[simp] theorem State.setTimer_raster (s : State) (t : FrameTimer) :
    (s.setTimer t).raster = s.raster := rfl

@[simp] theorem State.setTimer_content (s : State) (t : FrameTimer) :
    (s.setTimer t).content = s.content := rfl

@[simp] theorem State.setTimer_channels (s : State) (t : FrameTimer) :
    (s.setTimer t).channels = s.channels := rfl

@[simp] theorem State.setTimer_timer (s : State) (t : FrameTimer) :
    (s.setTimer t).timer = t := rfl

@[simp] theorem State.setTimer_owed (s : State) (t : FrameTimer) :
    (s.setTimer t).owed = s.owed := rfl

@[simp] theorem State.setTimer_align (s : State) (t : FrameTimer) :
    (s.setTimer t).align = s.align := rfl

@[simp] theorem State.setTimer_loader (s : State) (t : FrameTimer) :
    (s.setTimer t).loader = s.loader := rfl

@[simp] theorem State.setTimer_port (s : State) (t : FrameTimer) :
    (s.setTimer t).port = s.port := rfl

@[simp] theorem State.setTimer_attention (s : State) (t : FrameTimer) :
    (s.setTimer t).attention = s.attention := rfl

/-! ### setAlign -/

@[simp] theorem State.setAlign_pending (s : State) (a : AlignPort) :
    (s.setAlign a).pending = s.pending := rfl

@[simp] theorem State.setAlign_dome (s : State) (a : AlignPort) :
    (s.setAlign a).dome = s.dome := rfl

@[simp] theorem State.setAlign_solver (s : State) (a : AlignPort) :
    (s.setAlign a).solver = s.solver := rfl

@[simp] theorem State.setAlign_edit (s : State) (a : AlignPort) :
    (s.setAlign a).edit = s.edit := rfl

@[simp] theorem State.setAlign_projectors (s : State) (a : AlignPort) :
    (s.setAlign a).projectors = s.projectors := rfl

@[simp] theorem State.setAlign_gain (s : State) (a : AlignPort) :
    (s.setAlign a).gain = s.gain := rfl

@[simp] theorem State.setAlign_raster (s : State) (a : AlignPort) :
    (s.setAlign a).raster = s.raster := rfl

@[simp] theorem State.setAlign_content (s : State) (a : AlignPort) :
    (s.setAlign a).content = s.content := rfl

@[simp] theorem State.setAlign_channels (s : State) (a : AlignPort) :
    (s.setAlign a).channels = s.channels := rfl

@[simp] theorem State.setAlign_timer (s : State) (a : AlignPort) :
    (s.setAlign a).timer = s.timer := rfl

@[simp] theorem State.setAlign_owed (s : State) (a : AlignPort) :
    (s.setAlign a).owed = s.owed := rfl

@[simp] theorem State.setAlign_align (s : State) (a : AlignPort) :
    (s.setAlign a).align = a := rfl

@[simp] theorem State.setAlign_loader (s : State) (a : AlignPort) :
    (s.setAlign a).loader = s.loader := rfl

@[simp] theorem State.setAlign_port (s : State) (a : AlignPort) :
    (s.setAlign a).port = s.port := rfl

@[simp] theorem State.setAlign_attention (s : State) (a : AlignPort) :
    (s.setAlign a).attention = s.attention := rfl

/-! ### setLoader -/

@[simp] theorem State.setLoader_pending (s : State) (l : Loader) :
    (s.setLoader l).pending = s.pending := rfl

@[simp] theorem State.setLoader_dome (s : State) (l : Loader) :
    (s.setLoader l).dome = s.dome := rfl

@[simp] theorem State.setLoader_solver (s : State) (l : Loader) :
    (s.setLoader l).solver = s.solver := rfl

@[simp] theorem State.setLoader_edit (s : State) (l : Loader) :
    (s.setLoader l).edit = s.edit := rfl

@[simp] theorem State.setLoader_projectors (s : State) (l : Loader) :
    (s.setLoader l).projectors = s.projectors := rfl

@[simp] theorem State.setLoader_gain (s : State) (l : Loader) :
    (s.setLoader l).gain = s.gain := rfl

@[simp] theorem State.setLoader_raster (s : State) (l : Loader) :
    (s.setLoader l).raster = s.raster := rfl

@[simp] theorem State.setLoader_content (s : State) (l : Loader) :
    (s.setLoader l).content = s.content := rfl

@[simp] theorem State.setLoader_channels (s : State) (l : Loader) :
    (s.setLoader l).channels = s.channels := rfl

@[simp] theorem State.setLoader_timer (s : State) (l : Loader) :
    (s.setLoader l).timer = s.timer := rfl

@[simp] theorem State.setLoader_owed (s : State) (l : Loader) :
    (s.setLoader l).owed = s.owed := rfl

@[simp] theorem State.setLoader_align (s : State) (l : Loader) :
    (s.setLoader l).align = s.align := rfl

@[simp] theorem State.setLoader_loader (s : State) (l : Loader) :
    (s.setLoader l).loader = l := rfl

@[simp] theorem State.setLoader_port (s : State) (l : Loader) :
    (s.setLoader l).port = s.port := rfl

@[simp] theorem State.setLoader_attention (s : State) (l : Loader) :
    (s.setLoader l).attention = s.attention := rfl

/-! ### setFree -/

@[simp] theorem State.setFree_pending (s : State) (k : Nat) :
    (s.setFree k).pending = s.pending := rfl

@[simp] theorem State.setFree_dome (s : State) (k : Nat) :
    (s.setFree k).dome = { s.dome with freeCount := k } := rfl

@[simp] theorem State.setFree_solver (s : State) (k : Nat) :
    (s.setFree k).solver = s.solver := rfl

@[simp] theorem State.setFree_edit (s : State) (k : Nat) :
    (s.setFree k).edit = s.edit := rfl

@[simp] theorem State.setFree_projectors (s : State) (k : Nat) :
    (s.setFree k).projectors = s.projectors := rfl

@[simp] theorem State.setFree_gain (s : State) (k : Nat) :
    (s.setFree k).gain = s.gain := rfl

@[simp] theorem State.setFree_raster (s : State) (k : Nat) :
    (s.setFree k).raster = s.raster := rfl

@[simp] theorem State.setFree_content (s : State) (k : Nat) :
    (s.setFree k).content = s.content := rfl

@[simp] theorem State.setFree_channels (s : State) (k : Nat) :
    (s.setFree k).channels = s.channels := rfl

@[simp] theorem State.setFree_timer (s : State) (k : Nat) :
    (s.setFree k).timer = s.timer := rfl

@[simp] theorem State.setFree_owed (s : State) (k : Nat) :
    (s.setFree k).owed = s.owed := rfl

@[simp] theorem State.setFree_align (s : State) (k : Nat) :
    (s.setFree k).align = s.align := rfl

@[simp] theorem State.setFree_loader (s : State) (k : Nat) :
    (s.setFree k).loader = s.loader := rfl

@[simp] theorem State.setFree_port (s : State) (k : Nat) :
    (s.setFree k).port = s.port := rfl

@[simp] theorem State.setFree_attention (s : State) (k : Nat) :
    (s.setFree k).attention = s.attention := rfl

/-! ### putNode -/

@[simp] theorem State.putNode_pending (s : State) (n : Nat) (r : Node) :
    (s.putNode n r).pending = s.pending := rfl

@[simp] theorem State.putNode_dome (s : State) (n : Nat) (r : Node) :
    (s.putNode n r).dome = { s.dome with nodes := Sparse.put Node.initial s.dome.nodes n r } := rfl

@[simp] theorem State.putNode_solver (s : State) (n : Nat) (r : Node) :
    (s.putNode n r).solver = s.solver := rfl

@[simp] theorem State.putNode_edit (s : State) (n : Nat) (r : Node) :
    (s.putNode n r).edit = s.edit := rfl

@[simp] theorem State.putNode_projectors (s : State) (n : Nat) (r : Node) :
    (s.putNode n r).projectors = s.projectors := rfl

@[simp] theorem State.putNode_gain (s : State) (n : Nat) (r : Node) :
    (s.putNode n r).gain = s.gain := rfl

@[simp] theorem State.putNode_raster (s : State) (n : Nat) (r : Node) :
    (s.putNode n r).raster = s.raster := rfl

@[simp] theorem State.putNode_content (s : State) (n : Nat) (r : Node) :
    (s.putNode n r).content = s.content := rfl

@[simp] theorem State.putNode_channels (s : State) (n : Nat) (r : Node) :
    (s.putNode n r).channels = s.channels := rfl

@[simp] theorem State.putNode_timer (s : State) (n : Nat) (r : Node) :
    (s.putNode n r).timer = s.timer := rfl

@[simp] theorem State.putNode_owed (s : State) (n : Nat) (r : Node) :
    (s.putNode n r).owed = s.owed := rfl

@[simp] theorem State.putNode_align (s : State) (n : Nat) (r : Node) :
    (s.putNode n r).align = s.align := rfl

@[simp] theorem State.putNode_loader (s : State) (n : Nat) (r : Node) :
    (s.putNode n r).loader = s.loader := rfl

@[simp] theorem State.putNode_port (s : State) (n : Nat) (r : Node) :
    (s.putNode n r).port = s.port := rfl

@[simp] theorem State.putNode_attention (s : State) (n : Nat) (r : Node) :
    (s.putNode n r).attention = s.attention := rfl

/-! ### modNode -/

@[simp] theorem State.modNode_pending (s : State) (n : Nat) (f : Node → Node) :
    (s.modNode n f).pending = s.pending := rfl

@[simp] theorem State.modNode_dome (s : State) (n : Nat) (f : Node → Node) :
    (s.modNode n f).dome = { s.dome with nodes := Sparse.put Node.initial s.dome.nodes n (f (s.node n)) } := rfl

@[simp] theorem State.modNode_solver (s : State) (n : Nat) (f : Node → Node) :
    (s.modNode n f).solver = s.solver := rfl

@[simp] theorem State.modNode_edit (s : State) (n : Nat) (f : Node → Node) :
    (s.modNode n f).edit = s.edit := rfl

@[simp] theorem State.modNode_projectors (s : State) (n : Nat) (f : Node → Node) :
    (s.modNode n f).projectors = s.projectors := rfl

@[simp] theorem State.modNode_gain (s : State) (n : Nat) (f : Node → Node) :
    (s.modNode n f).gain = s.gain := rfl

@[simp] theorem State.modNode_raster (s : State) (n : Nat) (f : Node → Node) :
    (s.modNode n f).raster = s.raster := rfl

@[simp] theorem State.modNode_content (s : State) (n : Nat) (f : Node → Node) :
    (s.modNode n f).content = s.content := rfl

@[simp] theorem State.modNode_channels (s : State) (n : Nat) (f : Node → Node) :
    (s.modNode n f).channels = s.channels := rfl

@[simp] theorem State.modNode_timer (s : State) (n : Nat) (f : Node → Node) :
    (s.modNode n f).timer = s.timer := rfl

@[simp] theorem State.modNode_owed (s : State) (n : Nat) (f : Node → Node) :
    (s.modNode n f).owed = s.owed := rfl

@[simp] theorem State.modNode_align (s : State) (n : Nat) (f : Node → Node) :
    (s.modNode n f).align = s.align := rfl

@[simp] theorem State.modNode_loader (s : State) (n : Nat) (f : Node → Node) :
    (s.modNode n f).loader = s.loader := rfl

@[simp] theorem State.modNode_port (s : State) (n : Nat) (f : Node → Node) :
    (s.modNode n f).port = s.port := rfl

@[simp] theorem State.modNode_attention (s : State) (n : Nat) (f : Node → Node) :
    (s.modNode n f).attention = s.attention := rfl

/-! ### modProj -/

@[simp] theorem State.modProj_pending (s : State) (p : Slot) (f : Projector → Projector) :
    (s.modProj p f).pending = s.pending := rfl

@[simp] theorem State.modProj_dome (s : State) (p : Slot) (f : Projector → Projector) :
    (s.modProj p f).dome = s.dome := rfl

@[simp] theorem State.modProj_solver (s : State) (p : Slot) (f : Projector → Projector) :
    (s.modProj p f).solver = s.solver := rfl

@[simp] theorem State.modProj_edit (s : State) (p : Slot) (f : Projector → Projector) :
    (s.modProj p f).edit = s.edit := rfl

@[simp] theorem State.modProj_projectors (s : State) (p : Slot) (f : Projector → Projector) :
    (s.modProj p f).projectors = s.projectors.set p.val (f (s.proj p)) p.isLt := rfl

@[simp] theorem State.modProj_gain (s : State) (p : Slot) (f : Projector → Projector) :
    (s.modProj p f).gain = s.gain := rfl

@[simp] theorem State.modProj_raster (s : State) (p : Slot) (f : Projector → Projector) :
    (s.modProj p f).raster = s.raster := rfl

@[simp] theorem State.modProj_content (s : State) (p : Slot) (f : Projector → Projector) :
    (s.modProj p f).content = s.content := rfl

@[simp] theorem State.modProj_channels (s : State) (p : Slot) (f : Projector → Projector) :
    (s.modProj p f).channels = s.channels := rfl

@[simp] theorem State.modProj_timer (s : State) (p : Slot) (f : Projector → Projector) :
    (s.modProj p f).timer = s.timer := rfl

@[simp] theorem State.modProj_owed (s : State) (p : Slot) (f : Projector → Projector) :
    (s.modProj p f).owed = s.owed := rfl

@[simp] theorem State.modProj_align (s : State) (p : Slot) (f : Projector → Projector) :
    (s.modProj p f).align = s.align := rfl

@[simp] theorem State.modProj_loader (s : State) (p : Slot) (f : Projector → Projector) :
    (s.modProj p f).loader = s.loader := rfl

@[simp] theorem State.modProj_port (s : State) (p : Slot) (f : Projector → Projector) :
    (s.modProj p f).port = s.port := rfl

@[simp] theorem State.modProj_attention (s : State) (p : Slot) (f : Projector → Projector) :
    (s.modProj p f).attention = s.attention := rfl

/-! ### setClaimCount -/

@[simp] theorem State.setClaimCount_pending (s : State) (p : Slot) (k : Nat) :
    (s.setClaimCount p k).pending = s.pending := rfl

@[simp] theorem State.setClaimCount_dome (s : State) (p : Slot) (k : Nat) :
    (s.setClaimCount p k).dome = s.dome := rfl

@[simp] theorem State.setClaimCount_solver (s : State) (p : Slot) (k : Nat) :
    (s.setClaimCount p k).solver = s.solver := rfl

@[simp] theorem State.setClaimCount_edit (s : State) (p : Slot) (k : Nat) :
    (s.setClaimCount p k).edit = s.edit := rfl

@[simp] theorem State.setClaimCount_projectors (s : State) (p : Slot) (k : Nat) :
    (s.setClaimCount p k).projectors = s.projectors.set p.val { s.proj p with claimCount := k } p.isLt := rfl

@[simp] theorem State.setClaimCount_gain (s : State) (p : Slot) (k : Nat) :
    (s.setClaimCount p k).gain = s.gain := rfl

@[simp] theorem State.setClaimCount_raster (s : State) (p : Slot) (k : Nat) :
    (s.setClaimCount p k).raster = s.raster := rfl

@[simp] theorem State.setClaimCount_content (s : State) (p : Slot) (k : Nat) :
    (s.setClaimCount p k).content = s.content := rfl

@[simp] theorem State.setClaimCount_channels (s : State) (p : Slot) (k : Nat) :
    (s.setClaimCount p k).channels = s.channels := rfl

@[simp] theorem State.setClaimCount_timer (s : State) (p : Slot) (k : Nat) :
    (s.setClaimCount p k).timer = s.timer := rfl

@[simp] theorem State.setClaimCount_owed (s : State) (p : Slot) (k : Nat) :
    (s.setClaimCount p k).owed = s.owed := rfl

@[simp] theorem State.setClaimCount_align (s : State) (p : Slot) (k : Nat) :
    (s.setClaimCount p k).align = s.align := rfl

@[simp] theorem State.setClaimCount_loader (s : State) (p : Slot) (k : Nat) :
    (s.setClaimCount p k).loader = s.loader := rfl

@[simp] theorem State.setClaimCount_port (s : State) (p : Slot) (k : Nat) :
    (s.setClaimCount p k).port = s.port := rfl

@[simp] theorem State.setClaimCount_attention (s : State) (p : Slot) (k : Nat) :
    (s.setClaimCount p k).attention = s.attention := rfl

/-! ### setFailover -/

@[simp] theorem State.setFailover_pending (s : State) (p : Slot) (k : Nat) :
    (s.setFailover p k).pending = s.pending := rfl

@[simp] theorem State.setFailover_dome (s : State) (p : Slot) (k : Nat) :
    (s.setFailover p k).dome = s.dome := rfl

@[simp] theorem State.setFailover_solver (s : State) (p : Slot) (k : Nat) :
    (s.setFailover p k).solver = s.solver := rfl

@[simp] theorem State.setFailover_edit (s : State) (p : Slot) (k : Nat) :
    (s.setFailover p k).edit = s.edit := rfl

@[simp] theorem State.setFailover_projectors (s : State) (p : Slot) (k : Nat) :
    (s.setFailover p k).projectors = s.projectors.set p.val { s.proj p with failover := k } p.isLt := rfl

@[simp] theorem State.setFailover_gain (s : State) (p : Slot) (k : Nat) :
    (s.setFailover p k).gain = s.gain := rfl

@[simp] theorem State.setFailover_raster (s : State) (p : Slot) (k : Nat) :
    (s.setFailover p k).raster = s.raster := rfl

@[simp] theorem State.setFailover_content (s : State) (p : Slot) (k : Nat) :
    (s.setFailover p k).content = s.content := rfl

@[simp] theorem State.setFailover_channels (s : State) (p : Slot) (k : Nat) :
    (s.setFailover p k).channels = s.channels := rfl

@[simp] theorem State.setFailover_timer (s : State) (p : Slot) (k : Nat) :
    (s.setFailover p k).timer = s.timer := rfl

@[simp] theorem State.setFailover_owed (s : State) (p : Slot) (k : Nat) :
    (s.setFailover p k).owed = s.owed := rfl

@[simp] theorem State.setFailover_align (s : State) (p : Slot) (k : Nat) :
    (s.setFailover p k).align = s.align := rfl

@[simp] theorem State.setFailover_loader (s : State) (p : Slot) (k : Nat) :
    (s.setFailover p k).loader = s.loader := rfl

@[simp] theorem State.setFailover_port (s : State) (p : Slot) (k : Nat) :
    (s.setFailover p k).port = s.port := rfl

@[simp] theorem State.setFailover_attention (s : State) (p : Slot) (k : Nat) :
    (s.setFailover p k).attention = s.attention := rfl

/-! ### mapProj -/

@[simp] theorem State.mapProj_pending (s : State) (f : Projector → Projector) :
    (s.mapProj f).pending = s.pending := rfl

@[simp] theorem State.mapProj_dome (s : State) (f : Projector → Projector) :
    (s.mapProj f).dome = s.dome := rfl

@[simp] theorem State.mapProj_solver (s : State) (f : Projector → Projector) :
    (s.mapProj f).solver = s.solver := rfl

@[simp] theorem State.mapProj_edit (s : State) (f : Projector → Projector) :
    (s.mapProj f).edit = s.edit := rfl

@[simp] theorem State.mapProj_projectors (s : State) (f : Projector → Projector) :
    (s.mapProj f).projectors = s.projectors.map f := rfl

@[simp] theorem State.mapProj_gain (s : State) (f : Projector → Projector) :
    (s.mapProj f).gain = s.gain := rfl

@[simp] theorem State.mapProj_raster (s : State) (f : Projector → Projector) :
    (s.mapProj f).raster = s.raster := rfl

@[simp] theorem State.mapProj_content (s : State) (f : Projector → Projector) :
    (s.mapProj f).content = s.content := rfl

@[simp] theorem State.mapProj_channels (s : State) (f : Projector → Projector) :
    (s.mapProj f).channels = s.channels := rfl

@[simp] theorem State.mapProj_timer (s : State) (f : Projector → Projector) :
    (s.mapProj f).timer = s.timer := rfl

@[simp] theorem State.mapProj_owed (s : State) (f : Projector → Projector) :
    (s.mapProj f).owed = s.owed := rfl

@[simp] theorem State.mapProj_align (s : State) (f : Projector → Projector) :
    (s.mapProj f).align = s.align := rfl

@[simp] theorem State.mapProj_loader (s : State) (f : Projector → Projector) :
    (s.mapProj f).loader = s.loader := rfl

@[simp] theorem State.mapProj_port (s : State) (f : Projector → Projector) :
    (s.mapProj f).port = s.port := rfl

@[simp] theorem State.mapProj_attention (s : State) (f : Projector → Projector) :
    (s.mapProj f).attention = s.attention := rfl

/-! ### modChan -/

@[simp] theorem State.modChan_pending (s : State) (p : Slot) (f : Channel → Channel) :
    (s.modChan p f).pending = s.pending := rfl

@[simp] theorem State.modChan_dome (s : State) (p : Slot) (f : Channel → Channel) :
    (s.modChan p f).dome = s.dome := rfl

@[simp] theorem State.modChan_solver (s : State) (p : Slot) (f : Channel → Channel) :
    (s.modChan p f).solver = s.solver := rfl

@[simp] theorem State.modChan_edit (s : State) (p : Slot) (f : Channel → Channel) :
    (s.modChan p f).edit = s.edit := rfl

@[simp] theorem State.modChan_projectors (s : State) (p : Slot) (f : Channel → Channel) :
    (s.modChan p f).projectors = s.projectors := rfl

@[simp] theorem State.modChan_gain (s : State) (p : Slot) (f : Channel → Channel) :
    (s.modChan p f).gain = s.gain := rfl

@[simp] theorem State.modChan_raster (s : State) (p : Slot) (f : Channel → Channel) :
    (s.modChan p f).raster = s.raster := rfl

@[simp] theorem State.modChan_content (s : State) (p : Slot) (f : Channel → Channel) :
    (s.modChan p f).content = s.content := rfl

@[simp] theorem State.modChan_channels (s : State) (p : Slot) (f : Channel → Channel) :
    (s.modChan p f).channels = s.channels.set p.val (f (s.chan p)) p.isLt := rfl

@[simp] theorem State.modChan_timer (s : State) (p : Slot) (f : Channel → Channel) :
    (s.modChan p f).timer = s.timer := rfl

@[simp] theorem State.modChan_owed (s : State) (p : Slot) (f : Channel → Channel) :
    (s.modChan p f).owed = s.owed := rfl

@[simp] theorem State.modChan_align (s : State) (p : Slot) (f : Channel → Channel) :
    (s.modChan p f).align = s.align := rfl

@[simp] theorem State.modChan_loader (s : State) (p : Slot) (f : Channel → Channel) :
    (s.modChan p f).loader = s.loader := rfl

@[simp] theorem State.modChan_port (s : State) (p : Slot) (f : Channel → Channel) :
    (s.modChan p f).port = s.port := rfl

@[simp] theorem State.modChan_attention (s : State) (p : Slot) (f : Channel → Channel) :
    (s.modChan p f).attention = s.attention := rfl

/-! ### raise -/

@[simp] theorem State.raise_pending (s : State) (e : Event) :
    (s.raise e).pending = s.pending := rfl

@[simp] theorem State.raise_dome (s : State) (e : Event) :
    (s.raise e).dome = s.dome := rfl

@[simp] theorem State.raise_solver (s : State) (e : Event) :
    (s.raise e).solver = s.solver := rfl

@[simp] theorem State.raise_edit (s : State) (e : Event) :
    (s.raise e).edit = s.edit := rfl

@[simp] theorem State.raise_projectors (s : State) (e : Event) :
    (s.raise e).projectors = s.projectors := rfl

@[simp] theorem State.raise_gain (s : State) (e : Event) :
    (s.raise e).gain = s.gain := rfl

@[simp] theorem State.raise_raster (s : State) (e : Event) :
    (s.raise e).raster = s.raster := rfl

@[simp] theorem State.raise_content (s : State) (e : Event) :
    (s.raise e).content = s.content := rfl

@[simp] theorem State.raise_channels (s : State) (e : Event) :
    (s.raise e).channels = s.channels := rfl

@[simp] theorem State.raise_timer (s : State) (e : Event) :
    (s.raise e).timer = s.timer := rfl

@[simp] theorem State.raise_owed (s : State) (e : Event) :
    (s.raise e).owed = s.owed := rfl

@[simp] theorem State.raise_align (s : State) (e : Event) :
    (s.raise e).align = s.align := rfl

@[simp] theorem State.raise_loader (s : State) (e : Event) :
    (s.raise e).loader = s.loader := rfl

@[simp] theorem State.raise_port (s : State) (e : Event) :
    (s.raise e).port = s.port := rfl

@[simp] theorem State.raise_attention (s : State) (e : Event) :
    (s.raise e).attention = s.attention.set e.cls.val ((s.eventRecord e.cls).take e) e.cls.isLt := rfl

/-! ### mapEvents -/

@[simp] theorem State.mapEvents_pending (s : State) (f : Nat → EventRecord → EventRecord) :
    (s.mapEvents f).pending = s.pending := rfl

@[simp] theorem State.mapEvents_dome (s : State) (f : Nat → EventRecord → EventRecord) :
    (s.mapEvents f).dome = s.dome := rfl

@[simp] theorem State.mapEvents_solver (s : State) (f : Nat → EventRecord → EventRecord) :
    (s.mapEvents f).solver = s.solver := rfl

@[simp] theorem State.mapEvents_edit (s : State) (f : Nat → EventRecord → EventRecord) :
    (s.mapEvents f).edit = s.edit := rfl

@[simp] theorem State.mapEvents_projectors (s : State) (f : Nat → EventRecord → EventRecord) :
    (s.mapEvents f).projectors = s.projectors := rfl

@[simp] theorem State.mapEvents_gain (s : State) (f : Nat → EventRecord → EventRecord) :
    (s.mapEvents f).gain = s.gain := rfl

@[simp] theorem State.mapEvents_raster (s : State) (f : Nat → EventRecord → EventRecord) :
    (s.mapEvents f).raster = s.raster := rfl

@[simp] theorem State.mapEvents_content (s : State) (f : Nat → EventRecord → EventRecord) :
    (s.mapEvents f).content = s.content := rfl

@[simp] theorem State.mapEvents_channels (s : State) (f : Nat → EventRecord → EventRecord) :
    (s.mapEvents f).channels = s.channels := rfl

@[simp] theorem State.mapEvents_timer (s : State) (f : Nat → EventRecord → EventRecord) :
    (s.mapEvents f).timer = s.timer := rfl

@[simp] theorem State.mapEvents_owed (s : State) (f : Nat → EventRecord → EventRecord) :
    (s.mapEvents f).owed = s.owed := rfl

@[simp] theorem State.mapEvents_align (s : State) (f : Nat → EventRecord → EventRecord) :
    (s.mapEvents f).align = s.align := rfl

@[simp] theorem State.mapEvents_loader (s : State) (f : Nat → EventRecord → EventRecord) :
    (s.mapEvents f).loader = s.loader := rfl

@[simp] theorem State.mapEvents_port (s : State) (f : Nat → EventRecord → EventRecord) :
    (s.mapEvents f).port = s.port := rfl

@[simp] theorem State.mapEvents_attention (s : State) (f : Nat → EventRecord → EventRecord) :
    (s.mapEvents f).attention = s.attention.mapIdx f := rfl

/-! ### setApplyResult -/

@[simp] theorem State.setApplyResult_pending (s : State) (r : ApplyResult) :
    (s.setApplyResult r).pending = s.pending := rfl

@[simp] theorem State.setApplyResult_dome (s : State) (r : ApplyResult) :
    (s.setApplyResult r).dome = s.dome := rfl

@[simp] theorem State.setApplyResult_solver (s : State) (r : ApplyResult) :
    (s.setApplyResult r).solver = s.solver := rfl

@[simp] theorem State.setApplyResult_edit (s : State) (r : ApplyResult) :
    (s.setApplyResult r).edit = s.edit := rfl

@[simp] theorem State.setApplyResult_projectors (s : State) (r : ApplyResult) :
    (s.setApplyResult r).projectors = s.projectors := rfl

@[simp] theorem State.setApplyResult_gain (s : State) (r : ApplyResult) :
    (s.setApplyResult r).gain = s.gain := rfl

@[simp] theorem State.setApplyResult_raster (s : State) (r : ApplyResult) :
    (s.setApplyResult r).raster = s.raster := rfl

@[simp] theorem State.setApplyResult_content (s : State) (r : ApplyResult) :
    (s.setApplyResult r).content = s.content := rfl

@[simp] theorem State.setApplyResult_channels (s : State) (r : ApplyResult) :
    (s.setApplyResult r).channels = s.channels := rfl

@[simp] theorem State.setApplyResult_timer (s : State) (r : ApplyResult) :
    (s.setApplyResult r).timer = s.timer := rfl

@[simp] theorem State.setApplyResult_owed (s : State) (r : ApplyResult) :
    (s.setApplyResult r).owed = s.owed := rfl

@[simp] theorem State.setApplyResult_align (s : State) (r : ApplyResult) :
    (s.setApplyResult r).align = s.align := rfl

@[simp] theorem State.setApplyResult_loader (s : State) (r : ApplyResult) :
    (s.setApplyResult r).loader = { s.loader with applyResult := r } := rfl

@[simp] theorem State.setApplyResult_port (s : State) (r : ApplyResult) :
    (s.setApplyResult r).port = s.port := rfl

@[simp] theorem State.setApplyResult_attention (s : State) (r : ApplyResult) :
    (s.setApplyResult r).attention = s.attention := rfl

end Sys2Proof.Machine
end

