-- ==== Sys2Proof/Laws/Ops.lean ====
section
/-! SUPPORT. Reading a record after a change of it, what raising an event does, and what a fetch asks for: lemmas of
Machine/Ops.lean and Machine/Pacing.lean. -/

namespace Sys2Proof.Machine

/-! ### Node records -/

/-- Reading a node after a node's record was replaced. -/
@[simp] theorem node_putNode (s : State) (n m : Nat) (r : Node) :
    (s.putNode n r).node m = if m = n then r else s.node m := by
  simp [State.node, Sparse.get_put]

/-- Reading a node after a node's record was changed. -/
@[simp] theorem node_modNode (s : State) (n m : Nat) (f : Node → Node) :
    (s.modNode n f).node m = if m = n then f (s.node n) else s.node m := by
  simp [State.modNode]

/-- A node's record depends on the Dome Map's store alone. -/
theorem node_congr {s t : State} (h : s.dome.nodes = t.dome.nodes) (n : Nat) : s.node n = t.node n := by
  simp [State.node, h]

@[simp] theorem node_setPort (s : State) (p : ControlPort) (n : Nat) : (s.setPort p).node n = s.node n := rfl
@[simp] theorem node_setSolver (s : State) (v : Solver) (n : Nat) : (s.setSolver v).node n = s.node n := rfl
@[simp] theorem node_setEdit (s : State) (e : EditControl) (n : Nat) : (s.setEdit e).node n = s.node n := rfl
@[simp] theorem node_setTimer (s : State) (t : FrameTimer) (n : Nat) : (s.setTimer t).node n = s.node n := rfl
@[simp] theorem node_setAlign (s : State) (a : AlignPort) (n : Nat) : (s.setAlign a).node n = s.node n := rfl
@[simp] theorem node_setLoader (s : State) (l : Loader) (n : Nat) : (s.setLoader l).node n = s.node n := rfl
@[simp] theorem node_setFree (s : State) (k n : Nat) : (s.setFree k).node n = s.node n := rfl
@[simp] theorem node_setPending (s : State) (cs : List Instr) (n : Nat) : (s.setPending cs).node n = s.node n := rfl
@[simp] theorem node_modProj (s : State) (p : Slot) (f : Projector → Projector) (n : Nat) :
    (s.modProj p f).node n = s.node n := rfl
@[simp] theorem node_setClaimCount (s : State) (p : Slot) (k n : Nat) : (s.setClaimCount p k).node n = s.node n := rfl
@[simp] theorem node_setFailover (s : State) (p : Slot) (k n : Nat) : (s.setFailover p k).node n = s.node n := rfl
@[simp] theorem node_mapProj (s : State) (f : Projector → Projector) (n : Nat) : (s.mapProj f).node n = s.node n := rfl
@[simp] theorem node_modChan (s : State) (p : Slot) (f : Channel → Channel) (n : Nat) :
    (s.modChan p f).node n = s.node n := rfl
@[simp] theorem node_raise (s : State) (e : Event) (n : Nat) : (s.raise e).node n = s.node n := rfl

/-! ### Projector records -/

/-- Reading a slot's record after a slot's record was changed. -/
@[simp] theorem proj_modProj (s : State) (p q : Slot) (f : Projector → Projector) :
    (s.modProj p f).proj q = if q = p then f (s.proj p) else s.proj q := by
  simp only [State.proj, State.modProj_projectors, Vector.get_eq_getElem, Vector.getElem_set]
  by_cases h : q = p
  · subst h; simp
  · have : p.val ≠ q.val := fun e => h (Fin.ext e.symm)
    simp [h, this]

/-- Reading a slot's record after every record was changed. -/
@[simp] theorem proj_mapProj (s : State) (f : Projector → Projector) (q : Slot) :
    (s.mapProj f).proj q = f (s.proj q) := by
  simp [State.proj, Vector.get_eq_getElem]

@[simp] theorem proj_setClaimCount (s : State) (p q : Slot) (k : Nat) :
    (s.setClaimCount p k).proj q = if q = p then { s.proj p with claimCount := k } else s.proj q :=
  proj_modProj s p q _

@[simp] theorem proj_setFailover (s : State) (p q : Slot) (k : Nat) :
    (s.setFailover p k).proj q = if q = p then { s.proj p with failover := k } else s.proj q :=
  proj_modProj s p q _

/-- A slot's record depends on the Projector Table alone. -/
theorem proj_congr {s t : State} (h : s.projectors = t.projectors) (p : Slot) : s.proj p = t.proj p := by
  simp [State.proj, h]

@[simp] theorem proj_setPort (s : State) (c : ControlPort) (p : Slot) : (s.setPort c).proj p = s.proj p := rfl
@[simp] theorem proj_setSolver (s : State) (v : Solver) (p : Slot) : (s.setSolver v).proj p = s.proj p := rfl
@[simp] theorem proj_setEdit (s : State) (e : EditControl) (p : Slot) : (s.setEdit e).proj p = s.proj p := rfl
@[simp] theorem proj_setTimer (s : State) (t : FrameTimer) (p : Slot) : (s.setTimer t).proj p = s.proj p := rfl
@[simp] theorem proj_setAlign (s : State) (a : AlignPort) (p : Slot) : (s.setAlign a).proj p = s.proj p := rfl
@[simp] theorem proj_setLoader (s : State) (l : Loader) (p : Slot) : (s.setLoader l).proj p = s.proj p := rfl
@[simp] theorem proj_setFree (s : State) (k : Nat) (p : Slot) : (s.setFree k).proj p = s.proj p := rfl
@[simp] theorem proj_setPending (s : State) (cs : List Instr) (p : Slot) : (s.setPending cs).proj p = s.proj p := rfl
@[simp] theorem proj_putNode (s : State) (n : Nat) (r : Node) (p : Slot) : (s.putNode n r).proj p = s.proj p := rfl
@[simp] theorem proj_modNode (s : State) (n : Nat) (f : Node → Node) (p : Slot) :
    (s.modNode n f).proj p = s.proj p := rfl
@[simp] theorem proj_modChan (s : State) (q : Slot) (f : Channel → Channel) (p : Slot) :
    (s.modChan q f).proj p = s.proj p := rfl
@[simp] theorem proj_raise (s : State) (e : Event) (p : Slot) : (s.raise e).proj p = s.proj p := rfl

/-! ### Channels -/

/-- Reading a channel after a channel was changed. -/
@[simp] theorem chan_modChan (s : State) (p q : Slot) (f : Channel → Channel) :
    (s.modChan p f).chan q = if q = p then f (s.chan p) else s.chan q := by
  simp only [State.chan, State.modChan_channels, Vector.get_eq_getElem, Vector.getElem_set]
  by_cases h : q = p
  · subst h; simp
  · have : p.val ≠ q.val := fun e => h (Fin.ext e.symm)
    simp [h, this]

/-- An event of a synthesizer's start is taken exactly when that start is the channel's last. -/
@[simp] theorem Channel.current_iff (c : Channel) (start : Nat) : c.current start = true ↔ start = c.starts :=
  beq_iff_eq

/-- Once the synthesizer has been restarted, no event of the starts before is taken (R126). -/
theorem Channel.restarted_discards (c : Channel) {start : Nat} (h : start ≤ c.starts) :
    c.restarted.current start = false := by
  simp only [Channel.current, Channel.restarted, beq_eq_false_iff_ne]
  omega

/-- A channel depends on the Output Channels alone. -/
theorem chan_congr {s t : State} (h : s.channels = t.channels) (p : Slot) : s.chan p = t.chan p := by
  simp [State.chan, h]

@[simp] theorem chan_setPort (s : State) (c : ControlPort) (p : Slot) : (s.setPort c).chan p = s.chan p := rfl
@[simp] theorem chan_setSolver (s : State) (v : Solver) (p : Slot) : (s.setSolver v).chan p = s.chan p := rfl
@[simp] theorem chan_setEdit (s : State) (e : EditControl) (p : Slot) : (s.setEdit e).chan p = s.chan p := rfl
@[simp] theorem chan_setTimer (s : State) (t : FrameTimer) (p : Slot) : (s.setTimer t).chan p = s.chan p := rfl
@[simp] theorem chan_setAlign (s : State) (a : AlignPort) (p : Slot) : (s.setAlign a).chan p = s.chan p := rfl
@[simp] theorem chan_setLoader (s : State) (l : Loader) (p : Slot) : (s.setLoader l).chan p = s.chan p := rfl
@[simp] theorem chan_setFree (s : State) (k : Nat) (p : Slot) : (s.setFree k).chan p = s.chan p := rfl
@[simp] theorem chan_setPending (s : State) (cs : List Instr) (p : Slot) : (s.setPending cs).chan p = s.chan p := rfl
@[simp] theorem chan_putNode (s : State) (n : Nat) (r : Node) (p : Slot) : (s.putNode n r).chan p = s.chan p := rfl
@[simp] theorem chan_modNode (s : State) (n : Nat) (f : Node → Node) (p : Slot) :
    (s.modNode n f).chan p = s.chan p := rfl
@[simp] theorem chan_modProj (s : State) (q : Slot) (f : Projector → Projector) (p : Slot) :
    (s.modProj q f).chan p = s.chan p := rfl
@[simp] theorem chan_mapProj (s : State) (f : Projector → Projector) (p : Slot) : (s.mapProj f).chan p = s.chan p := rfl
@[simp] theorem chan_raise (s : State) (e : Event) (p : Slot) : (s.raise e).chan p = s.chan p := rfl

/-! ### Events -/

/-- What a class holds after a raising: the raised class takes the event, every other class is as it was (R192). -/
@[simp] theorem eventRecord_raise (s : State) (e : Event) (k : ClassNumber) :
    (s.raise e).eventRecord k = if k = e.cls then (s.eventRecord k).take e else s.eventRecord k := by
  simp only [State.eventRecord, State.raise_attention, Vector.get_eq_getElem, Vector.getElem_set]
  by_cases h : k = e.cls
  · subst h; simp
  · have : e.cls.val ≠ k.val := fun c => h (Fin.ext c.symm)
    simp [h, this]

/-- What a class holds after every class record was changed. -/
@[simp] theorem eventRecord_mapEvents (s : State) (f : Nat → EventRecord → EventRecord) (k : ClassNumber) :
    (s.mapEvents f).eventRecord k = f k.val (s.eventRecord k) := by
  simp [State.eventRecord, Vector.get_eq_getElem]

/-- A raising sets the status of its class and no mask (R192). -/
theorem take_status_mask (r : EventRecord) (e : Event) : (r.take e).status = true ∧ (r.take e).mask = r.mask := by
  cases h : r.status <;> simp [EventRecord.take, h]

/-! ### Slots -/

/-- The list of slots holds every slot. -/
theorem mem_slots (p : Slot) : p ∈ slots := by revert p; decide

/-- A byte below 16 names its slot. -/
theorem slotOf_val (p : Slot) : slotOf p.val = some p := by simp [slotOf]

/-- A value above 15 names no slot. -/
theorem slotOf_eq_none {b : Nat} : slotOf b = none ↔ 16 ≤ b := by
  unfold slotOf; split <;> simp <;> omega

/-! ### Packaged induction over a list of steps -/

/-- A property that every step of a fold keeps holds after the fold. -/
theorem foldl_keeps {α β : Type} (P : β → Prop) (f : β → α → β) (hf : ∀ b a, P b → P (f b a)) :
    ∀ (l : List α) (b : β), P b → P (l.foldl f b)
  | [], _, h => h
  | a :: l, b, h => foldl_keeps P f hf l (f b a) (hf b a h)

/-- The same, where a step keeps the property only at members of the list. -/
theorem foldl_keeps_mem {α β : Type} (P : β → Prop) (f : β → α → β) :
    ∀ (l : List α), (∀ b, ∀ a ∈ l, P b → P (f b a)) → ∀ b : β, P b → P (l.foldl f b)
  | [], _, _, h => h
  | a :: l, hf, b, h =>
    foldl_keeps_mem P f l (fun c x hx => hf c x (List.mem_cons_of_mem a hx)) (f b a) (hf b a List.mem_cons_self h)

/-! ### What a fetch asks of the Memory Port -/

@[simp] theorem recordAddresses_length (start size : Nat) : (recordAddresses start size).length = size := by
  simp [recordAddresses]

/-- Byte `i` of a record stands `i` addresses after the first, past the last address at address 0 and on. -/
theorem recordAddresses_getElem? (start size i : Nat) (h : i < size) :
    (recordAddresses start size)[i]? = some ((start + i) % Config.addressSpace) := by
  simp [recordAddresses, h]

/-- A record that ends by the last address is asked for at rising addresses. -/
theorem recordAddresses_of_le (start size : Nat) (h : start + size ≤ Config.addressSpace) :
    recordAddresses start size = List.range' start size := by
  rw [recordAddresses, List.range'_eq_map_range]
  exact List.map_congr_left fun i hi => Nat.mod_eq_of_lt (by have := List.mem_range.mp hi; omega)

@[simp] theorem asked_beginFetch (l : Loader) : l.beginFetch.asked = match l.descriptor with
    | some d => recordAddresses l.nextAddress d.format.size
    | none => [] := by
  unfold Loader.asked Loader.beginFetch
  cases l.descriptor <;> rfl

theorem asked_of_fetch {l : Loader} {f : Fetch} {d : Descriptor} (hf : l.fetch = some f) (hd : l.descriptor = some d) :
    l.asked = recordAddresses f.address d.format.size := by
  simp [Loader.asked, hf, hd]

theorem asked_of_no_fetch {l : Loader} (h : l.fetch = none) : l.asked = [] := by simp [Loader.asked, h]

end Sys2Proof.Machine
end

