-- ==== Sys2Proof/Laws/Touches.lean ====
section
/-! SUPPORT. The frame of every shared operation, said once: `Touches fs s t` says that `t` agrees with `s` on every field
of State outside the list `fs`. -/

namespace Sys2Proof.Machine

set_option Elab.async false

/-- The fields of State. -/
inductive Field where
  | pending | dome | solver | edit | projectors | gain | raster | content | channels | timer | owed | align | loader
  | port | attention
  deriving DecidableEq, Repr

/-- Every field of the first list is in the second. -/
def Field.sub (as fs : List Field) : Bool := as.all fun f => fs.contains f

theorem Field.mem_of_sub {as fs : List Field} (h : Field.sub as fs = true) {f : Field} (hf : f ∈ as) : f ∈ fs := by
  simp only [Field.sub, List.all_eq_true, List.contains_iff_mem] at h
  exact h f hf

/-- Two states agree on a field. -/
def Field.agree (s t : State) : Field → Prop
  | .pending => t.pending = s.pending
  | .dome => t.dome = s.dome
  | .solver => t.solver = s.solver
  | .edit => t.edit = s.edit
  | .projectors => t.projectors = s.projectors
  | .gain => t.gain = s.gain
  | .raster => t.raster = s.raster
  | .content => t.content = s.content
  | .channels => t.channels = s.channels
  | .timer => t.timer = s.timer
  | .owed => t.owed = s.owed
  | .align => t.align = s.align
  | .loader => t.loader = s.loader
  | .port => t.port = s.port
  | .attention => t.attention = s.attention

/-- The second state agrees with the first on every field outside the list. -/
def Touches (fs : List Field) (s t : State) : Prop := ∀ f, f ∉ fs → f.agree s t

namespace Touches

variable {fs as bs : List Field} {s t u : State}

/-- Nothing is touched by no change. -/
theorem refl (fs : List Field) (s : State) : Touches fs s s := fun f _ => by cases f <;> rfl

/-- A longer list allows more. -/
theorem mono (h : Touches as s t) (hs : Field.sub as fs = true := by rfl) : Touches fs s t := fun f hf =>
  h f fun ha => hf (Field.mem_of_sub hs ha)

/-- One change after another. -/
theorem trans (h1 : Touches fs s t) (h2 : Touches fs t u) : Touches fs s u := fun f hf => by
  have a := h1 f hf
  have b := h2 f hf
  cases f <;> exact b.trans a

/-- One change after another, the lists widened. -/
theorem andThen (h1 : Touches as s t) (h2 : Touches bs t u) (ha : Field.sub as fs = true := by rfl) (hb : Field.sub bs fs = true := by rfl) :
    Touches fs s u :=
  (h1.mono ha).trans (h2.mono hb)

/-- The changes of a fold. -/
theorem foldl {α : Type} (g : State → α → State) (h : ∀ s a, Touches fs s (g s a)) (l : List α) (s : State) :
    Touches fs s (l.foldl g s) :=
  foldl_keeps (fun t => Touches fs s t) g (fun t a ht => ht.trans (h t a)) l s (refl fs s)

/-- A change made under a condition. -/
theorem ite {c : Prop} [Decidable c] (h1 : Touches fs s t) (h2 : Touches fs s u) :
    Touches fs s (if c then t else u) := by split <;> assumption

theorem pending (h : Touches fs s t) (hf : fs.contains Field.pending = false := by rfl) : t.pending = s.pending :=
  h .pending (by simpa using hf)
theorem dome (h : Touches fs s t) (hf : fs.contains Field.dome = false := by rfl) : t.dome = s.dome :=
  h .dome (by simpa using hf)
theorem solver (h : Touches fs s t) (hf : fs.contains Field.solver = false := by rfl) : t.solver = s.solver :=
  h .solver (by simpa using hf)
theorem edit (h : Touches fs s t) (hf : fs.contains Field.edit = false := by rfl) : t.edit = s.edit :=
  h .edit (by simpa using hf)
theorem projectors (h : Touches fs s t) (hf : fs.contains Field.projectors = false := by rfl) : t.projectors = s.projectors :=
  h .projectors (by simpa using hf)
theorem gain (h : Touches fs s t) (hf : fs.contains Field.gain = false := by rfl) : t.gain = s.gain :=
  h .gain (by simpa using hf)
theorem raster (h : Touches fs s t) (hf : fs.contains Field.raster = false := by rfl) : t.raster = s.raster :=
  h .raster (by simpa using hf)
theorem content (h : Touches fs s t) (hf : fs.contains Field.content = false := by rfl) : t.content = s.content :=
  h .content (by simpa using hf)
theorem channels (h : Touches fs s t) (hf : fs.contains Field.channels = false := by rfl) : t.channels = s.channels :=
  h .channels (by simpa using hf)
theorem timer (h : Touches fs s t) (hf : fs.contains Field.timer = false := by rfl) : t.timer = s.timer :=
  h .timer (by simpa using hf)
theorem owed (h : Touches fs s t) (hf : fs.contains Field.owed = false := by rfl) : t.owed = s.owed :=
  h .owed (by simpa using hf)
theorem align (h : Touches fs s t) (hf : fs.contains Field.align = false := by rfl) : t.align = s.align :=
  h .align (by simpa using hf)
theorem loader (h : Touches fs s t) (hf : fs.contains Field.loader = false := by rfl) : t.loader = s.loader :=
  h .loader (by simpa using hf)
theorem port (h : Touches fs s t) (hf : fs.contains Field.port = false := by rfl) : t.port = s.port :=
  h .port (by simpa using hf)
theorem attention (h : Touches fs s t) (hf : fs.contains Field.attention = false := by rfl) : t.attention = s.attention :=
  h .attention (by simpa using hf)

end Touches

/-! ### The updates of one field -/

theorem setPort_touches (s : State) (p : ControlPort) : Touches [.port] s (s.setPort p) :=
  fun f hf => by cases f <;> first | rfl | simp at hf
theorem setSolver_touches (s : State) (v : Solver) : Touches [.solver] s (s.setSolver v) :=
  fun f hf => by cases f <;> first | rfl | simp at hf
theorem setEdit_touches (s : State) (e : EditControl) : Touches [.edit] s (s.setEdit e) :=
  fun f hf => by cases f <;> first | rfl | simp at hf
theorem setTimer_touches (s : State) (t : FrameTimer) : Touches [.timer] s (s.setTimer t) :=
  fun f hf => by cases f <;> first | rfl | simp at hf
theorem setAlign_touches (s : State) (a : AlignPort) : Touches [.align] s (s.setAlign a) :=
  fun f hf => by cases f <;> first | rfl | simp at hf
theorem setLoader_touches (s : State) (l : Loader) : Touches [.loader] s (s.setLoader l) :=
  fun f hf => by cases f <;> first | rfl | simp at hf
theorem setFree_touches (s : State) (k : Nat) : Touches [.dome] s (s.setFree k) :=
  fun f hf => by cases f <;> first | rfl | simp at hf
theorem putNode_touches (s : State) (n : Nat) (r : Node) : Touches [.dome] s (s.putNode n r) :=
  fun f hf => by cases f <;> first | rfl | simp at hf
theorem modNode_touches (s : State) (n : Nat) (g : Node → Node) : Touches [.dome] s (s.modNode n g) :=
  putNode_touches s n _
theorem modProj_touches (s : State) (p : Slot) (g : Projector → Projector) : Touches [.projectors] s (s.modProj p g) :=
  fun f hf => by cases f <;> first | rfl | simp at hf
theorem mapProj_touches (s : State) (g : Projector → Projector) : Touches [.projectors] s (s.mapProj g) :=
  fun f hf => by cases f <;> first | rfl | simp at hf
theorem modChan_touches (s : State) (p : Slot) (g : Channel → Channel) : Touches [.channels] s (s.modChan p g) :=
  fun f hf => by cases f <;> first | rfl | simp at hf
theorem raise_touches (s : State) (e : Event) : Touches [.attention] s (s.raise e) :=
  fun f hf => by cases f <;> first | rfl | simp at hf
theorem mapEvents_touches (s : State) (g : Nat → EventRecord → EventRecord) : Touches [.attention] s (s.mapEvents g) :=
  fun f hf => by cases f <;> first | rfl | simp at hf

/-! ### The Weight Solver -/

theorem queueNode_touches (cls : QueueClass) (n : Nat) (s : State) :
    Touches [.dome, .solver] s (queueNode cls n s) := by
  unfold queueNode
  split
  all_goals first
    | exact (setSolver_touches _ _).andThen (modNode_touches _ _ _)
    | exact Touches.refl _ _

theorem memberLost_touches (s : State) : Touches [.edit] s (memberLost s) := setEdit_touches _ _

theorem memberGained_touches (s : State) : Touches [.edit] s (memberGained s) := setEdit_touches _ _

theorem hardInvalidate_touches (cls : QueueClass) (n : Nat) (s : State) :
    Touches [.dome, .solver, .edit] s (hardInvalidate cls n s) := by
  have h : Touches [.dome, .solver, .edit] s (queueNode cls n (s.modNode n Node.invalidated)) :=
    (modNode_touches _ _ _).andThen (queueNode_touches _ _ _)
  exact Touches.ite (h.andThen (memberLost_touches _)) h

theorem invalidateUnqueued_touches (n : Nat) (s : State) : Touches [.dome] s (invalidateUnqueued n s) :=
  modNode_touches _ _ _

theorem softRefresh_touches (n : Nat) (s : State) : Touches [.dome, .solver] s (softRefresh n s) :=
  queueNode_touches _ _ _

theorem invalidateAll_touches (cls : QueueClass) (ns : List Nat) (s : State) :
    Touches [.dome, .solver, .edit] s (invalidateAll cls ns s) :=
  Touches.foldl _ (fun t n => hardInvalidate_touches cls n t) ns s

theorem refreshAll_touches (ns : List Nat) (s : State) : Touches [.dome, .solver] s (refreshAll ns s) :=
  Touches.foldl _ (fun t n => softRefresh_touches n t) ns s

theorem refreshClaimed_touches (p : Slot) (s : State) : Touches [.dome, .solver] s (refreshClaimed p s) :=
  refreshAll_touches _ _

theorem invalidateClaimed_touches (p : Slot) (s : State) : Touches [.dome, .solver, .edit] s (invalidateClaimed p s) :=
  invalidateAll_touches _ _ _

theorem startSolve_touches (s : State) : Touches [.dome, .solver] s (startSolve s) := by
  unfold startSolve
  split
  all_goals first
    | exact (setSolver_touches _ _).andThen (modNode_touches _ _ _)
    | exact Touches.refl _ _

theorem finishSolve_touches (f : Flight) (s : State) :
    Touches [.dome, .solver, .edit, .attention] s (finishSolve f s) := by
  have h (g : Node → Node) : Touches [.dome, .solver, .edit, .attention] s
      ((s.setSolver { s.solver with flight := none }).modNode f.node g) :=
    (setSolver_touches _ _).andThen (modNode_touches _ _ _)
  have hv : Touches [.dome, .solver, .edit, .attention] s
      (if (s.node f.node).groupMark && !(s.node f.node).nextValid then
        memberGained ((s.setSolver { s.solver with flight := none }).modNode f.node (Node.stored f))
      else (s.setSolver { s.solver with flight := none }).modNode f.node (Node.stored f)) :=
    Touches.ite ((h _).andThen (memberGained_touches _)) (h _)
  exact Touches.ite (h _) (Touches.ite (hv.andThen (raise_touches _ _)) hv)

/-! ### Gains -/

theorem raiseLimits_touches (ps : List Slot) (s : State) : Touches [.attention] s (raiseLimits ps s) :=
  Touches.foldl _ (fun _ _ => Touches.ite (raise_touches _ _) (Touches.refl _ _)) ps s

theorem recomputeGains_touches (s : State) : Touches [.projectors, .attention] s (recomputeGains s) :=
  (mapProj_touches _ _).andThen (raiseLimits_touches _ _)

theorem storeLuminance_touches (p : Slot) (v : Nat) (s : State) :
    Touches [.projectors, .attention] s (storeLuminance p v s) :=
  (modProj_touches _ _ _).andThen (recomputeGains_touches _)

theorem slewGains_touches (s : State) : Touches [.projectors] s (slewGains s) := mapProj_touches _ _

/-! ### Pacing -/

theorem fetchDecision_touches (c : Bool) (s : State) : Touches [.loader] s (fetchDecision c s) := setLoader_touches _ _

theorem releaseLoader_touches (c : Bool) (s : State) : Touches [.loader] s (releaseLoader c s) :=
  (setLoader_touches _ _).trans (fetchDecision_touches _ _)

theorem reportYield_touches (s : State) : Touches [.loader] s (reportYield s) :=
  Touches.ite (releaseLoader_touches _ _) (Touches.refl _ _)

/-! ### Claims -/

theorem lowerFailover_touches (p : Slot) (s : State) :
    Touches [.projectors, .attention, .loader] s (lowerFailover p s) :=
  have h : Touches [.projectors, .attention, .loader] s (s.setFailover p ((s.proj p).failover - 1)) :=
    (modProj_touches _ _ _).mono
  Touches.ite (Touches.refl _ _)
    (Touches.ite (h.andThen ((raise_touches _ _).andThen (fs := [.attention, .loader]) (reportYield_touches _))) h)

theorem oweFailover_touches (p : Slot) (s : State) : Touches [.projectors, .attention] s (oweFailover p s) :=
  have h : Touches [.projectors, .attention] s (s.setFailover p (s.proj p).claimCount) := (modProj_touches _ _ _).mono
  Touches.ite (h.andThen (raise_touches _ _)) h

theorem countFreed_touches (p : Slot) (s : State) : Touches [.dome, .projectors] s (countFreed p s) :=
  (setFree_touches _ _).andThen (modProj_touches _ _ _)

theorem freeClaim_touches (p : Slot) (n : Nat) (s : State) :
    Touches [.dome, .projectors, .attention, .loader] s (freeClaim p n s) :=
  ((modNode_touches _ _ _).andThen (fs := [.dome, .projectors]) (countFreed_touches _ _)).andThen
    (lowerFailover_touches _ _)

theorem allocateClaim_touches (c : Claim) (n : Nat) (s : State) :
    Touches [.dome, .projectors] s (allocateClaim c n s) :=
  ((modNode_touches _ _ _).trans (setFree_touches _ _)).andThen (modProj_touches _ _ _)

/-! ### Channels -/

theorem stopStream_touches (p : Slot) (s : State) : Touches [.raster] s (stopStream p s) :=
  fun f hf => by cases f <;> first | rfl | simp at hf

theorem beginSequence_touches (p : Slot) (s : State) : Touches [.channels] s (beginSequence p s) :=
  modChan_touches _ _ _

theorem turnOff_touches (p : Slot) (s : State) : Touches [.raster, .channels] s (turnOff p s) :=
  (modChan_touches _ _ _).andThen (stopStream_touches _ _)

/-! ### The Projector Table -/

theorem emptySlot_touches (p : Slot) (s : State) :
    Touches [.projectors, .raster, .channels, .loader, .attention] s (emptySlot p s) :=
  have h : Touches [.projectors, .raster, .channels, .loader, .attention] s
      ((recomputeGains (turnOff p (s.modProj p Projector.emptied))).raise (.fadeDone p true)) :=
    ((modProj_touches _ _ _).andThen (fs := [.projectors, .raster, .channels]) (turnOff_touches _ _)).andThen
      ((recomputeGains_touches _).andThen (fs := [.projectors, .attention]) (raise_touches _ _))
  Touches.ite (h.andThen (reportYield_touches _)) h

theorem emptyIfDone_touches (p : Slot) (s : State) :
    Touches [.projectors, .raster, .channels, .loader, .attention] s (emptyIfDone p s) :=
  Touches.ite (emptySlot_touches _ _) (Touches.refl _ _)

theorem withdrawAt_touches (p : Slot) (s : State) (n : Nat) :
    Touches [.dome, .projectors, .attention, .loader] s (withdrawAt p s n) := by
  unfold withdrawAt
  split
  · exact Touches.refl _ _
  · exact Touches.ite (freeClaim_touches _ _ _) (modNode_touches _ _ _).mono

/-- The fields that the projector path may change: everything but the queue, the gain settings, the Content Input, the
Frame Timer, the deliveries owed, the Alignment Port and the Control Port. -/
abbrev Field.inner : List Field := [.dome, .solver, .edit, .projectors, .raster, .channels, .loader, .attention]

theorem enterRetiring_touches (p : Slot) (s : State) : Touches Field.inner s (enterRetiring p s) := by
  have ht : Touches Field.inner s ((s.claimNodes p).foldl (withdrawAt p) (s.modProj p Projector.retired)) :=
    (modProj_touches _ _ _).andThen (Touches.foldl _ (withdrawAt_touches p) _ _)
  have hu := ht.andThen (fs := Field.inner) (invalidateAll_touches .urgent (s.claimNodes p) _)
  exact (Touches.ite (c := (s.proj p).state.contributing = true) (hu.andThen (recomputeGains_touches _)) hu).andThen
    (emptyIfDone_touches _ _)

theorem enterFailed_touches (p : Slot) (cause : FailCause) (s : State) :
    Touches [.dome, .solver, .edit, .projectors, .attention] s (enterFailed p cause s) := by
  have ht : Touches [.dome, .solver, .edit, .projectors, .attention] s
      ((s.modProj p fun r => r.failedWith cause).raise (.projFault p cause)) :=
    (modProj_touches _ _ _).andThen (raise_touches _ _)
  exact Touches.ite
    (ht.andThen ((oweFailover_touches _ _).andThen (fs := [.dome, .solver, .edit, .projectors, .attention])
      ((invalidateClaimed_touches _ _).andThen (fs := [.dome, .solver, .edit, .projectors, .attention])
        (recomputeGains_touches _)))) ht

theorem failRetiring_touches (p : Slot) (cause : FailCause) (s : State) :
    Touches Field.inner s (failRetiring p cause s) :=
  ((oweFailover_touches _ _).andThen (fs := [.projectors, .attention]) (raise_touches _ _)).andThen
    (enterRetiring_touches _ _)

theorem failContributing_touches (p : Slot) (cause : FailCause) (s : State) :
    Touches Field.inner s (failContributing p cause s) :=
  Touches.ite (failRetiring_touches _ _ _) (enterFailed_touches _ _ _).mono

theorem replaceCause_touches (p : Slot) (cause : FailCause) (s : State) :
    Touches [.projectors, .attention] s (replaceCause p cause s) :=
  (modProj_touches _ _ _).andThen (raise_touches _ _)

theorem takeFaultStart_touches (p : Slot) (s : State) : Touches Field.inner s (takeFaultStart p s) := by
  unfold takeFaultStart
  split
  · exact Touches.refl _ _
  · exact Touches.ite (enterFailed_touches _ _ _).mono (raise_touches _ _).mono
  · exact Touches.ite (failContributing_touches _ _ _) (raise_touches _ _).mono
  · exact Touches.ite (failContributing_touches _ _ _) (raise_touches _ _).mono
  · exact Touches.ite (failContributing_touches _ _ _) (raise_touches _ _).mono
  · exact (replaceCause_touches _ _ _).mono
  · exact (raise_touches _ _).mono

theorem takeLockFault_touches (p : Slot) (cause : FailCause) (s : State) :
    Touches Field.inner s (takeLockFault p cause s) := by
  unfold takeLockFault
  split
  · exact Touches.refl _ _
  · exact (enterFailed_touches _ _ _).mono
  · exact failContributing_touches _ _ _
  · exact failContributing_touches _ _ _
  · exact failContributing_touches _ _ _
  · exact (replaceCause_touches _ _ _).mono
  · exact (raise_touches _ _).mono

theorem recoveryCheck_touches (p : Slot) (s : State) : Touches [.projectors, .attention] s (recoveryCheck p s) :=
  Touches.ite ((modProj_touches _ _ _).andThen (raise_touches _ _)) (Touches.refl _ _)

theorem startFade_touches (p : Slot) (st : ProjState) (f : Fade) (s : State) :
    Touches [.dome, .solver, .projectors, .attention] s (startFade p st f s) := by
  have h : Touches [.dome, .solver, .projectors, .attention] s
      (refreshClaimed p (s.modProj p fun r => { r with state := st, fade := some f })) :=
    (modProj_touches _ _ _).andThen (refreshClaimed_touches _ _)
  exact Touches.ite (h.andThen (recomputeGains_touches _)) h

theorem cutIn_touches (p : Slot) (s : State) :
    Touches [.dome, .solver, .projectors, .attention] s (cutIn p s) := by
  have h : Touches [.dome, .solver, .projectors, .attention] s
      (refreshClaimed p (s.modProj p fun r => { r with state := .live, phi := 256, fade := none })) :=
    (modProj_touches _ _ _).andThen (refreshClaimed_touches _ _)
  exact Touches.ite (h.andThen (recomputeGains_touches _)) h

theorem cutOut_touches (p : Slot) (s : State) :
    Touches [.dome, .solver, .edit, .projectors, .attention] s (cutOut p s) :=
  ((modProj_touches _ _ _).andThen (fs := [.dome, .solver, .edit, .projectors]) (invalidateClaimed_touches _ _)).andThen
    (recomputeGains_touches _)

theorem startFadeOut_touches (p : Slot) (start length : Nat) (ra : Bool) (s : State) :
    Touches [.dome, .solver, .projectors, .attention] s (startFadeOut p start length ra s) := startFade_touches _ _ _ _

theorem startFadeIn_touches (p : Slot) (start length : Nat) (s : State) :
    Touches [.dome, .solver, .projectors, .attention] s (startFadeIn p start length s) := startFade_touches _ _ _ _

theorem completeFade_touches (p : Slot) (f : Fade) (s : State) : Touches Field.inner s (completeFade p f s) := by
  have h : Touches Field.inner s ((s.modProj p fun r => { r with fade := none }).raise (.fadeDone p false)) :=
    (modProj_touches _ _ _).andThen (raise_touches _ _)
  exact Touches.ite (h.andThen (modProj_touches _ _ _))
    (Touches.ite (h.trans (enterRetiring_touches _ _))
      (h.andThen ((modProj_touches _ _ _).andThen (fs := [.projectors, .attention]) (recomputeGains_touches _))))

theorem fadeStepOf_touches (p : Slot) (s : State) : Touches Field.inner s (fadeStepOf p s) := by
  unfold fadeStepOf
  split
  · exact Touches.refl _ _
  · next f _ =>
    have h : Touches Field.inner s (refreshClaimed p (s.modProj p fun r =>
        { r with fade := some { f with elapsed := f.elapsed + 1 }, phi := { f with elapsed := f.elapsed + 1 }.phi })) :=
      (modProj_touches _ _ _).andThen (refreshClaimed_touches _ _)
    exact Touches.ite (h.trans (completeFade_touches _ _ _)) h

theorem fadeStepSlot_touches (s : State) (p : Slot) : Touches Field.inner s (fadeStepSlot s p) :=
  (fadeStepOf_touches _ _).andThen (startSolve_touches _)

theorem enrol_touches (p : Slot) (w h ramp clock : Nat) (auto : Bool) (s : State) :
    Touches [.projectors, .channels] s (enrol p w h ramp clock auto s) :=
  ((modProj_touches _ _ _).andThen (fs := [.projectors, .channels]) (beginSequence_touches _ _)).andThen
    (modChan_touches _ _ _)

theorem retire_touches (p : Slot) (length : Nat) (s : State) : Touches Field.inner s (retire p length s) := by
  unfold retire
  split
  · exact enterRetiring_touches _ _
  · exact enterRetiring_touches _ _
  · exact Touches.ite (enterRetiring_touches _ _) (startFadeOut_touches _ _ _ _ _).mono
  · exact Touches.ite (enterRetiring_touches _ _) (startFadeOut_touches _ _ _ _ _).mono
  · exact (modProj_touches _ _ _).mono
  · exact Touches.refl _ _
  · exact Touches.refl _ _

theorem setRamp_touches (p : Slot) (ramp : Nat) (s : State) :
    Touches [.dome, .solver, .projectors] s (setRamp p ramp s) :=
  (modProj_touches _ _ _).andThen (refreshClaimed_touches _ _)

/-! ### Edit Control -/

theorem openNode_touches (n : Nat) (s : State) : Touches [.dome] s (openNode n s) := modNode_touches _ _ _

theorem placeClaim_touches (n : Nat) (p : Slot) (q : Pos) (pin : PinField) (s : State) :
    Touches [.dome, .projectors] s (placeClaim n p q pin s).1 := by
  unfold placeClaim
  split
  · exact (modNode_touches _ _ _).andThen (openNode_touches _ _)
  · split
    · exact Touches.refl _ _
    · split
      · exact Touches.refl _ _
      · exact (allocateClaim_touches _ _ _).andThen (openNode_touches _ _)

theorem editSetClaim_touches (node : Option Nat) (slot : Nat) (q : Pos) (pin : PinField) (s : State) :
    Touches [.dome, .projectors] s (editSetClaim node slot q pin s).1 := by
  unfold editSetClaim
  split
  · exact Touches.refl _ _
  · split
    · exact Touches.refl _ _
    · repeat' split
      all_goals first
        | exact Touches.refl _ _
        | exact placeClaim_touches _ _ _ _ _

theorem removeClaim_touches (n : Nat) (p : Slot) (c : Claim) (s : State) :
    Touches [.dome, .projectors, .attention, .loader] s (removeClaim n p c s).1 := by
  unfold removeClaim
  split
  · exact (freeClaim_touches _ _ _).andThen (openNode_touches _ _)
  · exact (modNode_touches _ _ _).andThen (openNode_touches _ _)

theorem editDropClaim_touches (node : Option Nat) (slot : Nat) (s : State) :
    Touches [.dome, .projectors, .attention, .loader] s (editDropClaim node slot s).1 := by
  unfold editDropClaim
  repeat' split
  all_goals first
    | exact removeClaim_touches _ _ _ _
    | exact Touches.refl _ _

theorem sealNode_touches (s : State) (n : Nat) : Touches [.dome, .solver, .edit] s (sealNode s n) :=
  (modNode_touches _ _ _).andThen (hardInvalidate_touches _ _ _)

theorem sealOpenSet_touches (s : State) : Touches [.dome, .solver, .edit] s (sealOpenSet s) :=
  (Touches.foldl _ sealNode_touches _ _).andThen (setEdit_touches _ _)

theorem applyEdits_touches (s : State) : Touches [.dome, .solver, .edit] s (applyEdits s).1 := by
  unfold applyEdits
  split
  · split
    · exact Touches.refl _ _
    · exact sealOpenSet_touches _
  · exact Touches.refl _ _

theorem takeApplyWaiting_touches (s : State) : Touches [.dome, .solver, .edit] s (takeApplyWaiting s).1 := by
  unfold takeApplyWaiting
  split
  · have h := (setEdit_touches s { s.edit with applyWaiting := false }).andThen (fs := [.dome, .solver, .edit])
      (applyEdits_touches _)
    split <;> (next e => rw [e] at h; exact h)
  · exact Touches.refl _ _

theorem dissolveGroup_touches (s : State) : Touches [.edit] s (dissolveGroup s) := setEdit_touches _ _

theorem withdrawNode_touches (s : State) (n : Nat) : Touches [.dome] s (withdrawNode s n) :=
  (modNode_touches _ _ _).trans (invalidateUnqueued_touches _ _)

theorem withdrawGroup_touches (s : State) : Touches [.dome, .solver, .edit] s (withdrawGroup s).1 := by
  have h : Touches [.dome, .solver, .edit] s (dissolveGroup (s.group.foldl withdrawNode s)) :=
    (Touches.foldl _ withdrawNode_touches s.group s).andThen (dissolveGroup_touches _)
  simp only [withdrawGroup]
  exact h.trans (takeApplyWaiting_touches _)

theorem discardNode_touches (s : State) (n : Nat) :
    Touches [.dome, .projectors, .attention, .loader] s (discardNode s n) :=
  (Touches.foldl _ (fun u p => freeClaim_touches p n u) _ _).andThen (modNode_touches _ _ _)

theorem discardEdits_touches (s : State) : Touches [.dome, .projectors, .attention, .loader] s (discardEdits s) :=
  Touches.foldl _ discardNode_touches _ _

/-! ### The swap -/

/-- The fields that the swap of one node may change. -/
abbrev Field.swapped : List Field := [.dome, .projectors, .raster, .channels, .loader, .attention]

theorem freeAtSwap_touches (s : State) (p : Slot) : Touches Field.swapped s (freeAtSwap s p) :=
  (countFreed_touches _ _).andThen (emptyIfDone_touches _ _)

theorem reportSwap_touches (n : Nat) (old new : Node) (leaves : Claim → Bool) (s : State) :
    Touches Field.swapped s (reportSwap n old new leaves s) := by
  have h : Touches Field.swapped s
      (if new.condition = .dark ∧ old.condition ≠ .dark then s.raise (.darkNode n) else s) :=
    Touches.ite (raise_touches _ _).mono (Touches.refl _ _)
  exact (h.andThen (Touches.foldl _ (fun v p => lowerFailover_touches p v) _ _)).trans
    (Touches.foldl _ freeAtSwap_touches _ _)

theorem singleSwap_touches (n : Nat) (s : State) : Touches Field.swapped s (singleSwap n s) :=
  (putNode_touches _ _ _).andThen (reportSwap_touches _ _ _ _ _)

theorem groupSwap_touches (n : Nat) (s : State) : Touches Field.swapped s (groupSwap n s) :=
  (putNode_touches _ _ _).andThen (reportSwap_touches _ _ _ _ _)

theorem swapNode_touches (ready : Bool) (s : State) (n : Nat) : Touches Field.swapped s (swapNode ready s n) := by
  unfold swapNode
  dsimp only
  repeat' split
  all_goals first
    | exact groupSwap_touches _ _
    | exact singleSwap_touches _ _
    | exact Touches.refl _ _

theorem finishGroup_touches (members : Nat) (s : State) :
    Touches [.dome, .solver, .edit, .attention] s (finishGroup members s) :=
  ((dissolveGroup_touches _).andThen (fs := [.edit, .attention]) (raise_touches _ _)).andThen
    (takeApplyWaiting_touches _)

theorem swapAll_touches (s : State) : Touches Field.inner s (swapAll s) := by
  have h : Touches Field.inner s (nodeIndices.foldl (swapNode (s.edit.groupState == .ready)) s) :=
    (Touches.foldl _ (swapNode_touches _) _ _).mono
  exact Touches.ite (h.andThen ((finishGroup_touches _ _).andThen (fs := [.dome, .solver, .edit, .attention])
    (startSolve_touches _))) h

/-! ### The Dome Map's requests -/

theorem advance_touches (s : State) : Touches [.dome] s s.advance :=
  fun f hf => by cases f <;> first | rfl | simp at hf

theorem placeCursor_touches (s : State) (n : Nat) : Touches [.dome] s (s.placeCursor n) :=
  fun f hf => by cases f <;> first | rfl | simp at hf

theorem emptyMap_touches (s : State) : Touches [.dome, .solver, .edit, .projectors] s (emptyMap s) :=
  fun f hf => by cases f <;> first | rfl | simp at hf

theorem clearMap_touches (s : State) : Touches Field.inner s (clearMap s) := by
  have h : Touches Field.inner s (slots.foldl (fun u p => emptyIfDone p u) (emptyMap s)) :=
    (emptyMap_touches _).andThen (Touches.foldl _ (fun u p => emptyIfDone_touches p u) _ _)
  exact Touches.ite (h.andThen (reportYield_touches _)) h

/-! ### The channels' events -/

theorem lockLoss_touches (p : Slot) (s : State) : Touches Field.inner s (lockLoss p s) :=
  Touches.ite (takeLockFault_touches _ _ _)
    ((takeLockFault_touches _ _ _).andThen
      ((stopStream_touches _ _).andThen (fs := [.raster, .channels]) (beginSequence_touches _ _)))

theorem lockFailure_touches (p : Slot) (s : State) : Touches Field.inner s (lockFailure p s) :=
  ((modChan_touches _ _ _).andThen (fs := Field.inner) (takeLockFault_touches _ _ _)).andThen (raise_touches _ _)

theorem attemptFails_touches (p : Slot) (s : State) : Touches Field.inner s (attemptFails p s) :=
  Touches.ite (modChan_touches _ _ _).mono (lockFailure_touches _ _)

/-- A fall of the lock indication ends an attempt, is a lock loss, or changes nothing (R126). -/
theorem takeFall_touches (p : Slot) (s : State) : Touches Field.inner s (takeFall p s) := by
  unfold takeFall
  split
  · exact (attemptFails_touches _ _).andThen (startSolve_touches _)
  · exact (lockLoss_touches _ _).andThen (startSolve_touches _)
  all_goals exact Touches.refl _ _

theorem attemptPasses_touches (p : Slot) (s : State) :
    Touches [.projectors, .channels, .attention] s (attemptPasses p s) :=
  (modChan_touches _ _ _).andThen (recoveryCheck_touches _ _)

theorem takeLevel_touches (p : Slot) (level : ReadyLevel) (s : State) : Touches Field.inner s (takeLevel p level s) := by
  unfold takeLevel
  dsimp only
  split
  · split
    · exact (modChan_touches _ _ _).andThen (takeFaultStart_touches _ _)
    · exact (modChan_touches _ _ _).andThen (recoveryCheck_touches _ _)
  · exact (modChan_touches _ _ _).mono

/-! ### The Mesh Loader -/

theorem renewQuota_touches (s : State) : Touches [.loader] s (renewQuota s) :=
  Touches.ite ((setLoader_touches _ _).trans (releaseLoader_touches _ _)) (setLoader_touches _ _)

theorem endFaulted_touches (o : LoadOutcome) (r : FaultReason) (s : State) :
    Touches [.loader, .attention] s (endFaulted o r s) :=
  (setLoader_touches _ _).andThen (raise_touches _ _)

theorem applyAtEnd_touches (s : State) : Touches [.dome, .solver, .edit, .loader] s (applyAtEnd s) := by
  have h := (applyEdits_touches s).mono (fs := [.dome, .solver, .edit, .loader])
  unfold applyAtEnd
  split
  · next e => rw [e] at h; exact h.andThen (setLoader_touches _ _)
  · next e => rw [e] at h; exact h.andThen (setLoader_touches _ _)
  · next e =>
    rw [e] at h
    exact h.andThen ((setEdit_touches _ _).andThen (fs := [.edit, .loader]) (setLoader_touches _ _))

/-- The fields that the end of a load may change. -/
abbrev Field.loaded : List Field := [.dome, .solver, .edit, .loader, .attention]

theorem endDone_touches (o : LoadOutcome) (s : State) : Touches Field.loaded s (endDone o s) :=
  (Touches.ite (c := s.loader.wantsApply = true)
    ((setLoader_touches s _).andThen (fs := Field.loaded) (applyAtEnd_touches _))
    (setLoader_touches s _).mono).andThen (raise_touches _ _)

theorem recordStored_touches (d : Descriptor) (s : State) : Touches Field.loaded s (recordStored d s) := by
  have h : Touches Field.loaded s (s.setLoader (s.loader.counted d.format.size)) := (setLoader_touches _ _).mono
  exact Touches.ite (h.trans (endDone_touches _ _)) (h.andThen (fetchDecision_touches _ _))

theorem takeRecord_touches (d : Descriptor) (m : MeshRecord) (s : State) :
    Touches (.projectors :: Field.loaded) s (takeRecord d m s) := by
  unfold takeRecord
  split
  · next slot ring sector q pin =>
    have h := editSetClaim_touches (resolveNode ring sector) slot q pin s
    split
    · next e => rw [e] at h; exact h.andThen (recordStored_touches _ _)
    · exact (endFaulted_touches _ _ _).mono
  · next slot ring sector =>
    have h := editDropClaim_touches (resolveNode ring sector) slot s
    split
    · next e => rw [e] at h; exact h.andThen (recordStored_touches _ _)
    · exact (endFaulted_touches _ _ _).mono
  · exact Touches.ite (endDone_touches _ _).mono (recordStored_touches _ _).mono
  · exact (endFaulted_touches _ _ _).mono

theorem completeFetch_touches (d : Descriptor) (result : FetchResult) (s : State) :
    Touches (.projectors :: Field.loaded) s (completeFetch d result s) := by
  unfold completeFetch
  split
  · exact takeRecord_touches _ _ _
  · exact (endFaulted_touches _ _ _).mono
  · exact (endFaulted_touches _ _ _).mono

/-! ### The Frame Timer -/

theorem boundary_touches (s : State) : Touches [.timer, .owed] s (boundary s) :=
  fun f hf => by cases f <;> first | rfl | simp at hf

theorem acquire_touches (time measured : Nat) (s : State) :
    Touches [.timer, .owed, .attention] s (acquire time measured s) :=
  ((setTimer_touches _ _).andThen (fs := [.timer, .owed]) (boundary_touches _)).andThen (raise_touches _ _)

theorem searchPulse_touches (time : Nat) (s : State) :
    Touches [.timer, .owed, .attention] s (searchPulse time s) := by
  have h (run : List Nat) : Touches [.timer, .owed, .attention] s (s.setRun run) := (setTimer_touches _ _).mono
  unfold searchPulse
  split
  · exact h _
  · exact Touches.ite (h _) (h _)
  · exact Touches.ite (Touches.ite (acquire_touches _ _ _) (h _)) (h _)

theorem followPulse_touches (time : Nat) (s : State) : Touches [.timer, .owed] s (followPulse time s) :=
  Touches.ite (Touches.refl _ _) ((setTimer_touches _ _).andThen (boundary_touches _))

/-! ### The Alignment Port -/

theorem takeDiscard_touches (flags : ErrorSet) (s : State) : Touches [.align, .attention] s (takeDiscard flags s) := by
  unfold takeDiscard
  split <;> exact (setAlign_touches _ _).andThen (raise_touches _ _)

theorem loseByte_touches (s : State) : Touches [.align, .attention] s (loseByte s) := by
  unfold loseByte
  dsimp only
  split <;> exact (setAlign_touches _ _).andThen (raise_touches _ _)

theorem offerByte_touches (e : FifoEntry) (s : State) : Touches [.align, .attention] s (offerByte e s) :=
  Touches.ite (takeDiscard_touches _ _) (Touches.ite (setAlign_touches _ _).mono (loseByte_touches _))

theorem offerReport_touches (r : Report) (s : State) : Touches [.align, .attention] s (offerReport r s) :=
  Touches.ite (setAlign_touches _ _).mono (takeDiscard_touches _ _)

theorem advanceReport_touches (r : PartialReport) (s : State) : Touches [.align, .attention] s (advanceReport r s) :=
  Touches.ite (setAlign_touches _ _).mono (Touches.ite (takeDiscard_touches _ _) (offerReport_touches _ _))

theorem assemble_touches (e : FifoEntry) (s : State) : Touches [.align, .attention] s (assemble e s) := by
  unfold assemble
  split
  · exact Touches.ite (setAlign_touches _ _).mono (takeDiscard_touches _ _)
  · refine Touches.ite (takeDiscard_touches _ _) ?_
    split
    · exact advanceReport_touches _ _
    · exact takeDiscard_touches _ _
  · exact advanceReport_touches _ _

/-! ### The Report Executor -/

theorem correctClaim_touches (n : Nat) (p : Slot) (c : Claim) (du dv : Int) (s : State) :
    Touches [.dome, .solver, .edit, .attention] s (correctClaim n p c du dv s) := by
  have h : Touches [.dome, .solver, .edit, .attention] s (hardInvalidate .normal n
      (s.modNode n fun r => r.modClaim p fun d => { d with nextTrim := some (c.drifted du dv) })) :=
    (modNode_touches _ _ _).andThen (hardInvalidate_touches _ _ _)
  exact (Touches.ite (c := c.driftSaturates du dv = true) (h.andThen (raise_touches _ (.trimLimit n))) h).andThen
    (startSolve_touches _)

theorem applyDrift_touches (projector ring sector : Byte) (du dv : Int) (s : State) :
    Touches [.dome, .solver, .edit, .attention] s (applyDrift projector ring sector du dv s).1 := by
  unfold applyDrift
  split
  · exact Touches.refl _ _
  · exact correctClaim_touches _ _ _ _ _ _

theorem applyLuma_touches (projector : Byte) (v : Nat) (s : State) :
    Touches [.projectors, .attention] s (applyLuma projector v s).1 := by
  unfold applyLuma
  split
  · exact Touches.refl _ _
  · split
    · exact Touches.refl _ _
    · dsimp only
      exact storeLuminance_touches _ _ _

theorem applyStep_touches (s : State) : Touches [.loader] s (applyStep s).1 := by
  unfold applyStep
  split
  · exact releaseLoader_touches _ _
  · exact Touches.refl _ _

/-! ### The Raster Engine and the Control Port -/

theorem startFrame_touches (s : State) : Touches [.raster, .timer, .owed] s (startFrame s) :=
  fun f hf => by cases f <;> first | rfl | simp at hf

theorem sendPixel_touches (p : Slot) (s : State) : Touches [.raster] s (sendPixel p s) := by
  unfold sendPixel
  split
  · dsimp only
    split
    · exact fun f hf => by cases f <;> first | rfl | simp at hf
    · exact Touches.refl _ _
  · exact Touches.refl _ _

theorem malformedUnit_touches (s : State) : Touches [.port, .attention] s (malformedUnit s) :=
  (setPort_touches _ _).andThen (raise_touches _ _)

theorem disregardedByte_touches (s : State) : Touches [.port] s (disregardedByte s) :=
  Touches.ite (setPort_touches _ _) (Touches.refl _ _)

theorem offerRequest_touches (r : Request) (s : State) : Touches [.port, .attention] s (offerRequest r s) :=
  Touches.ite (setPort_touches _ _).mono (raise_touches _ _).mono

theorem takeHeader_touches (b : Byte) (s : State) : Touches [.port, .attention] s (takeHeader b s) := by
  unfold takeHeader
  dsimp only
  repeat' split
  all_goals first
    | exact (setPort_touches _ _).mono
    | exact (setPort_touches _ _).andThen (malformedUnit_touches _)

theorem takePayload_touches (q : PartialRequest) (length : Nat) (b : Byte) (s : State) :
    Touches [.port, .attention] s (takePayload q length b s) := by
  unfold takePayload
  dsimp only
  repeat' split
  all_goals first
    | exact (setPort_touches _ _).mono
    | exact (setPort_touches _ _).andThen (offerRequest_touches _ _)

theorem sendReplyByte_touches (f : FetchProgress) (s : State) : Touches [.port] s (sendReplyByte f s) := by
  unfold sendReplyByte
  dsimp only
  repeat' split
  all_goals exact setPort_touches _ _

theorem reply_touches (s : State) (tag : Byte) (a : Answer) : Touches [.port] s (s.reply tag a) := setPort_touches _ _

/-- A request's step touches the port and what the request itself touches (R188, R189). -/
theorem runRequest_touches {fs : List Field} (code : Nat) (run : Request → State → State × Answer)
    (h : ∀ r t, Touches fs t (run r t).1) (s : State) :
    Touches (.port :: fs) s (runRequest code run s) := by
  have hp (p : ControlPort) : Touches (.port :: fs) s (s.setPort p) :=
    (setPort_touches _ _).mono (by simp [Field.sub])
  have hr (t : State) (tag : Byte) (a : Answer) : Touches (.port :: fs) t (t.reply tag a) :=
    (reply_touches _ _ _).mono (by simp [Field.sub])
  have hrun (r : Request) (t : State) : Touches (.port :: fs) t (run r t).1 := 
    (h r t).mono (by simpa [Field.sub] using fun x hx => Or.inr hx)
  unfold runRequest
  split
  · exact Touches.refl _ _
  · next r t e =>
    have ht : Touches (.port :: fs) s t := by
      unfold State.takeRequest at e
      split at e
      · exact absurd e (by simp)
      · split at e
        · obtain ⟨-, rfl⟩ := Prod.mk.inj (Option.some.inj e); exact hp _
        · exact absurd e (by simp)
    repeat' split
    all_goals first
      | exact ht.trans (hr _ _ _)
      | exact (ht.trans (hrun _ _)).trans (hr _ _ _)
      | exact Touches.refl _ _

end Sys2Proof.Machine
end

