-- ==== Sys2Proof/Laws/Exec.lean ====
section
/-! SUPPORT. What each command can change, said once for every command: `exec_touches`. -/

namespace Sys2Proof.Machine

set_option Elab.async false

/-- The fields of State that a command can change. -/
def commandFields : Instr → List Field
  | .resetLine | .resetDevice =>
    [.dome, .solver, .edit, .projectors, .gain, .raster, .content, .channels, .timer, .owed, .align, .loader, .port,
      .attention]
  | .selectAssert | .replyByte => [.port]
  | .unitHeader _ | .requestLength _ | .requestPayloadByte _ | .selectRelease => [.port, .attention]
  | .readNode | .placeCursor | .setWalk => [.port, .dome]
  | .readPoint | .readSolver | .readGains | .readFrame | .readAlignStatus | .readLoader | .readEvents
  | .unknownCode => [.port]
  | .clearMap => .port :: Field.inner
  | .setClaim => [.port, .dome, .projectors]
  | .dropClaim => [.port, .dome, .projectors, .attention, .loader]
  | .applyEdits | .withdrawEdits => [.port, .dome, .solver, .edit]
  | .discardEdits => [.port, .dome, .projectors, .attention, .loader]
  | .enrolProjector => [.port, .projectors, .channels]
  | .fadeProjector => [.port, .dome, .solver, .edit, .projectors, .attention, .raster, .channels, .loader]
  | .retireProjector => .port :: Field.inner
  | .setRamp => [.port, .dome, .solver, .projectors]
  | .readProjector => [.port, .channels]
  | .setGainFloor => [.port, .gain, .projectors, .attention]
  | .setGainSlew => [.port, .gain]
  | .restartOutput => .port :: Field.inner
  | .setFramePeriod => [.port, .timer]
  | .setAlignLink | .clearAlignErrors | .resetAlignReceiver => [.port, .align]
  | .loadMesh | .stopLoad | .resumeLoad | .resetLoader => [.port, .loader]
  | .clearEvents | .setEventMask => [.port, .attention]
  | .periodTimerExpiry => [.timer, .owed]
  | .genlockPulse _ | .lossWatchdogExpiry => [.timer, .owed, .attention]
  | .swap | .fadeStep => .owed :: Field.inner
  | .gainSlew => [.owed, .projectors]
  | .quotaRenewal => [.owed, .loader]
  | .rasterFrameStart => [.raster, .timer, .owed]
  | .sendPixel _ => [.raster]
  | .domeFrameComplete _ | .domeFrameBadCount _ | .contentSignalLost | .contentSignalReturn => [.content]
  | .solveCompletion => [.dome, .solver, .edit, .attention]
  | .synthStartCompletion _ | .lockIndicationRise _ | .readyRawChange _ _ => [.channels]
  | .lockIndicationFall _ | .lockTimeout _ | .windowCompletion _ _ | .debounceExpiry _ => Field.inner
  | .byteCompletion _ _ _ | .lineIdle | .lineBreak | .assemblerTake => [.align, .attention]
  | .driftReport => [.align, .dome, .solver, .edit, .attention]
  | .lumaReport => [.align, .projectors, .attention]
  | .stepReport => [.align, .loader]
  | .fetchCompletion _ _ => [.dome, .solver, .edit, .projectors, .loader, .attention]

theorem setOwed_touches (s : State) (o : Owed) : Touches [.owed] s { s with owed := o } :=
  fun f hf => by cases f <;> first | rfl | simp at hf

theorem setGain_touches (s : State) (g : GainSettings) : Touches [.gain] s { s with gain := g } :=
  fun f hf => by cases f <;> first | rfl | simp at hf

theorem setContent_touches (s : State) (c : Content) : Touches [.content] s { s with content := c } :=
  fun f hf => by cases f <;> first | rfl | simp at hf

theorem setDome_touches (s : State) (d : DomeMap) : Touches [.dome] s { s with dome := d } :=
  fun f hf => by cases f <;> first | rfl | simp at hf

theorem afterReset_touches (s : State) :
    Touches [.dome, .solver, .edit, .projectors, .gain, .raster, .content, .channels, .timer, .owed, .align, .loader,
      .port, .attention] s (afterReset s) :=
  fun f hf => by cases f <;> first | rfl | simp at hf

theorem setFloor_touches (k : Nat) (s : State) : Touches [.gain, .projectors, .attention] s (setFloor k s) :=
  ((setGain_touches s _).andThen (fs := [.gain, .projectors]) (mapProj_touches _ _)).andThen (recomputeGains_touches _)

/-- A request that names a slot changes what it changes for that slot. -/
theorem withSlot_touches {fs : List Field} (b : Nat) (s : State) (run : Slot → State × Answer)
    (h : ∀ p, Touches fs s (run p).1) : Touches fs s (withSlot b s run).1 := by
  unfold withSlot
  split
  · exact Touches.refl _ _
  · exact h _

/-- The Report Executor's step touches the Alignment Port and what the report touches (R159). -/
theorem runReport_touches {fs : List Field} (apply : Report → State → Option (State × ReportOutcome))
    (h : ∀ r t u o, apply r t = some (u, o) → Touches (.align :: fs) t u) (s : State) :
    Touches (.align :: fs) s (runReport apply s) := by
  have ha (t : State) (a : AlignPort) : Touches (.align :: fs) t (t.setAlign a) :=
    (setAlign_touches _ _).mono (by simp [Field.sub])
  unfold runReport
  split
  · exact Touches.refl _ _
  · split
    · exact Touches.refl _ _
    · next e => exact ((ha _ _).trans (h _ _ _ _ e)).trans (ha _ _)

theorem fadeIn_touches {p : Slot} {n : Nat} {s t : State} (h : fadeIn p n s = some t) :
    Touches [.dome, .solver, .projectors, .attention] s t := by
  have hf (k : Nat) : Touches [.dome, .solver, .projectors, .attention] s
      (if n = 0 then cutIn p s else startFadeIn p k n s) :=
    Touches.ite (cutIn_touches _ _) (startFadeIn_touches _ _ _ _)
  unfold fadeIn at h
  cases hs : (s.proj p).state <;> rw [hs] at h <;> dsimp only at h
  case parked =>
    by_cases hl : (s.chan p).lock = .locked
    · rw [if_pos hl] at h; obtain rfl := Option.some.inj h; exact hf _
    · rw [if_neg hl] at h; exact absurd h (by simp)
  case fadingIn => obtain rfl := Option.some.inj h; exact hf _
  case fadingOut =>
    by_cases hl : s.retireFade p = true
    · rw [if_pos hl] at h; exact absurd h (by simp)
    · rw [if_neg hl] at h; obtain rfl := Option.some.inj h; exact hf _
  case live => obtain rfl := Option.some.inj h; exact Touches.refl _ _
  all_goals exact absurd h (by simp)

theorem fadeOut_touches {p : Slot} {n : Nat} {s t : State} (h : fadeOut p n s = some t) :
    Touches Field.inner s t := by
  have hf (k : Nat) : Touches Field.inner s (if n = 0 then cutOut p s else startFadeOut p k n false s) :=
    Touches.ite (cutOut_touches _ _).mono (startFadeOut_touches _ _ _ _ _).mono
  have hr (k : Nat) : Touches Field.inner s (if n = 0 then enterRetiring p s else startFadeOut p k n true s) :=
    Touches.ite (enterRetiring_touches _ _) (startFadeOut_touches _ _ _ _ _).mono
  unfold fadeOut at h
  cases hs : (s.proj p).state <;> rw [hs] at h <;> dsimp only at h
  case live => obtain rfl := Option.some.inj h; exact hf _
  case fadingIn => obtain rfl := Option.some.inj h; exact hf _
  case fadingOut => obtain rfl := Option.some.inj h; exact Touches.ite (hr _) (hf _)
  case parked => obtain rfl := Option.some.inj h; exact Touches.refl _ _
  all_goals exact absurd h (by simp)

/-! ### The request meanings -/

theorem setClaimRequest_touches (r : Request) (s : State) :
    Touches [.dome, .projectors] s (setClaimRequest r s).1 := by
  unfold setClaimRequest
  dsimp only
  split
  · exact (editSetClaim_touches _ _ _ _ _).mono
  · exact (editSetClaim_touches _ _ _ _ _).andThen (advance_touches _)

theorem dropClaimRequest_touches (r : Request) (s : State) :
    Touches [.dome, .projectors, .attention, .loader] s (dropClaimRequest r s).1 := by
  have h := (editDropClaim_touches (resolveNode (byteAt r.fields 0) (byteAt r.fields 1)) (byteAt r.fields 2) s).mono
    (fs := [.dome, .projectors, .attention, .loader])
  unfold dropClaimRequest
  split <;> (next e => rw [e] at h; exact h)

theorem applyEditsRequest_touches (r : Request) (s : State) :
    Touches [.dome, .solver, .edit] s (applyEditsRequest r s).1 := by
  have h := (applyEdits_touches s).mono (fs := [.dome, .solver, .edit])
  unfold applyEditsRequest
  split
  · next e => rw [e] at h; exact h.andThen (startSolve_touches _)
  · next e => rw [e] at h; exact h

theorem withdrawEditsRequest_touches (r : Request) (s : State) :
    Touches [.dome, .solver, .edit] s (withdrawEditsRequest r s).1 := by
  unfold withdrawEditsRequest
  split
  · exact Touches.refl _ _
  · dsimp only
    exact (withdrawGroup_touches s).andThen (startSolve_touches _)

theorem enrolRequest_touches (r : Request) (s : State) :
    Touches [.projectors, .channels] s (enrolRequest r s).1 := by
  refine withSlot_touches _ _ _ fun p => ?_
  split
  · dsimp only; exact (enrol_touches _ _ _ _ _ _ _).mono
  · exact Touches.refl _ _

theorem fadeRequest_touches (r : Request) (s : State) : Touches Field.inner s (fadeRequest r s).1 := by
  refine withSlot_touches _ _ _ fun p => ?_
  dsimp only
  split
  · exact Touches.refl _ _
  · split
    · exact Touches.refl _ _
    · next t e =>
      dsimp only
      split at e
      · exact (fadeIn_touches e).andThen (startSolve_touches _)
      · exact (fadeOut_touches e).andThen (startSolve_touches _)

theorem retireRequest_touches (r : Request) (s : State) : Touches Field.inner s (retireRequest r s).1 := by
  refine withSlot_touches _ _ _ fun p => ?_
  split
  · exact Touches.refl _ _
  · dsimp only; exact (retire_touches _ _ _).andThen (startSolve_touches _)

theorem setRampRequest_touches (r : Request) (s : State) :
    Touches [.dome, .solver, .projectors] s (setRampRequest r s).1 := by
  refine withSlot_touches _ _ _ fun p => ?_
  split
  · exact Touches.refl _ _
  · dsimp only; exact (setRamp_touches _ _ _).andThen (startSolve_touches _)

theorem readProjectorRequest_touches (r : Request) (s : State) :
    Touches [.channels] s (readProjectorRequest r s).1 :=
  withSlot_touches _ _ _ fun _ => (modChan_touches _ _ _).mono

theorem restartOutput_touches {p : Slot} {s t : State} (h : restartOutput p s = some t) : Touches Field.inner s t := by
  unfold restartOutput at h
  cases hs : (s.chan p).lock <;> rw [hs] at h <;> dsimp only at h
  case lockFailed => obtain rfl := Option.some.inj h; exact (beginSequence_touches _ _).mono
  case locked => obtain rfl := Option.some.inj h; exact lockLoss_touches _ _
  all_goals exact absurd h (by simp)

theorem restartOutputRequest_touches (r : Request) (s : State) :
    Touches Field.inner s (restartOutputRequest r s).1 := by
  refine withSlot_touches _ _ _ fun p => ?_
  split
  · exact Touches.refl _ _
  · split
    · exact Touches.refl _ _
    · next e => dsimp only; exact (restartOutput_touches e).andThen (startSolve_touches _)

theorem loadMeshRequest_touches (r : Request) (s : State) : Touches [.loader] s (loadMeshRequest r s).1 := by
  unfold loadMeshRequest
  split
  · dsimp only; exact (setLoader_touches _ _).andThen (fetchDecision_touches _ _)
  · exact Touches.refl _ _

theorem stopLoadRequest_touches (r : Request) (s : State) : Touches [.loader] s (stopLoadRequest r s).1 := by
  unfold stopLoadRequest
  split
  · exact Touches.refl _ _
  · exact (setLoader_touches _ _).mono

theorem resumeLoadRequest_touches (r : Request) (s : State) :
    Touches [.loader] s (resumeLoadRequest r s).1 := by
  unfold resumeLoadRequest
  split
  · exact Touches.refl _ _
  · next t e =>
    dsimp only
    unfold resumeLoad at e
    cases hs : s.loader.state <;> rw [hs] at e <;> dsimp only at e
    case held => obtain rfl := Option.some.inj e; exact (releaseLoader_touches _ _).mono
    case running => obtain rfl := Option.some.inj e; exact (setLoader_touches _ _).mono
    case waiting => obtain rfl := Option.some.inj e; exact Touches.refl _ _
    all_goals exact absurd e (by simp)

theorem readNodeRequest_touches (r : Request) (s : State) : Touches [.dome] s (readNodeRequest r s).1 := by
  have h : Touches [.dome] s (if byteAt r.fields 0 = 0 then s else s.advance) :=
    Touches.ite (Touches.refl _ _) (advance_touches _).mono
  unfold readNodeRequest
  dsimp only
  split <;> exact h

theorem placeCursorRequest_touches (r : Request) (s : State) :
    Touches [.dome] s (placeCursorRequest r s).1 := by
  unfold placeCursorRequest
  split
  · exact Touches.refl _ _
  · exact (placeCursor_touches _ _).mono

theorem discardEditsRequest_touches (r : Request) (s : State) :
    Touches [.dome, .projectors, .attention, .loader] s (discardEditsRequest r s).1 := by
  unfold discardEditsRequest; dsimp only; exact (discardEdits_touches s).mono

theorem clearMapRequest_touches (r : Request) (s : State) : Touches Field.inner s (clearMapRequest r s).1 := by
  unfold clearMapRequest; dsimp only; exact (clearMap_touches s).mono

theorem setGainFloorRequest_touches (r : Request) (s : State) :
    Touches [.gain, .projectors, .attention] s (setGainFloorRequest r s).1 := by
  unfold setGainFloorRequest; dsimp only; exact (setFloor_touches _ s).mono

theorem clearEventsRequest_touches (r : Request) (s : State) :
    Touches [.attention] s (clearEventsRequest r s).1 := by
  unfold clearEventsRequest; dsimp only; exact (mapEvents_touches s _).mono

theorem setEventMaskRequest_touches (r : Request) (s : State) :
    Touches [.attention] s (setEventMaskRequest r s).1 := by
  unfold setEventMaskRequest; dsimp only; exact (mapEvents_touches s _).mono

/-- The Request Executor's own step touches the port (R188). -/
theorem takeRequest_touches {s t : State} {r : Request} (h : s.takeRequest = some (r, t)) : Touches [.port] s t := by
  unfold State.takeRequest at h
  split at h
  · exact absurd h (by simp)
  · split at h
    · obtain ⟨-, rfl⟩ := Prod.mk.inj (Option.some.inj h); exact setPort_touches _ _
    · exact absurd h (by simp)

theorem answerUnrun_touches (s : State) : Touches [.port] s (answerUnrun s) := by
  unfold answerUnrun
  split
  · exact Touches.refl _ _
  · next e =>
    split
    · exact (takeRequest_touches e).trans (reply_touches _ _ _)
    · split
      · exact Touches.refl _ _
      · exact (takeRequest_touches e).trans (reply_touches _ _ _)

/-! ### Every command -/

/-- The fields that a command leaves as they were, whatever the state (the frame of every command). -/
theorem exec_touches (c : Instr) (s t : State) (h : exec c s = .next t) : Touches (commandFields c) s t := by
  cases c <;> rw [exec] at h
  case resetLine => obtain rfl := Host.Outcome.next.inj h; exact afterReset_touches _
  case selectAssert =>
    obtain rfl := Host.Outcome.next.inj h
    exact Touches.ite (setPort_touches _ _) (Touches.refl _ _)
  case unitHeader =>
    obtain rfl := Host.Outcome.next.inj h
    exact Touches.ite (takeHeader_touches _ _) (disregardedByte_touches _).mono
  case requestLength =>
    obtain rfl := Host.Outcome.next.inj h
    split
    · dsimp only
      split
      · exact (setPort_touches _ _).mono
      · exact (setPort_touches _ _).andThen (malformedUnit_touches _)
    · exact (disregardedByte_touches _).mono
  case requestPayloadByte =>
    obtain rfl := Host.Outcome.next.inj h
    split
    · exact takePayload_touches _ _ _ _
    · exact (disregardedByte_touches _).mono
  case replyByte =>
    obtain rfl := Host.Outcome.next.inj h
    split
    · exact sendReplyByte_touches _ _
    · exact disregardedByte_touches _
  case selectRelease =>
    unfold execSelectRelease at h
    obtain rfl := Host.Outcome.next.inj h
    have h : Touches [.port, .attention] s
      (s.setPort { s.port with txn := .noSelect, partialReq := none, fetch := none, statusByte := none }) :=
      (setPort_touches _ _).mono
    split
    · exact Touches.refl _ _
    · exact h.andThen (raise_touches _ _)
    · exact h.andThen (raise_touches _ _)
    · exact h
    · exact h
    · exact h
  case readNode => obtain rfl := Host.Outcome.next.inj h; exact runRequest_touches _ _ readNodeRequest_touches _
  case readPoint => obtain rfl := Host.Outcome.next.inj h; exact runRequest_touches _ _ (fun _ _ => Touches.refl _ _) _
  case placeCursor => obtain rfl := Host.Outcome.next.inj h; exact runRequest_touches _ _ placeCursorRequest_touches _
  case setWalk =>
    obtain rfl := Host.Outcome.next.inj h
    exact runRequest_touches _ _ (fun _ _ => (setDome_touches _ _).mono) _
  case clearMap =>
    obtain rfl := Host.Outcome.next.inj h
    exact runRequest_touches _ _ clearMapRequest_touches _
  case setClaim => obtain rfl := Host.Outcome.next.inj h; exact runRequest_touches _ _ setClaimRequest_touches _
  case dropClaim => obtain rfl := Host.Outcome.next.inj h; exact runRequest_touches _ _ dropClaimRequest_touches _
  case applyEdits => obtain rfl := Host.Outcome.next.inj h; exact runRequest_touches _ _ applyEditsRequest_touches _
  case withdrawEdits =>
    obtain rfl := Host.Outcome.next.inj h; exact runRequest_touches _ _ withdrawEditsRequest_touches _
  case discardEdits =>
    obtain rfl := Host.Outcome.next.inj h
    exact runRequest_touches _ _ discardEditsRequest_touches _
  case readSolver => obtain rfl := Host.Outcome.next.inj h; exact runRequest_touches _ _ (fun _ _ => Touches.refl _ _) _
  case enrolProjector => obtain rfl := Host.Outcome.next.inj h; exact runRequest_touches _ _ enrolRequest_touches _
  case fadeProjector =>
    obtain rfl := Host.Outcome.next.inj h
    exact (runRequest_touches _ _ fadeRequest_touches _).mono
  case retireProjector => obtain rfl := Host.Outcome.next.inj h; exact runRequest_touches _ _ retireRequest_touches _
  case setRamp => obtain rfl := Host.Outcome.next.inj h; exact runRequest_touches _ _ setRampRequest_touches _
  case readProjector =>
    obtain rfl := Host.Outcome.next.inj h; exact runRequest_touches _ _ readProjectorRequest_touches _
  case setGainFloor =>
    obtain rfl := Host.Outcome.next.inj h
    exact runRequest_touches _ _ setGainFloorRequest_touches _
  case setGainSlew =>
    obtain rfl := Host.Outcome.next.inj h
    exact runRequest_touches _ _ (fun _ _ => (setGain_touches _ _).mono) _
  case readGains => obtain rfl := Host.Outcome.next.inj h; exact runRequest_touches _ _ (fun _ _ => Touches.refl _ _) _
  case restartOutput =>
    obtain rfl := Host.Outcome.next.inj h; exact runRequest_touches _ _ restartOutputRequest_touches _
  case setFramePeriod =>
    obtain rfl := Host.Outcome.next.inj h
    exact runRequest_touches _ _ (fun _ _ => (setTimer_touches _ _).mono) _
  case readFrame =>
    obtain rfl := Host.Outcome.next.inj h
    split
    · exact Touches.refl _ _
    · exact runRequest_touches _ _ (fun _ _ => Touches.refl _ _) _
  case setAlignLink =>
    obtain rfl := Host.Outcome.next.inj h
    exact runRequest_touches _ _ (fun _ _ => (setAlign_touches _ _).mono) _
  case clearAlignErrors =>
    obtain rfl := Host.Outcome.next.inj h
    exact runRequest_touches _ _ (fun _ _ => (setAlign_touches _ _).mono) _
  case resetAlignReceiver =>
    obtain rfl := Host.Outcome.next.inj h
    exact runRequest_touches _ _ (fun _ _ => (setAlign_touches _ _).mono) _
  case readAlignStatus =>
    obtain rfl := Host.Outcome.next.inj h; exact runRequest_touches _ _ (fun _ _ => Touches.refl _ _) _
  case loadMesh => obtain rfl := Host.Outcome.next.inj h; exact runRequest_touches _ _ loadMeshRequest_touches _
  case stopLoad => obtain rfl := Host.Outcome.next.inj h; exact runRequest_touches _ _ stopLoadRequest_touches _
  case resumeLoad => obtain rfl := Host.Outcome.next.inj h; exact runRequest_touches _ _ resumeLoadRequest_touches _
  case resetLoader =>
    obtain rfl := Host.Outcome.next.inj h
    exact runRequest_touches _ _ (fun _ _ => (setLoader_touches _ _).mono) _
  case readLoader => obtain rfl := Host.Outcome.next.inj h; exact runRequest_touches _ _ (fun _ _ => Touches.refl _ _) _
  case readEvents => obtain rfl := Host.Outcome.next.inj h; exact runRequest_touches _ _ (fun _ _ => Touches.refl _ _) _
  case clearEvents =>
    obtain rfl := Host.Outcome.next.inj h
    exact runRequest_touches _ _ clearEventsRequest_touches _
  case setEventMask =>
    obtain rfl := Host.Outcome.next.inj h
    exact runRequest_touches _ _ setEventMaskRequest_touches _
  case resetDevice =>
    obtain rfl := Host.Outcome.next.inj h
    unfold resetDevice
    split
    · exact Touches.refl _ _
    · next e =>
      split
      · split
        · exact afterReset_touches _
        · exact ((takeRequest_touches e).trans (reply_touches _ _ _)).mono
      · exact Touches.refl _ _
  case unknownCode => obtain rfl := Host.Outcome.next.inj h; exact answerUnrun_touches _
  case periodTimerExpiry =>
    obtain rfl := Host.Outcome.next.inj h
    split
    · exact Touches.refl _ _
    · exact (setTimer_touches _ _).andThen (boundary_touches _)
  case genlockPulse =>
    obtain rfl := Host.Outcome.next.inj h
    split
    · exact (followPulse_touches _ _).mono
    · exact searchPulse_touches _ _
    · exact searchPulse_touches _ _
  case lossWatchdogExpiry =>
    obtain rfl := Host.Outcome.next.inj h
    split
    · exact Touches.refl _ _
    · exact ((setTimer_touches _ _).andThen (fs := [.timer, .owed]) (boundary_touches _)).andThen (raise_touches _ _)
  case swap =>
    obtain rfl := Host.Outcome.next.inj h
    split
    · exact Touches.refl _ _
    · exact (setOwed_touches s _).andThen (swapAll_touches _)
  case fadeStep =>
    obtain rfl := Host.Outcome.next.inj h
    split
    · exact Touches.refl _ _
    · exact (setOwed_touches s _).andThen (Touches.foldl _ fadeStepSlot_touches _ _)
  case gainSlew =>
    obtain rfl := Host.Outcome.next.inj h
    split
    · exact Touches.refl _ _
    · exact (slewGains_touches s).andThen (setOwed_touches (slewGains s) _)
  case quotaRenewal =>
    obtain rfl := Host.Outcome.next.inj h
    split
    · exact Touches.refl _ _
    · exact (setOwed_touches s _).andThen (renewQuota_touches _)
  case rasterFrameStart =>
    obtain rfl := Host.Outcome.next.inj h
    exact Touches.ite (startFrame_touches _) (Touches.refl _ _)
  case sendPixel => obtain rfl := Host.Outcome.next.inj h; exact sendPixel_touches _ _
  case domeFrameComplete =>
    obtain rfl := Host.Outcome.next.inj h
    exact Touches.ite (setContent_touches _ _) (Touches.refl _ _)
  case domeFrameBadCount =>
    obtain rfl := Host.Outcome.next.inj h
    exact Touches.ite (Touches.refl _ _) (setContent_touches _ _)
  case contentSignalLost => obtain rfl := Host.Outcome.next.inj h; exact setContent_touches _ _
  case contentSignalReturn => obtain rfl := Host.Outcome.next.inj h; exact setContent_touches _ _
  case solveCompletion =>
    obtain rfl := Host.Outcome.next.inj h
    split
    · exact Touches.refl _ _
    · exact (finishSolve_touches _ _).andThen (startSolve_touches _)
  case synthStartCompletion =>
    obtain rfl := Host.Outcome.next.inj h
    exact Touches.ite (modChan_touches _ _ _) (Touches.refl _ _)
  case lockIndicationRise =>
    obtain rfl := Host.Outcome.next.inj h
    exact Touches.ite (modChan_touches _ _ _) (Touches.refl _ _)
  case lockIndicationFall =>
    obtain rfl := Host.Outcome.next.inj h
    exact Touches.ite (takeFall_touches _ _) (Touches.refl _ _)
  case lockTimeout =>
    obtain rfl := Host.Outcome.next.inj h
    exact Touches.ite ((attemptFails_touches _ _).andThen (startSolve_touches _)) (Touches.refl _ _)
  case windowCompletion =>
    obtain rfl := Host.Outcome.next.inj h
    split
    · dsimp only
      split
      · exact (modChan_touches _ _ _).andThen (attemptPasses_touches _ _)
      · exact ((modChan_touches _ _ _).andThen (fs := Field.inner) (attemptFails_touches _ _)).andThen
          (startSolve_touches _)
    · exact Touches.refl _ _
  case readyRawChange =>
    obtain rfl := Host.Outcome.next.inj h
    exact Touches.ite (Touches.refl _ _) (modChan_touches _ _ _)
  case debounceExpiry =>
    obtain rfl := Host.Outcome.next.inj h
    split
    · exact Touches.refl _ _
    · exact (takeLevel_touches _ _ _).andThen (startSolve_touches _)
  case byteCompletion =>
    unfold execByteCompletion at h
    obtain rfl := Host.Outcome.next.inj h
    split
    · exact Touches.ite (offerByte_touches _ _) (Touches.refl _ _)
    · exact (setAlign_touches _ _).mono
    · exact Touches.refl _ _
    · exact Touches.refl _ _
  case lineIdle =>
    obtain rfl := Host.Outcome.next.inj h
    split
    · exact (setAlign_touches _ _).mono
    · exact (setAlign_touches _ _).andThen (raise_touches _ _)
    all_goals exact Touches.refl _ _
  case lineBreak =>
    obtain rfl := Host.Outcome.next.inj h
    split
    · exact (setAlign_touches _ _).andThen (raise_touches _ _)
    · exact (setAlign_touches _ _).andThen (raise_touches _ _)
    all_goals exact Touches.refl _ _
  case assemblerTake =>
    obtain rfl := Host.Outcome.next.inj h
    split
    · exact (setAlign_touches _ _).andThen (assemble_touches _ _)
    all_goals exact Touches.refl _ _
  case driftReport =>
    obtain rfl := Host.Outcome.next.inj h
    refine runReport_touches _ (fun r t u o e => ?_) _
    cases r <;> simp only [Option.some.injEq, reduceCtorEq] at e
    have := congrArg Prod.fst e
    dsimp only at this
    rw [← this]
    exact (applyDrift_touches _ _ _ _ _ _).mono
  case lumaReport =>
    obtain rfl := Host.Outcome.next.inj h
    refine runReport_touches _ (fun r t u o e => ?_) _
    cases r <;> simp only [Option.some.injEq, reduceCtorEq] at e
    have := congrArg Prod.fst e
    dsimp only at this
    rw [← this]
    exact (applyLuma_touches _ _ _).mono
  case stepReport =>
    obtain rfl := Host.Outcome.next.inj h
    refine runReport_touches _ (fun r t u o e => ?_) _
    cases r <;> simp only [Option.some.injEq, reduceCtorEq] at e
    have := congrArg Prod.fst e
    dsimp only at this
    rw [← this]
    exact (applyStep_touches _).mono
  case fetchCompletion =>
    obtain rfl := Host.Outcome.next.inj h
    split
    · exact Touches.ite ((completeFetch_touches _ _ _).andThen (startSolve_touches _)) (Touches.refl _ _)
    · exact Touches.refl _ _

/-- No command changes the queue of the commands that wait. -/
theorem exec_pending (c : Instr) (s t : State) (h : exec c s = .next t) : t.pending = s.pending := by
  have := exec_touches c s t h
  cases c <;> exact this.pending

end Sys2Proof.Machine
end

