-- ==== Sys2Proof/Laws/Invariants.lean ====
section
/-! SUPPORT. The induction behind every invariant, packaged once: what every command keeps, every step keeps. -/

namespace Sys2Proof.Machine

/-- A property that does not read the queue and that every command keeps is kept by every step. -/
theorem KeptByStep.of_exec {inv : State → Prop} (hq : ∀ s cs, inv s → inv (s.setPending cs))
    (he : ∀ c s t, inv s → exec c s = .next t → inv t) : KeptByStep inv := by
  intro s t hs h
  unfold step at h
  split at h
  · obtain rfl := Host.Outcome.next.inj h; exact hs
  · exact he _ _ _ (hq _ _ hs) h

/-- What the port's queues do not touch, taking a request keeps (R188). -/
theorem takeRequest_keeps {P : State → Prop} (hport : ∀ s p, P s → P (s.setPort p)) {s t : State} {r : Request}
    (e : s.takeRequest = some (r, t)) (h : P s) : P t := by
  unfold State.takeRequest at e
  split at e
  · exact absurd e (by simp)
  · split at e
    · obtain ⟨-, rfl⟩ := Prod.mk.inj (Option.some.inj e); exact hport s _ h
    · exact absurd e (by simp)

/-- What a request's run keeps and the port's queues do not touch, the Request Executor's step keeps (R188, R189). -/
theorem runRequest_keeps {P : State → Prop} (hport : ∀ s p, P s → P (s.setPort p)) {code : Nat}
    {run : Request → State → State × Answer} (hrun : ∀ r t, P t → P (run r t).1) {s : State} (h : P s) :
    P (runRequest code run s) := by
  unfold runRequest
  split
  · exact h
  · next e =>
    have ht := takeRequest_keeps hport e h
    repeat' split
    all_goals first
      | exact h
      | exact hport _ _ (hrun _ _ ht)
      | exact hport _ _ ht

/-- RESET DEVICE keeps what a reset gives and the port's queues do not touch (R191). -/
theorem resetDevice_keeps {P : State → Prop} (hport : ∀ s p, P s → P (s.setPort p)) {s : State} (h : P s)
    (hreset : P (afterReset s)) : P (resetDevice s) := by
  unfold resetDevice
  split
  · exact h
  · next e =>
    have ht := takeRequest_keeps hport e h
    repeat' split
    all_goals first
      | exact h
      | exact hreset
      | exact hport _ _ ht

end Sys2Proof.Machine
end

