-- ==== Sys2Proof/Laws/Nodes.lean ====
section
/-! SUPPORT. What a step can do to a node record, said once: a property of node records that is closed under the changes
listed in `NodeClosed` is kept by every shared operation. -/

namespace Sys2Proof.Machine

set_option Elab.async false

/-- A claim changed without changing its projector, its pending-new mark or its live weight. -/
def Claim.SameLive (f : Claim → Claim) : Prop :=
  ∀ c, (f c).projector = c.projector ∧ (f c).pendingNew = c.pendingNew ∧ (f c).liveWeight = c.liveWeight

/-- The changes that the part makes to a node record, each with what is known where it is made. A property closed under
them all holds of every node record that a step leaves, when it held of every one before. -/
structure NodeClosed (Q : Node → Prop) : Prop where
  initial : Q Node.initial
  ordered : ∀ r, Q r → r.claims.Pairwise fun c d => c.projector < d.projector
  queued : ∀ r q, Q r → Q { r with queued := q }
  invalidated : ∀ r, Q r → Q r.invalidated
  taken : ∀ r, Q r → Q r.taken
  stored : ∀ r f, Q r → Q (r.stored f)
  discarded : ∀ r, Q r → Q r.discarded
  claim : ∀ r p f, Claim.SameLive f → Q r → Q (r.modClaim p f)
  drop : ∀ r p, (∀ c ∈ r.claims, c.projector = p → c.pendingNew = true) → Q r → Q (r.dropClaim p)
  insert : ∀ r c, c.pendingNew = true → r.claims.length < 4 → claimBy r.claims c.projector = none → Q r →
    Q { r with claims := insertClaim c r.claims }
  opened : ∀ r, r.groupMark = false → Q r → Q { r with openMark := true }
  sealed : ∀ r, Q r → Q { r with openMark := false, groupMark := true }
  withdrawn : ∀ r, Q r → Q { r with openMark := true, groupMark := false }
  unedited : ∀ r, Q r → Q { r with claims := r.claims.map Claim.unedited, openMark := false }
  single : ∀ r, Q r → Q r.singleSwapped
  group : ∀ r, Q r → Q r.groupSwapped

/-- Every node record has the property. -/
def AllNodes (Q : Node → Prop) (s : State) : Prop := ∀ n, Q (s.node n)

variable {Q : Node → Prop}

theorem AllNodes.modNode {s : State} (h : AllNodes Q s) (n : Nat) (f : Node → Node) (hf : Q (s.node n) → Q (f (s.node n))) :
    AllNodes Q (s.modNode n f) := by
  intro m
  rw [node_modNode]
  split
  · exact hf (h n)
  · exact h m

/-- Node records are read from the Dome Map's store alone. -/
theorem AllNodes.congr {s t : State} (h : AllNodes Q s) (e : t.dome.nodes = s.dome.nodes) : AllNodes Q t := fun n => by
  rw [node_congr e]; exact h n

/-- A change that does not touch the Dome Map. -/
theorem AllNodes.of_touches {fs : List Field} {s t : State} (h : AllNodes Q s) (ht : Touches fs s t)
    (hf : fs.contains Field.dome = false := by rfl) : AllNodes Q t :=
  h.congr (by rw [ht.dome hf])

/-! ### Claim lists -/

/-- The claim that a list holds by a projector names it. -/
theorem claimBy_some {cs : List Claim} {p : Slot} {c : Claim} (h : claimBy cs p = some c) : c ∈ cs ∧ c.projector = p := by
  unfold claimBy at h
  exact ⟨List.mem_of_find?_eq_some h, by simpa using List.find?_some h⟩

/-- In an ordered list two claims by one projector are one claim. -/
theorem eq_of_projector {cs : List Claim} (h : cs.Pairwise fun c d => c.projector < d.projector) {c d : Claim}
    (hc : c ∈ cs) (hd : d ∈ cs) (e : c.projector = d.projector) : c = d := by
  induction cs with
  | nil => simp at hc
  | cons a rest ih =>
    rw [List.pairwise_cons] at h
    rcases List.mem_cons.1 hc with hca | hc <;> rcases List.mem_cons.1 hd with hda | hd
    · rw [hca, hda]
    · exact absurd (h.1 d hd) (by rw [← hca, e]; exact lt_irrefl _)
    · exact absurd (h.1 c hc) (by rw [← hda, e]; exact lt_irrefl _)
    · exact ih h.2 hc hd

/-- The only claim by a projector is pending-new when the one found is. -/
theorem pendingNew_of_claimBy {r : Node} (ho : r.claims.Pairwise fun c d => c.projector < d.projector) {p : Slot} {c : Claim}
    (h : claimBy r.claims p = some c) (hn : c.pendingNew = true) :
    ∀ d ∈ r.claims, d.projector = p → d.pendingNew = true := fun d hd e => by
  obtain ⟨hc, hp⟩ := claimBy_some h
  rw [eq_of_projector ho hd hc (e.trans hp.symm)]; exact hn

/-! ### The Weight Solver -/

theorem queueNode_nodes (hQ : NodeClosed Q) (cls : QueueClass) (n : Nat) {s : State} (h : AllNodes Q s) :
    AllNodes Q (queueNode cls n s) := by
  have hm (v : Solver) (q : Option QueueClass) :
      AllNodes Q ((s.setSolver v).modNode n fun r => { r with queued := q }) :=
    AllNodes.modNode (h.of_touches (setSolver_touches s v)) n _ (hQ.queued _ q)
  unfold queueNode
  split
  · exact hm _ _
  · exact hm _ _
  · exact hm _ _
  · exact h
  · exact h

theorem hardInvalidate_nodes (hQ : NodeClosed Q) (cls : QueueClass) (n : Nat) {s : State} (h : AllNodes Q s) :
    AllNodes Q (hardInvalidate cls n s) := by
  have ht := queueNode_nodes hQ cls n (h.modNode n Node.invalidated (hQ.invalidated _))
  unfold hardInvalidate
  split
  · exact ht.of_touches (memberLost_touches _)
  · exact ht

theorem softRefresh_nodes (hQ : NodeClosed Q) (n : Nat) {s : State} (h : AllNodes Q s) :
    AllNodes Q (softRefresh n s) := queueNode_nodes hQ _ _ h

theorem invalidateAll_nodes (hQ : NodeClosed Q) (cls : QueueClass) (ns : List Nat) {s : State} (h : AllNodes Q s) :
    AllNodes Q (invalidateAll cls ns s) :=
  foldl_keeps (AllNodes Q) _ (fun _ n ht => hardInvalidate_nodes hQ cls n ht) ns s h

theorem refreshAll_nodes (hQ : NodeClosed Q) (ns : List Nat) {s : State} (h : AllNodes Q s) :
    AllNodes Q (refreshAll ns s) :=
  foldl_keeps (AllNodes Q) _ (fun _ n ht => softRefresh_nodes hQ n ht) ns s h

theorem refreshClaimed_nodes (hQ : NodeClosed Q) (p : Slot) {s : State} (h : AllNodes Q s) :
    AllNodes Q (refreshClaimed p s) := refreshAll_nodes hQ _ h

theorem invalidateClaimed_nodes (hQ : NodeClosed Q) (p : Slot) {s : State} (h : AllNodes Q s) :
    AllNodes Q (invalidateClaimed p s) := invalidateAll_nodes hQ _ _ h

theorem startSolve_nodes (hQ : NodeClosed Q) {s : State} (h : AllNodes Q s) : AllNodes Q (startSolve s) := by
  unfold startSolve
  split
  · exact h
  · exact AllNodes.modNode (s := s.setSolver _) h _ _ (hQ.taken _)
  · exact AllNodes.modNode (s := s.setSolver _) h _ _ (hQ.taken _)
  · exact h

theorem finishSolve_nodes (hQ : NodeClosed Q) (f : Flight) {s : State} (h : AllNodes Q s) :
    AllNodes Q (finishSolve f s) := by
  have hs : AllNodes Q (s.setSolver { s.solver with flight := none }) := h
  have hu := hs.modNode f.node (Node.stored f) (hQ.stored _ _)
  unfold finishSolve
  dsimp only
  split
  · exact hs.modNode _ _ (hQ.discarded _)
  · split
    · split
      · exact (hu.of_touches (memberGained_touches _)).of_touches (raise_touches _ _)
      · exact hu.of_touches (raise_touches _ _)
    · split
      · exact hu.of_touches (memberGained_touches _)
      · exact hu

/-! ### Claims and the Projector Table -/

theorem countFreed_nodes (p : Slot) {s : State} (h : AllNodes Q s) : AllNodes Q (countFreed p s) :=
  h.congr (by simp [countFreed])

theorem freeClaim_nodes (hQ : NodeClosed Q) (p : Slot) (n : Nat) {s : State} (h : AllNodes Q s)
    (hn : ∀ c ∈ (s.node n).claims, c.projector = p → c.pendingNew = true) : AllNodes Q (freeClaim p n s) :=
  (countFreed_nodes p (h.modNode n _ (hQ.drop _ _ hn))).of_touches (lowerFailover_touches _ _)

theorem withdrawAt_nodes (hQ : NodeClosed Q) (p : Slot) (n : Nat) {s : State} (h : AllNodes Q s) :
    AllNodes Q (withdrawAt p s n) := by
  unfold withdrawAt
  split
  · exact h
  · next c e =>
    split
    · next hn => exact freeClaim_nodes hQ p n h (pendingNew_of_claimBy (hQ.ordered _ (h n)) e hn)
    · exact h.modNode n _ (hQ.claim _ _ _ fun c => ⟨rfl, rfl, rfl⟩)

theorem enterRetiring_nodes (hQ : NodeClosed Q) (p : Slot) {s : State} (h : AllNodes Q s) :
    AllNodes Q (enterRetiring p s) := by
  have ht : AllNodes Q ((s.claimNodes p).foldl (withdrawAt p) (s.modProj p Projector.retired)) :=
    foldl_keeps (AllNodes Q) _ (fun _ n hu => withdrawAt_nodes hQ p n hu) _ _ (h.of_touches (modProj_touches _ _ _))
  have hu := invalidateAll_nodes hQ .urgent (s.claimNodes p) ht
  unfold enterRetiring
  dsimp only
  split
  · exact (hu.of_touches (recomputeGains_touches _)).of_touches (emptyIfDone_touches _ _)
  · exact hu.of_touches (emptyIfDone_touches _ _)

theorem enterFailed_nodes (hQ : NodeClosed Q) (p : Slot) (cause : FailCause) {s : State} (h : AllNodes Q s) :
    AllNodes Q (enterFailed p cause s) := by
  have ht : AllNodes Q ((s.modProj p fun r => r.failedWith cause).raise (.projFault p cause)) :=
    (h.of_touches (modProj_touches _ _ _)).of_touches (raise_touches _ _)
  unfold enterFailed
  dsimp only
  split
  · exact (invalidateClaimed_nodes hQ p (ht.of_touches (oweFailover_touches _ _))).of_touches (recomputeGains_touches _)
  · exact ht

theorem failRetiring_nodes (hQ : NodeClosed Q) (p : Slot) (cause : FailCause) {s : State} (h : AllNodes Q s) :
    AllNodes Q (failRetiring p cause s) :=
  enterRetiring_nodes hQ p ((h.of_touches (oweFailover_touches _ _)).of_touches (raise_touches _ _))

theorem failContributing_nodes (hQ : NodeClosed Q) (p : Slot) (cause : FailCause) {s : State} (h : AllNodes Q s) :
    AllNodes Q (failContributing p cause s) := by
  unfold failContributing
  split
  · exact failRetiring_nodes hQ p cause h
  · exact enterFailed_nodes hQ p cause h

theorem takeFaultStart_nodes (hQ : NodeClosed Q) (p : Slot) {s : State} (h : AllNodes Q s) :
    AllNodes Q (takeFaultStart p s) := by
  have hr (e : Event) : AllNodes Q (s.raise e) := h.of_touches (raise_touches _ _)
  unfold takeFaultStart
  cases (s.proj p).state <;> dsimp only
  case vacant => exact h
  case failed => exact h.of_touches (replaceCause_touches _ _ _)
  case retiring => exact hr _
  case parked => split; exacts [enterFailed_nodes hQ p _ h, hr _]
  all_goals split; exacts [failContributing_nodes hQ p _ h, hr _]

theorem takeLockFault_nodes (hQ : NodeClosed Q) (p : Slot) (cause : FailCause) {s : State} (h : AllNodes Q s) :
    AllNodes Q (takeLockFault p cause s) := by
  unfold takeLockFault
  cases (s.proj p).state <;> dsimp only
  case vacant => exact h
  case failed => exact h.of_touches (replaceCause_touches _ _ _)
  case retiring => exact h.of_touches (raise_touches _ _)
  case parked => exact enterFailed_nodes hQ p _ h
  all_goals exact failContributing_nodes hQ p _ h

theorem startFade_nodes (hQ : NodeClosed Q) (p : Slot) (st : ProjState) (f : Fade) {s : State} (h : AllNodes Q s) :
    AllNodes Q (startFade p st f s) := by
  have ht := refreshClaimed_nodes hQ p (h.of_touches
    (modProj_touches s p fun r => { r with state := st, fade := some f }))
  unfold startFade
  dsimp only
  split
  · exact ht.of_touches (recomputeGains_touches _)
  · exact ht

theorem cutIn_nodes (hQ : NodeClosed Q) (p : Slot) {s : State} (h : AllNodes Q s) : AllNodes Q (cutIn p s) := by
  have ht := refreshClaimed_nodes hQ p (h.of_touches
    (modProj_touches s p fun r => { r with state := .live, phi := 256, fade := none }))
  unfold cutIn
  dsimp only
  split
  · exact ht.of_touches (recomputeGains_touches _)
  · exact ht

theorem cutOut_nodes (hQ : NodeClosed Q) (p : Slot) {s : State} (h : AllNodes Q s) : AllNodes Q (cutOut p s) :=
  (invalidateClaimed_nodes hQ p (h.of_touches (modProj_touches s p _))).of_touches (recomputeGains_touches _)

theorem completeFade_nodes (hQ : NodeClosed Q) (p : Slot) (f : Fade) {s : State} (h : AllNodes Q s) :
    AllNodes Q (completeFade p f s) := by
  have ht : AllNodes Q ((s.modProj p fun r => { r with fade := none }).raise (.fadeDone p false)) :=
    (h.of_touches (modProj_touches _ _ _)).of_touches (raise_touches _ _)
  unfold completeFade
  dsimp only
  split
  · exact ht.of_touches (modProj_touches _ _ _)
  · split
    · exact enterRetiring_nodes hQ p ht
    · exact (ht.of_touches (modProj_touches _ _ _)).of_touches (recomputeGains_touches _)

theorem fadeStepSlot_nodes (hQ : NodeClosed Q) (p : Slot) {s : State} (h : AllNodes Q s) :
    AllNodes Q (fadeStepSlot s p) := by
  refine startSolve_nodes hQ ?_
  unfold fadeStepOf
  split
  · exact h
  · have ht (g : Projector → Projector) := refreshClaimed_nodes hQ p (h.of_touches (modProj_touches s p g))
    dsimp only
    split
    · exact completeFade_nodes hQ p _ (ht _)
    · exact ht _

theorem fadeIn_nodes (hQ : NodeClosed Q) {p : Slot} {n : Nat} {s t : State} (h : AllNodes Q s)
    (e : fadeIn p n s = some t) : AllNodes Q t := by
  have hf (k : Nat) : AllNodes Q (if n = 0 then cutIn p s else startFadeIn p k n s) := by
    split; exacts [cutIn_nodes hQ p h, startFade_nodes hQ p _ _ h]
  unfold fadeIn at e
  cases hs : (s.proj p).state <;> rw [hs] at e <;> dsimp only at e
  case parked =>
    by_cases hl : (s.chan p).lock = .locked
    · rw [if_pos hl] at e; obtain rfl := Option.some.inj e; exact hf _
    · rw [if_neg hl] at e; exact absurd e (by simp)
  case fadingIn => obtain rfl := Option.some.inj e; exact hf _
  case fadingOut =>
    by_cases hl : s.retireFade p = true
    · rw [if_pos hl] at e; exact absurd e (by simp)
    · rw [if_neg hl] at e; obtain rfl := Option.some.inj e; exact hf _
  case live => obtain rfl := Option.some.inj e; exact h
  all_goals exact absurd e (by simp)

theorem fadeOut_nodes (hQ : NodeClosed Q) {p : Slot} {n : Nat} {s t : State} (h : AllNodes Q s)
    (e : fadeOut p n s = some t) : AllNodes Q t := by
  have hf (k : Nat) : AllNodes Q (if n = 0 then cutOut p s else startFadeOut p k n false s) := by
    split; exacts [cutOut_nodes hQ p h, startFade_nodes hQ p _ _ h]
  have hr (k : Nat) : AllNodes Q (if n = 0 then enterRetiring p s else startFadeOut p k n true s) := by
    split; exacts [enterRetiring_nodes hQ p h, startFade_nodes hQ p _ _ h]
  unfold fadeOut at e
  cases hs : (s.proj p).state <;> rw [hs] at e <;> dsimp only at e
  case live => obtain rfl := Option.some.inj e; exact hf _
  case fadingIn => obtain rfl := Option.some.inj e; exact hf _
  case fadingOut => obtain rfl := Option.some.inj e; split; exacts [hr _, hf _]
  case parked => obtain rfl := Option.some.inj e; exact h
  all_goals exact absurd e (by simp)

theorem retire_nodes (hQ : NodeClosed Q) (p : Slot) (n : Nat) {s : State} (h : AllNodes Q s) :
    AllNodes Q (retire p n s) := by
  have hr (k : Nat) : AllNodes Q (if n = 0 then enterRetiring p s else startFadeOut p k n true s) := by
    split; exacts [enterRetiring_nodes hQ p h, startFade_nodes hQ p _ _ h]
  unfold retire
  cases (s.proj p).state <;> dsimp only
  case live => exact hr _
  case fadingIn => exact hr _
  case fadingOut => exact h.of_touches (modProj_touches _ _ _)
  case parked => exact enterRetiring_nodes hQ p h
  case failed => exact enterRetiring_nodes hQ p h
  all_goals exact h

/-! ### Edit Control -/

theorem openNode_nodes (hQ : NodeClosed Q) (n : Nat) {s : State} (h : AllNodes Q s) (hg : (s.node n).groupMark = false) :
    AllNodes Q (openNode n s) := h.modNode n _ (hQ.opened _ hg)

theorem placeClaim_nodes (hQ : NodeClosed Q) (n : Nat) (p : Slot) (q : Pos) (pin : PinField) {s : State}
    (h : AllNodes Q s) (hg : (s.node n).groupMark = false) : AllNodes Q (placeClaim n p q pin s).1 := by
  unfold placeClaim
  split
  · next c e =>
    refine openNode_nodes hQ n (h.modNode n _ (hQ.claim _ _ _ fun c => ⟨rfl, rfl, rfl⟩)) ?_
    simpa [Node.modClaim] using hg
  · next e =>
    split
    · exact h
    · next hl =>
      split
      · exact h
      · refine openNode_nodes hQ n ?_ ?_
        · refine AllNodes.congr (h.modNode n (fun r => { r with claims := insertClaim (newClaim p q pin) r.claims })
            (hQ.insert _ _ rfl (by simpa [Config.listLimit] using hl) e)) rfl
        · simpa [allocateClaim] using hg

theorem editSetClaim_nodes (hQ : NodeClosed Q) (node : Option Nat) (slot : Nat) (q : Pos) (pin : PinField) {s : State}
    (h : AllNodes Q s) : AllNodes Q (editSetClaim node slot q pin s).1 := by
  unfold editSetClaim
  split
  · exact h
  · split
    · exact h
    · split
      · exact h
      · split
        · exact h
        · split
          · exact h
          · next hg => exact placeClaim_nodes hQ _ _ _ _ h (by simpa using hg)

theorem groupMark_lowerFailover (p : Slot) (s : State) (n : Nat) :
    ((lowerFailover p s).node n).groupMark = (s.node n).groupMark := by
  rw [node_congr (congrArg DomeMap.nodes (lowerFailover_touches p s).dome)]

theorem removeClaim_nodes (hQ : NodeClosed Q) (n : Nat) (p : Slot) (c : Claim) {s : State} (h : AllNodes Q s)
    (hg : (s.node n).groupMark = false) (e : claimBy (s.node n).claims p = some c) :
    AllNodes Q (removeClaim n p c s).1 := by
  unfold removeClaim
  split
  · next hn =>
    refine openNode_nodes hQ n (freeClaim_nodes hQ p n h (pendingNew_of_claimBy (hQ.ordered _ (h n)) e hn)) ?_
    rw [freeClaim, groupMark_lowerFailover]
    simpa [countFreed, Node.dropClaim] using hg
  · refine openNode_nodes hQ n (h.modNode n _ (hQ.claim _ _ _ fun c => ⟨rfl, rfl, rfl⟩)) ?_
    simpa [Node.modClaim] using hg

theorem editDropClaim_nodes (hQ : NodeClosed Q) (node : Option Nat) (slot : Nat) {s : State} (h : AllNodes Q s) :
    AllNodes Q (editDropClaim node slot s).1 := by
  unfold editDropClaim
  split
  · exact h
  · split
    · exact h
    · split
      · exact h
      · next hg =>
        split
        · exact h
        · next e => exact removeClaim_nodes hQ _ _ _ h (by simpa using hg) e

theorem applyEdits_nodes (hQ : NodeClosed Q) {s : State} (h : AllNodes Q s) : AllNodes Q (applyEdits s).1 := by
  have hf : AllNodes Q (s.openSet.foldl sealNode s) :=
    foldl_keeps (AllNodes Q) _ (fun t n ht => hardInvalidate_nodes hQ _ _ (ht.modNode n _ (hQ.sealed _))) _ _ h
  unfold applyEdits
  split
  · split
    · exact h
    · exact hf.of_touches (setEdit_touches _ _)
  · exact h

theorem takeApplyWaiting_nodes (hQ : NodeClosed Q) {s : State} (h : AllNodes Q s) :
    AllNodes Q (takeApplyWaiting s).1 := by
  unfold takeApplyWaiting
  split
  · have ht := applyEdits_nodes hQ (h.of_touches (setEdit_touches s { s.edit with applyWaiting := false }))
    split <;> (next e => rw [e] at ht; exact ht)
  · exact h

theorem withdrawGroup_nodes (hQ : NodeClosed Q) {s : State} (h : AllNodes Q s) : AllNodes Q (withdrawGroup s).1 := by
  have hf : AllNodes Q (s.group.foldl withdrawNode s) :=
    foldl_keeps (AllNodes Q) _ (fun t n ht => (ht.modNode n _ (hQ.withdrawn _)).modNode n _ (hQ.invalidated _)) _ _ h
  simp only [withdrawGroup]
  exact takeApplyWaiting_nodes hQ (hf.of_touches (dissolveGroup_touches _))

/-- Freeing a claim leaves the claims of the node's other projectors, and takes none by its own. -/
theorem claims_freeClaim (p : Slot) (n : Nat) (s : State) :
    ((freeClaim p n s).node n).claims = (s.node n).claims.filter fun c => c.projector != p := by
  rw [freeClaim, node_congr (congrArg DomeMap.nodes (lowerFailover_touches p _).dome)]
  simp [countFreed, Node.dropClaim]

theorem discardNode_nodes (hQ : NodeClosed Q) (n : Nat) {s : State} (h : AllNodes Q s) :
    AllNodes Q (discardNode s n) := by
  have key : ∀ (ps : List Slot) (t : State), AllNodes Q t →
      (∀ p ∈ ps, ∀ c ∈ (t.node n).claims, c.projector = p → c.pendingNew = true) →
      AllNodes Q (ps.foldl (fun u p => freeClaim p n u) t) := by
    intro ps
    induction ps with
    | nil => exact fun t ht _ => ht
    | cons p ps ih =>
      intro t ht hp
      refine ih _ (freeClaim_nodes hQ p n ht (hp p (by simp))) fun q hq c hc => ?_
      rw [claims_freeClaim] at hc
      exact hp q (by simp [hq]) c (List.mem_of_mem_filter hc)
  unfold discardNode
  refine AllNodes.modNode (key _ s h fun p hp c hc e => ?_) n _ (hQ.unedited _)
  simp only [Node.newSlots, List.mem_map, List.mem_filter] at hp
  obtain ⟨d, ⟨hd, hn⟩, hdp⟩ := hp
  rw [eq_of_projector (hQ.ordered _ (h n)) hc hd (e.trans hdp.symm)]; exact hn

theorem discardEdits_nodes (hQ : NodeClosed Q) {s : State} (h : AllNodes Q s) : AllNodes Q (discardEdits s) :=
  foldl_keeps (AllNodes Q) _ (fun _ n ht => discardNode_nodes hQ n ht) _ _ h

/-! ### The swap -/

theorem freeAtSwap_nodes (p : Slot) {s : State} (h : AllNodes Q s) : AllNodes Q (freeAtSwap s p) :=
  (countFreed_nodes p h).of_touches (emptyIfDone_touches _ _)

theorem reportSwap_nodes (n : Nat) (old new : Node) (leaves : Claim → Bool) {s : State} (h : AllNodes Q s) :
    AllNodes Q (reportSwap n old new leaves s) := by
  unfold reportSwap
  refine foldl_keeps (AllNodes Q) _ (fun _ p ht => freeAtSwap_nodes p ht) _ _ ?_
  refine foldl_keeps (AllNodes Q) _ (fun t p ht => ht.of_touches (lowerFailover_touches p t)) _ _ ?_
  split
  · exact h.of_touches (raise_touches _ _)
  · exact h

theorem AllNodes.putNode {s : State} (h : AllNodes Q s) (n : Nat) (r : Node) (hr : Q r) : AllNodes Q (s.putNode n r) := by
  intro m
  rw [node_putNode]
  split
  · exact hr
  · exact h m

theorem swapNode_nodes (hQ : NodeClosed Q) (ready : Bool) (n : Nat) {s : State} (h : AllNodes Q s) :
    AllNodes Q (swapNode ready s n) := by
  unfold swapNode
  dsimp only
  split
  · split
    · exact reportSwap_nodes n _ _ _ (h.putNode n _ (hQ.group _ (h n)))
    · exact h
  · split
    · exact reportSwap_nodes n _ _ _ (h.putNode n _ (hQ.single _ (h n)))
    · exact h

theorem finishGroup_nodes (hQ : NodeClosed Q) (members : Nat) {s : State} (h : AllNodes Q s) :
    AllNodes Q (finishGroup members s) := by
  have ht : AllNodes Q ((dissolveGroup s).raise (.swapDone members)) :=
    (h.of_touches (dissolveGroup_touches _)).of_touches (raise_touches _ _)
  unfold finishGroup
  exact takeApplyWaiting_nodes hQ ht

theorem swapAll_nodes (hQ : NodeClosed Q) {s : State} (h : AllNodes Q s) : AllNodes Q (swapAll s) := by
  have key (ns : List Nat) : AllNodes Q (ns.foldl (swapNode (s.edit.groupState == .ready)) s) :=
    foldl_keeps (AllNodes Q) _ (fun _ n hu => swapNode_nodes hQ _ n hu) _ _ h
  have ht := key nodeIndices
  unfold swapAll
  dsimp only
  generalize nodeIndices.foldl (swapNode (s.edit.groupState == .ready)) s = t at ht ⊢
  split
  · exact startSolve_nodes hQ (finishGroup_nodes hQ _ ht)
  · exact ht

/-! ### CLEAR MAP, the channels, the loader and the reports -/

theorem emptyMap_nodes (hQ : NodeClosed Q) (s : State) : AllNodes Q (emptyMap s) := fun _ => hQ.initial

theorem clearMap_nodes (hQ : NodeClosed Q) (s : State) : AllNodes Q (clearMap s) := by
  have ht : AllNodes Q (slots.foldl (fun u p => emptyIfDone p u) (emptyMap s)) :=
    foldl_keeps (AllNodes Q) _ (fun t p ht => ht.of_touches (emptyIfDone_touches p t)) _ _ (emptyMap_nodes hQ s)
  unfold clearMap
  dsimp only
  split
  · exact ht.of_touches (reportYield_touches _)
  · exact ht

theorem lockLoss_nodes (hQ : NodeClosed Q) (p : Slot) {s : State} (h : AllNodes Q s) : AllNodes Q (lockLoss p s) := by
  have ht := takeLockFault_nodes hQ p .lockLost h
  unfold lockLoss
  dsimp only
  split
  · exact ht
  · exact (ht.of_touches (stopStream_touches _ _)).of_touches (beginSequence_touches _ _)

theorem attemptFails_nodes (hQ : NodeClosed Q) (p : Slot) {s : State} (h : AllNodes Q s) :
    AllNodes Q (attemptFails p s) := by
  unfold attemptFails
  split
  · exact h.of_touches (modChan_touches _ _ _)
  · exact (takeLockFault_nodes hQ p _ (h.of_touches (modChan_touches _ _ _))).of_touches (raise_touches _ _)

theorem takeLevel_nodes (hQ : NodeClosed Q) (p : Slot) (level : ReadyLevel) {s : State} (h : AllNodes Q s) :
    AllNodes Q (takeLevel p level s) := by
  have ht (g : Channel → Channel) : AllNodes Q (s.modChan p g) := h.of_touches (modChan_touches _ _ _)
  unfold takeLevel
  dsimp only
  split
  · split
    · exact takeFaultStart_nodes hQ p (ht _)
    · exact (ht _).of_touches (recoveryCheck_touches _ _)
  · exact ht _

theorem endDone_nodes (hQ : NodeClosed Q) (o : LoadOutcome) {s : State} (h : AllNodes Q s) :
    AllNodes Q (endDone o s) := by
  have ht : AllNodes Q (s.setLoader (s.loader.ended o)) := h.of_touches (setLoader_touches _ _)
  unfold endDone
  dsimp only
  refine AllNodes.of_touches ?_ (raise_touches _ _)
  split
  · have ha := applyEdits_nodes hQ ht
    unfold applyAtEnd
    split
    · next e => rw [e] at ha; exact ha.of_touches (setLoader_touches _ _)
    · next e => rw [e] at ha; exact ha.of_touches (setLoader_touches _ _)
    · next e =>
      rw [e] at ha
      exact (ha.of_touches (setEdit_touches _ _)).of_touches (setLoader_touches _ _)
  · exact ht

theorem recordStored_nodes (hQ : NodeClosed Q) (d : Descriptor) {s : State} (h : AllNodes Q s) :
    AllNodes Q (recordStored d s) := by
  have ht : AllNodes Q (s.setLoader (s.loader.counted d.format.size)) := h.of_touches (setLoader_touches _ _)
  unfold recordStored
  dsimp only
  split
  · exact endDone_nodes hQ _ ht
  · exact ht.of_touches (fetchDecision_touches _ _)

theorem completeFetch_nodes (hQ : NodeClosed Q) (d : Descriptor) (result : FetchResult) {s : State} (h : AllNodes Q s) :
    AllNodes Q (completeFetch d result s) := by
  have hf (o : LoadOutcome) (r : FaultReason) : AllNodes Q (endFaulted o r s) := h.of_touches (endFaulted_touches _ _ _)
  unfold completeFetch
  split
  · unfold takeRecord
    split
    · next slot ring sector q pin _ =>
      have ht := editSetClaim_nodes hQ (resolveNode ring sector) slot q pin h
      split
      · next e => rw [e] at ht; exact recordStored_nodes hQ d ht
      · exact hf _ _
    · next slot ring sector _ =>
      have ht := editDropClaim_nodes hQ (resolveNode ring sector) slot h
      split
      · next e => rw [e] at ht; exact recordStored_nodes hQ d ht
      · exact hf _ _
    · split
      · exact endDone_nodes hQ _ h
      · exact recordStored_nodes hQ d h
    · exact hf _ _
  · exact hf _ _
  · exact hf _ _

theorem correctClaim_nodes (hQ : NodeClosed Q) (n : Nat) (p : Slot) (c : Claim) (du dv : Int) {s : State}
    (h : AllNodes Q s) : AllNodes Q (correctClaim n p c du dv s) := by
  have ht : AllNodes Q (hardInvalidate .normal n
      (s.modNode n fun r => r.modClaim p fun d => { d with nextTrim := some (c.drifted du dv) })) :=
    hardInvalidate_nodes hQ _ _ (h.modNode n _ (hQ.claim _ _ _ fun c => ⟨rfl, rfl, rfl⟩))
  unfold correctClaim
  dsimp only
  refine startSolve_nodes hQ ?_
  split
  · exact ht.of_touches (raise_touches _ _)
  · exact ht

end Sys2Proof.Machine
end

