-- ==== Sys2Proof/Laws/PerInstr.lean ====
section
/-! SUPPORT. Statements about each command as syntax, one lemma per constructor. `WellFormedKind`: a command is
well-formed exactly when the operands that its type does not bound fit the hardware's event (R116, R117, R174). -/

set_option Elab.async false

namespace Sys2Proof.Laws

/-- What the types leave open fits: a frame that completed is a well-formed frame, a wrong count is not the right count,
and a fetch answer has the length of a record. Every other command is well-formed whatever its operands. -/
def WellFormedKind.Statement (i : Instr) : Prop :=
  i.wf = true ↔
    (∀ frame, i = .domeFrameComplete frame → frame.wf = true) ∧
    (∀ samples, i = .domeFrameBadCount samples → samples ≠ 4194304) ∧
    ∀ serial result, i = .fetchCompletion serial result → result.wf = true

theorem WellFormedKind.resetLine :
    WellFormedKind.Statement .resetLine := by
  simp [WellFormedKind.Statement, Instr.wf]

theorem WellFormedKind.selectAssert :
    WellFormedKind.Statement .selectAssert := by
  simp [WellFormedKind.Statement, Instr.wf]

theorem WellFormedKind.unitHeader (header : Byte) :
    WellFormedKind.Statement (.unitHeader header) := by
  simp [WellFormedKind.Statement, Instr.wf]

theorem WellFormedKind.requestLength (length : Byte) :
    WellFormedKind.Statement (.requestLength length) := by
  simp [WellFormedKind.Statement, Instr.wf]

theorem WellFormedKind.requestPayloadByte (value : Byte) :
    WellFormedKind.Statement (.requestPayloadByte value) := by
  simp [WellFormedKind.Statement, Instr.wf]

theorem WellFormedKind.replyByte :
    WellFormedKind.Statement .replyByte := by
  simp [WellFormedKind.Statement, Instr.wf]

theorem WellFormedKind.selectRelease :
    WellFormedKind.Statement .selectRelease := by
  simp [WellFormedKind.Statement, Instr.wf]

theorem WellFormedKind.readNode :
    WellFormedKind.Statement .readNode := by
  simp [WellFormedKind.Statement, Instr.wf]

theorem WellFormedKind.readPoint :
    WellFormedKind.Statement .readPoint := by
  simp [WellFormedKind.Statement, Instr.wf]

theorem WellFormedKind.placeCursor :
    WellFormedKind.Statement .placeCursor := by
  simp [WellFormedKind.Statement, Instr.wf]

theorem WellFormedKind.setWalk :
    WellFormedKind.Statement .setWalk := by
  simp [WellFormedKind.Statement, Instr.wf]

theorem WellFormedKind.clearMap :
    WellFormedKind.Statement .clearMap := by
  simp [WellFormedKind.Statement, Instr.wf]

theorem WellFormedKind.setClaim :
    WellFormedKind.Statement .setClaim := by
  simp [WellFormedKind.Statement, Instr.wf]

theorem WellFormedKind.dropClaim :
    WellFormedKind.Statement .dropClaim := by
  simp [WellFormedKind.Statement, Instr.wf]

theorem WellFormedKind.applyEdits :
    WellFormedKind.Statement .applyEdits := by
  simp [WellFormedKind.Statement, Instr.wf]

theorem WellFormedKind.withdrawEdits :
    WellFormedKind.Statement .withdrawEdits := by
  simp [WellFormedKind.Statement, Instr.wf]

theorem WellFormedKind.discardEdits :
    WellFormedKind.Statement .discardEdits := by
  simp [WellFormedKind.Statement, Instr.wf]

theorem WellFormedKind.readSolver :
    WellFormedKind.Statement .readSolver := by
  simp [WellFormedKind.Statement, Instr.wf]

theorem WellFormedKind.enrolProjector :
    WellFormedKind.Statement .enrolProjector := by
  simp [WellFormedKind.Statement, Instr.wf]

theorem WellFormedKind.fadeProjector :
    WellFormedKind.Statement .fadeProjector := by
  simp [WellFormedKind.Statement, Instr.wf]

theorem WellFormedKind.retireProjector :
    WellFormedKind.Statement .retireProjector := by
  simp [WellFormedKind.Statement, Instr.wf]

theorem WellFormedKind.setRamp :
    WellFormedKind.Statement .setRamp := by
  simp [WellFormedKind.Statement, Instr.wf]

theorem WellFormedKind.readProjector :
    WellFormedKind.Statement .readProjector := by
  simp [WellFormedKind.Statement, Instr.wf]

theorem WellFormedKind.setGainFloor :
    WellFormedKind.Statement .setGainFloor := by
  simp [WellFormedKind.Statement, Instr.wf]

theorem WellFormedKind.setGainSlew :
    WellFormedKind.Statement .setGainSlew := by
  simp [WellFormedKind.Statement, Instr.wf]

theorem WellFormedKind.readGains :
    WellFormedKind.Statement .readGains := by
  simp [WellFormedKind.Statement, Instr.wf]

theorem WellFormedKind.restartOutput :
    WellFormedKind.Statement .restartOutput := by
  simp [WellFormedKind.Statement, Instr.wf]

theorem WellFormedKind.setFramePeriod :
    WellFormedKind.Statement .setFramePeriod := by
  simp [WellFormedKind.Statement, Instr.wf]

theorem WellFormedKind.readFrame :
    WellFormedKind.Statement .readFrame := by
  simp [WellFormedKind.Statement, Instr.wf]

theorem WellFormedKind.setAlignLink :
    WellFormedKind.Statement .setAlignLink := by
  simp [WellFormedKind.Statement, Instr.wf]

theorem WellFormedKind.clearAlignErrors :
    WellFormedKind.Statement .clearAlignErrors := by
  simp [WellFormedKind.Statement, Instr.wf]

theorem WellFormedKind.resetAlignReceiver :
    WellFormedKind.Statement .resetAlignReceiver := by
  simp [WellFormedKind.Statement, Instr.wf]

theorem WellFormedKind.readAlignStatus :
    WellFormedKind.Statement .readAlignStatus := by
  simp [WellFormedKind.Statement, Instr.wf]

theorem WellFormedKind.loadMesh :
    WellFormedKind.Statement .loadMesh := by
  simp [WellFormedKind.Statement, Instr.wf]

theorem WellFormedKind.stopLoad :
    WellFormedKind.Statement .stopLoad := by
  simp [WellFormedKind.Statement, Instr.wf]

theorem WellFormedKind.resumeLoad :
    WellFormedKind.Statement .resumeLoad := by
  simp [WellFormedKind.Statement, Instr.wf]

theorem WellFormedKind.resetLoader :
    WellFormedKind.Statement .resetLoader := by
  simp [WellFormedKind.Statement, Instr.wf]

theorem WellFormedKind.readLoader :
    WellFormedKind.Statement .readLoader := by
  simp [WellFormedKind.Statement, Instr.wf]

theorem WellFormedKind.readEvents :
    WellFormedKind.Statement .readEvents := by
  simp [WellFormedKind.Statement, Instr.wf]

theorem WellFormedKind.clearEvents :
    WellFormedKind.Statement .clearEvents := by
  simp [WellFormedKind.Statement, Instr.wf]

theorem WellFormedKind.setEventMask :
    WellFormedKind.Statement .setEventMask := by
  simp [WellFormedKind.Statement, Instr.wf]

theorem WellFormedKind.resetDevice :
    WellFormedKind.Statement .resetDevice := by
  simp [WellFormedKind.Statement, Instr.wf]

theorem WellFormedKind.unknownCode :
    WellFormedKind.Statement .unknownCode := by
  simp [WellFormedKind.Statement, Instr.wf]

theorem WellFormedKind.periodTimerExpiry :
    WellFormedKind.Statement .periodTimerExpiry := by
  simp [WellFormedKind.Statement, Instr.wf]

theorem WellFormedKind.genlockPulse (time : Nat) :
    WellFormedKind.Statement (.genlockPulse time) := by
  simp [WellFormedKind.Statement, Instr.wf]

theorem WellFormedKind.lossWatchdogExpiry :
    WellFormedKind.Statement .lossWatchdogExpiry := by
  simp [WellFormedKind.Statement, Instr.wf]

theorem WellFormedKind.swap :
    WellFormedKind.Statement .swap := by
  simp [WellFormedKind.Statement, Instr.wf]

theorem WellFormedKind.fadeStep :
    WellFormedKind.Statement .fadeStep := by
  simp [WellFormedKind.Statement, Instr.wf]

theorem WellFormedKind.gainSlew :
    WellFormedKind.Statement .gainSlew := by
  simp [WellFormedKind.Statement, Instr.wf]

theorem WellFormedKind.quotaRenewal :
    WellFormedKind.Statement .quotaRenewal := by
  simp [WellFormedKind.Statement, Instr.wf]

theorem WellFormedKind.rasterFrameStart :
    WellFormedKind.Statement .rasterFrameStart := by
  simp [WellFormedKind.Statement, Instr.wf]

theorem WellFormedKind.sendPixel (channel : Slot) :
    WellFormedKind.Statement (.sendPixel channel) := by
  simp [WellFormedKind.Statement, Instr.wf]

theorem WellFormedKind.domeFrameComplete (frame : DomeFrame) :
    WellFormedKind.Statement (.domeFrameComplete frame) := by
  simp [WellFormedKind.Statement, Instr.wf]

theorem WellFormedKind.domeFrameBadCount (samples : Nat) :
    WellFormedKind.Statement (.domeFrameBadCount samples) := by
  simp [WellFormedKind.Statement, Instr.wf, Config.frameSamples]

theorem WellFormedKind.contentSignalLost :
    WellFormedKind.Statement .contentSignalLost := by
  simp [WellFormedKind.Statement, Instr.wf]

theorem WellFormedKind.contentSignalReturn :
    WellFormedKind.Statement .contentSignalReturn := by
  simp [WellFormedKind.Statement, Instr.wf]

theorem WellFormedKind.solveCompletion :
    WellFormedKind.Statement .solveCompletion := by
  simp [WellFormedKind.Statement, Instr.wf]

theorem WellFormedKind.synthStartCompletion (event : SynthEvent) :
    WellFormedKind.Statement (.synthStartCompletion event) := by
  simp [WellFormedKind.Statement, Instr.wf]

theorem WellFormedKind.lockIndicationRise (event : SynthEvent) :
    WellFormedKind.Statement (.lockIndicationRise event) := by
  simp [WellFormedKind.Statement, Instr.wf]

theorem WellFormedKind.lockIndicationFall (event : SynthEvent) :
    WellFormedKind.Statement (.lockIndicationFall event) := by
  simp [WellFormedKind.Statement, Instr.wf]

theorem WellFormedKind.lockTimeout (channel : Slot) :
    WellFormedKind.Statement (.lockTimeout channel) := by
  simp [WellFormedKind.Statement, Instr.wf]

theorem WellFormedKind.windowCompletion (channel : Slot) (count : Nat) :
    WellFormedKind.Statement (.windowCompletion channel count) := by
  simp [WellFormedKind.Statement, Instr.wf]

theorem WellFormedKind.readyRawChange (channel : Slot) (level : ReadyLevel) :
    WellFormedKind.Statement (.readyRawChange channel level) := by
  simp [WellFormedKind.Statement, Instr.wf]

theorem WellFormedKind.debounceExpiry (channel : Slot) :
    WellFormedKind.Statement (.debounceExpiry channel) := by
  simp [WellFormedKind.Statement, Instr.wf]

theorem WellFormedKind.byteCompletion (data : Byte) (parity : Bool) (stop : Bool) :
    WellFormedKind.Statement (.byteCompletion data parity stop) := by
  simp [WellFormedKind.Statement, Instr.wf]

theorem WellFormedKind.lineIdle :
    WellFormedKind.Statement .lineIdle := by
  simp [WellFormedKind.Statement, Instr.wf]

theorem WellFormedKind.lineBreak :
    WellFormedKind.Statement .lineBreak := by
  simp [WellFormedKind.Statement, Instr.wf]

theorem WellFormedKind.assemblerTake :
    WellFormedKind.Statement .assemblerTake := by
  simp [WellFormedKind.Statement, Instr.wf]

theorem WellFormedKind.driftReport :
    WellFormedKind.Statement .driftReport := by
  simp [WellFormedKind.Statement, Instr.wf]

theorem WellFormedKind.lumaReport :
    WellFormedKind.Statement .lumaReport := by
  simp [WellFormedKind.Statement, Instr.wf]

theorem WellFormedKind.stepReport :
    WellFormedKind.Statement .stepReport := by
  simp [WellFormedKind.Statement, Instr.wf]

theorem WellFormedKind.fetchCompletion (serial : Nat) (result : FetchResult) :
    WellFormedKind.Statement (.fetchCompletion serial result) := by
  simp [WellFormedKind.Statement, Instr.wf]

end Sys2Proof.Laws
end

