-- ==== Sys2Proof/Laws/Requests.lean ====
section
/-! SUPPORT. What the Request Executor's one shared operation does, said once: the head request is taken, run on the state
without it, and its reply appended (R188); a wrong length is answered unrun (R189). -/

namespace Sys2Proof.Machine

/-- The state with the head request taken. -/
theorem takeRequest_of_head {s : State} {r : Request} {rest : List Request} (h : s.port.requests = r :: rest)
    (hr : s.port.replies.length < 8) :
    s.takeRequest = some (r, s.setPort { s.port with requests := rest }) := by
  unfold State.takeRequest
  rw [h]
  exact if_pos hr

/-- A request of its code and length is run, and its reply appended (R188). -/
theorem runRequest_of_head {s : State} {code tag : Byte} {fields : List Byte} {rest : List Request}
    (h : s.port.requests = { code := code, tag := tag, fields := fields } :: rest) (hr : s.port.replies.length < 8)
    {c k : Nat} (hc : code.toNat = c) (hk : requiredLength c = some k) (hl : fields.length + 2 = k)
    (run : Request → State → State × Answer) :
    runRequest c run s =
      (run { code := code, tag := tag, fields := fields } (s.setPort { s.port with requests := rest })).1.reply tag
        (run { code := code, tag := tag, fields := fields } (s.setPort { s.port with requests := rest })).2 := by
  unfold runRequest
  rw [takeRequest_of_head h hr]
  have hlen : Request.length { code := code, tag := tag, fields := fields } = k := by
    simp only [Request.length]; omega
  simp only [hc, if_true, hk, hlen]

/-- A request of its code with another length is answered BAD_LENGTH unrun (R189). -/
theorem runRequest_of_badLength {s : State} {code tag : Byte} {fields : List Byte} {rest : List Request}
    (h : s.port.requests = { code := code, tag := tag, fields := fields } :: rest) (hr : s.port.replies.length < 8)
    {c k : Nat} (hc : code.toNat = c) (hk : requiredLength c = some k) (hl : fields.length + 2 ≠ k)
    (run : Request → State → State × Answer) :
    runRequest c run s = (s.setPort { s.port with requests := rest }).reply tag
      (badLengthAnswer { code := code, tag := tag, fields := fields } k) := by
  unfold runRequest
  rw [takeRequest_of_head h hr]
  have hlen : Request.length { code := code, tag := tag, fields := fields } ≠ k := by
    simp only [Request.length]; omega
  simp only [hc, if_true, hk, if_neg hlen]

/-- A slot byte above 15 names none (R190). -/
theorem slotOf_none {b : Nat} (h : 16 ≤ b) : slotOf b = none := by
  simp [slotOf, Nat.not_lt.mpr h]

/-- A request that names a slot 0..15 runs on it (R190). -/
theorem withSlot_val {b : Nat} {p : Slot} (h : b = p.val) (s : State) (run : Slot → State × Answer) :
    withSlot b s run = run p := by
  subst h
  simp only [withSlot, slotOf_val]

/-- A request that names a slot above 15 is refused (R190). -/
theorem withSlot_none {b : Nat} (h : 16 ≤ b) (s : State) (run : Slot → State × Answer) :
    withSlot b s run = (s, .bare .badProjector) := by
  simp only [withSlot, slotOf_none h]

end Sys2Proof.Machine
end

