-- ==== Sys2Proof/Tests/Slice0.lean ====
section
/-! SUPPORT. The model's own tests: ill-formed commands are refused, one small step for each command, and for every
obligation with hypotheses a concrete state and operands that meet them, clause by clause. -/

set_option Elab.async false

namespace Sys2Proof.Tests

open Sys2Proof.Machine Sys2Proof.Stating

/-! ### Small states -/

/-- A state with this request at the head of an otherwise empty Request Queue, with tag 7. -/
def asked (s : State) (code : Byte) (fields : List Byte) : State :=
  { s with port := { s.port with requests := [{ code := code, tag := 7, fields := fields }] } }

/-- The part after reset with this request waiting. -/
abbrev ask (code : Byte) (fields : List Byte) : State := asked State.reset code fields

/-- The state after a command. -/
def after : Host.Outcome State Fault Refusal → State
  | .next t => t
  | .fault _ => State.reset
  | .refused _ => State.reset

/-- The last reply of the state after a command: its tag, its result and its fields. -/
def reply (o : Host.Outcome State Fault Refusal) : Option (Nat × ResultCode × List Nat) :=
  (after o).port.replies.getLast?.map fun r => (r.tag.toNat, r.result, r.fields.map BitVec.toNat)

/-- The part after reset with the record of slot 0 changed. -/
def proj0 (f : Projector → Projector) : State := State.reset.modProj 0 f

/-- The same with a channel 0 in a lock state. -/
def chan0 (s : State) (f : Channel → Channel) : State := s.modChan 0 f

/-- A LIVE projector 0 on a LOCKED channel, with claims counted as given. -/
def live0 (claims : Nat) : State :=
  chan0 (proj0 fun r => { r with state := .live, phi := 256, claimCount := claims })
    fun c => { c with lock := .locked, taken := .ready, attempts := 1 }

/-- A PARKED projector 0 on a LOCKED channel. -/
def parked0 : State :=
  chan0 (proj0 fun r => { r with state := .parked }) fun c => { c with lock := .locked, taken := .ready, attempts := 1 }

/-- Projector 0 fading, on a LOCKED channel. -/
def fading0 (state : ProjState) (f : Fade) : State :=
  chan0 (proj0 fun r => { r with state := state, phi := f.phi, fade := some f })
    fun c => { c with lock := .locked, taken := .ready, attempts := 1 }

/-- A live claim of a projector, at the middle of a small raster. -/
def liveClaim (p : Slot) (weight : Nat) : Claim :=
  { projector := p, livePos := some ⟨2048, 2048⟩, pendingPos := none, liveTrim := ⟨0, 0⟩, nextTrim := none,
    livePin := none, pendingPin := none, pendingNew := false, pendingRemoval := false, withdrawn := false,
    liveWeight := weight, nextWeight := weight }

/-- A pending-new claim of a projector. -/
def pendingClaim (p : Slot) : Claim :=
  { projector := p, livePos := none, pendingPos := some ⟨2048, 2048⟩, liveTrim := ⟨0, 0⟩, nextTrim := none,
    livePin := none, pendingPin := none, pendingNew := true, pendingRemoval := false, withdrawn := false,
    liveWeight := 0, nextWeight := 0 }

/-- The state with one node record, that of node n, and its claims taken out of the pool. -/
def oneNode (s : State) (n : Nat) (r : Node) : State :=
  { s with dome := { s.dome with nodes := [(n, r)], freeCount := 6144 - r.claims.length } }

/-- A node that holds these claims. -/
def nodeWith (cs : List Claim) : Node := { Node.initial with claims := cs, condition := conditionOf cs }

/-- The Control Port in a transaction state. -/
def inTxn (txn : TxnState) (q : Option PartialRequest) (f : Option FetchProgress) : State :=
  { State.reset with port := { State.reset.port with txn := txn, partialReq := q, fetch := f } }

/-- The Alignment Port changed. -/
def withAlign (f : AlignPort → AlignPort) : State := { State.reset with align := f State.reset.align }

/-- A LISTENING, synchronised port with these bytes in its FIFO. -/
def listening (fifo : List FifoEntry) (a : Assembler) : State :=
  withAlign fun p => { p with enable := true, receiver := .listening, synced := true, fifo := fifo, assembler := a }

/-- A byte with no flag. -/
def clean (b : Byte) : FifoEntry := { value := b, parityError := false, framingError := false, gap := false }

/-- A descriptor of one COMPACT record. -/
def oneRecord : Descriptor :=
  { start := 0, count := 1, format := .compact, pacing := .burst, quota := 1, honourEnd := true, applyAtEnd := false }

/-- The Mesh Loader changed. -/
def withLoader (f : Loader → Loader) : State := { State.reset with loader := f State.reset.loader }

/-- A RUNNING loader with its first fetch in flight. -/
def running (d : Descriptor) : State :=
  withLoader fun l => { l with
    state := .running, descriptor := some d, remaining := d.count, fetch := some { serial := 0, address := 0 }
    serial := 1 }

/-- Boundary deliveries owed. -/
def owing (s : State) : State := { s with owed := { swap := 1, fade := 1, slew := 1, quota := 1, raster := true } }

/-! ### Well-formedness: each check refuses an ill-formed command -/

theorem test_wf_refuses_red_above_1023 : Instr.wf (.domeFrameComplete ⟨[(0, ⟨1024, 0, 0⟩)]⟩) = false := by decide
theorem test_wf_refuses_green_above_1023 : Instr.wf (.domeFrameComplete ⟨[(0, ⟨0, 1024, 0⟩)]⟩) = false := by decide
theorem test_wf_refuses_blue_above_1023 : Instr.wf (.domeFrameComplete ⟨[(0, ⟨0, 0, 1024⟩)]⟩) = false := by decide
theorem test_wf_refuses_falling_keys :
    Instr.wf (.domeFrameComplete ⟨[(5, ⟨1, 1, 1⟩), (4, ⟨1, 1, 1⟩)]⟩) = false := by decide
theorem test_wf_refuses_a_listed_black_sample : Instr.wf (.domeFrameComplete ⟨[(5, ⟨0, 0, 0⟩)]⟩) = false := by decide
theorem test_wf_refuses_a_key_past_the_frame :
    Instr.wf (.domeFrameComplete ⟨[(4194304, ⟨1, 1, 1⟩)]⟩) = false := by decide
theorem test_wf_refuses_the_right_count_as_bad : Instr.wf (.domeFrameBadCount 4194304) = false := by decide
theorem test_wf_refuses_a_short_record :
    Instr.wf (.fetchCompletion 0 (.data [0, 0, 0, 0, 0, 0, 0])) = false := by decide
theorem test_wf_refuses_a_nine_byte_record :
    Instr.wf (.fetchCompletion 0 (.data [0, 0, 0, 0, 0, 0, 0, 0, 0])) = false := by decide
theorem test_wf_takes_the_last_sample_at_1023 :
    Instr.wf (.domeFrameComplete ⟨[(4194303, ⟨1023, 1023, 1023⟩)]⟩) = true := by decide
theorem test_wf_takes_a_short_count : Instr.wf (.domeFrameBadCount 4194303) = true := by decide
theorem test_wf_takes_a_full_record :
    Instr.wf (.fetchCompletion 0 (.data [0, 0, 0, 0, 0, 0, 0, 0, 0, 0])) = true := by decide

/-- No word spells a command: the table gives no row bits. -/
theorem test_no_word_spells_a_command : decodeTableWord 8 0 = none ∧ State.reset.withFetchWord 8 0 = State.reset :=
  ⟨rfl, rfl⟩

/-! ### One small step for each command: reset and the Control Port -/

theorem test_resetLine : after (exec .resetLine (live0 3)) = { State.reset with
    channels := State.reset.channels } := by decide +kernel
theorem test_resetDevice : after (exec .resetDevice (ask 0x7F [])) = State.reset := by decide +kernel
theorem test_selectAssert :
    (after (exec .selectAssert (ask 0x05 []))).port.statusByte = some 0x30#8 := by decide +kernel
theorem test_unitHeader_request : (after (exec (.unitHeader 0x81) (inTxn .awaitHeader none none))).port.txn = .readLength ∧
    (after (exec (.unitHeader 0x81) (inTxn .awaitHeader none none))).port.cont = true := by decide +kernel
theorem test_unitHeader_malformed :
    ((after (exec (.unitHeader 0x03) (inTxn .awaitHeader none none))).eventRecord 14).detail
      = some (.portDrop .malformed) := by decide +kernel
theorem test_requestLength :
    (after (exec (.requestLength 2) (inTxn .readLength (some ⟨0x01, none, []⟩) none))).port.partialReq
      = some ⟨0x01, some 2, []⟩ := by decide +kernel
theorem test_requestPayloadByte :
    (after (exec (.requestPayloadByte 9) (inTxn .readPayload (some ⟨0x01, some 2, [0x05]⟩) none))).port.requests
      = [⟨0x05, 9, []⟩] := by decide +kernel
theorem test_replyByte : (after (exec .replyByte (inTxn .sendReply none (some ⟨none, 0⟩)))).port.shiftedOut = some 0 := by
  decide +kernel
theorem test_selectRelease :
    ((after (exec .selectRelease (inTxn .readLength (some ⟨0x01, none, []⟩) none))).eventRecord 14).detail
      = some (.portDrop .truncated) := by decide +kernel
theorem test_unknownCode : reply (exec .unknownCode (ask 0x06 [1])) = some (7, .unknown, [6]) := by decide +kernel
theorem test_unknownCode_badLength : reply (exec .unknownCode (ask 0x05 [1])) = some (7, .badLength, [5, 3, 2]) := by
  decide +kernel

/-! ### The Dome Map -/

theorem test_readNode : reply (exec .readNode (ask 0x01 [0, 32, 9]))
    = some (7, .ok, [32, 0, 0, 8, 0, 0, 0, 0, 24, 0]) := by decide +kernel
theorem test_readNode_at_cursor : reply (exec .readNode (ask 0x01 [1, 0, 0]))
    = some (7, .ok, [0, 0, 0, 0, 0, 0, 0, 0, 24, 0]) ∧
    (after (exec .readNode (ask 0x01 [1, 0, 0]))).dome.cursor = 1 := by decide +kernel
theorem test_readPoint : reply (exec .readPoint (ask 0x02 [0, 0, 0, 0]))
    = some (7, .ok, [15, 0, 0, 3, 0, 0, 1, 0, 65, 0, 0, 1, 0, 0, 0, 0, 0]) := by decide +kernel
theorem test_readPoint_zenith :
    reply (exec .readPoint (asked (oneNode State.reset 2048 (nodeWith [liveClaim 2 4096])) 0x02 [0, 0, 0, 64]))
      = some (7, .ok, [0, 1, 0, 8, 1, 2, 0, 16]) := by decide +kernel
theorem test_placeCursor : reply (exec .placeCursor (ask 0x03 [31, 65])) = some (7, .ok, [31, 1]) := by decide +kernel
theorem test_setWalk : reply (exec .setWalk (ask 0x04 [7])) = some (7, .ok, [3]) ∧
    (after (exec .setWalk (ask 0x04 [7]))).dome.walk = .south := by decide +kernel
theorem test_clearMap :
    reply (exec .clearMap (asked (oneNode State.reset 5 (nodeWith [pendingClaim 1])) 0x05 [])) = some (7, .ok, [1, 0]) := by
  decide +kernel

/-- The worked lookups of section 1.5. -/
theorem test_worked_points :
    placePoint 41300 6000 = { triangle := 1489, b0 := 72, b1 := 85, b2 := 99 } ∧ cornersOf 1489 = (744, 809, 808) ∧
      placePoint 10500 16000 = { triangle := 3978, b0 := 143, b1 := 49, b2 := 64 } ∧
      cornersOf 3978 = (1994, 1995, 2048) ∧ blend 72 85 99 3000 1500 4096 = 2926 ∧ blend 72 85 99 1096 2596 0 = 1170 := by
  decide +kernel

/-! ### Edits and the swap -/

theorem test_setClaim : reply (exec .setClaim (asked parked0 0x10 [0, 1, 2, 0, 0, 8, 0, 8, 0, 0, 0]))
    = some (7, .ok, [1, 2, 0, 0, 255, 23]) := by decide +kernel
theorem test_setClaim_vacant : reply (exec .setClaim (ask 0x10 [0, 1, 2, 0, 0, 8, 0, 8, 0, 0, 0]))
    = some (7, .badProjector, []) := by decide +kernel
theorem test_dropClaim_freed :
    reply (exec .dropClaim (asked (oneNode parked0 5 (nodeWith [pendingClaim 0])) 0x11 [0, 5, 0])) = some (7, .ok, [0]) := by
  decide +kernel
theorem test_dropClaim_noClaim : reply (exec .dropClaim (ask 0x11 [0, 5, 0])) = some (7, .noClaim, []) := by decide +kernel
theorem test_applyEdits :
    reply (exec .applyEdits (asked (oneNode State.reset 5 { nodeWith [] with openMark := true }) 0x12 []))
      = some (7, .ok, [1, 0]) := by decide +kernel
theorem test_withdrawEdits : reply (exec .withdrawEdits (ask 0x13 [])) = some (7, .noGroup, []) := by decide +kernel
theorem test_discardEdits :
    reply (exec .discardEdits (asked (oneNode parked0 5 { nodeWith [pendingClaim 0] with openMark := true }) 0x14 []))
      = some (7, .ok, [1, 0, 1, 0]) := by decide +kernel
theorem test_swap_not_owed : after (exec .swap (live0 1)) = live0 1 := by decide +kernel
theorem test_singleSwap :
    ((singleSwap 5 (oneNode (live0 1) 5
      { nodeWith [{ liveClaim 0 0 with nextWeight := 4096 }] with nextValid := true })).node 5).condition = .covered := by
  decide +kernel

/-! ### The Weight Solver -/

theorem test_readSolver : reply (exec .readSolver (ask 0x18 [])) = some (7, .ok, [0, 0, 0, 0, 0, 0]) := by decide +kernel
theorem test_solveCompletion :
    let s := oneNode (live0 1) 5 { nodeWith [liveClaim 0 0] with inFlight := true }
    ((after (exec .solveCompletion { s with solver := { s.solver with flight := some (s.flightOf 5 .normal) } })).node
      5).claims.map Claim.nextWeight = [4096] := by decide +kernel
/-- The worked cases of section 2.4: an affinity, three claims normalised, a tie, and a shortfall of three. -/
theorem test_worked_weights :
    edgeDistance ⟨19208, 4800⟩ ⟨16, -8⟩ 4096 2160 = 299 ∧ affinity 299 400 none = 764 ∧
      edgeDistance ⟨30700, 8000⟩ ⟨20, 0⟩ 1920 1080 = -1 ∧ affinity (-1) 400 (some 900) = 0 ∧
      shareWeights [(2, 179200), (5, 89600), (9, 130944)] = [(2, 1836), (5, 918), (9, 1342)] ∧
      shareWeights [(4, 261888), (8, 261888), (11, 261888)] = [(4, 1366), (8, 1365), (11, 1365)] ∧
      shareWeights [(0, 76800), (5, 76800), (10, 76800), (13, 25600)] = [(0, 1229), (5, 1229), (10, 1229), (13, 409)] := by
  decide +kernel

/-! ### Projectors, fades and gains -/

theorem test_enrolProjector : reply (exec .enrolProjector (ask 0x20 [3, 0, 4, 0, 0, 0, 0, 168, 97, 0, 5]))
    = some (7, .ok, [0, 4, 0, 1, 1, 0, 168, 97, 0, 1]) := by decide +kernel
theorem test_fadeProjector : reply (exec .fadeProjector (asked parked0 0x21 [0, 0, 3]))
    = some (7, .ok, [1, 2, 0, 0, 0, 0, 0, 1, 3, 0, 0]) := by decide +kernel
theorem test_fadeProjector_refused : reply (exec .fadeProjector (ask 0x21 [0, 0, 3])) = some (7, .badProjector, [0]) := by
  decide +kernel
theorem test_fadeStep : (after (exec .fadeStep (owing (fading0 .fadingOut ⟨256, 0, 3, 0, false⟩)))).proj 0
    = { (fading0 .fadingOut ⟨256, 0, 3, 0, false⟩).proj 0 with phi := 171, fade := some ⟨256, 0, 3, 1, false⟩ } := by
  decide +kernel
theorem test_retireProjector : reply (exec .retireProjector (asked parked0 0x22 [0, 0])) = some (7, .ok, [0, 0, 0, 0]) ∧
    ((after (exec .retireProjector (asked parked0 0x22 [0, 0]))).chan 0).lock = .off := by decide +kernel
theorem test_setRamp : reply (exec .setRamp (asked parked0 0x23 [0, 255, 255])) = some (7, .ok, [255, 7]) := by
  decide +kernel
theorem test_readProjector : reply (exec .readProjector (ask 0x24 [15]))
    = some (7, .ok, [0, 15, 0, 0, 1, 0, 1, 0, 1, 168, 97, 0, 0, 0, 0, 0, 0, 0, 0, 0, 16, 0, 16, 0, 0, 0]) := by
  decide +kernel
theorem test_setGainFloor : reply (exec .setGainFloor (ask 0x28 [0, 0])) = some (7, .ok, [0, 4, 0]) := by decide +kernel
theorem test_setGainSlew : reply (exec .setGainSlew (ask 0x29 [0, 0])) = some (7, .ok, [1, 0]) := by decide +kernel
theorem test_gainSlew : ((after (exec .gainSlew (owing (proj0 fun r => { r with gainTarget := 4000 })))).proj 0).gainLive
    = 4032 := by decide +kernel
/-- The worked cases of chapter 5, and the fade with a reversal of section 4.3. -/
theorem test_worked_gains_and_fade :
    gainTargetFor 3072 (some 4800) (some 5200) = (3780, false) ∧ gainTargetFor 3072 (some 4800) (some 6100) = (3223, false) ∧
      gainTargetFor 3072 (some 4800) (some 7000) = (3072, true) ∧ gainTargetFor 3072 (some 5200) (some 4800) = (4096, false) ∧
      [1, 2].map (fun j => (Fade.mk 102 0 4 j false).phi) = [77, 51] ∧
      [1, 2, 3, 4].map (fun j => (Fade.mk 51 256 4 j false).phi) = [102, 154, 205, 256] := by decide +kernel

theorem test_readGains : (reply (exec .readGains (ask 0x2A []))).map (fun r => r.2.2.take 9)
    = some [0, 0, 12, 64, 0, 0, 0, 0, 0] := by decide +kernel

/-! ### The Raster Engine and the Content Input -/

theorem test_rasterFrameStart :
    (after (exec .rasterFrameStart { live0 0 with owed := { State.reset.owed with raster := true } })).raster.streams.get 0
      = some 0 := by decide +kernel
theorem test_sendPixel :
    (after (exec (.sendPixel 0) { live0 0 with raster :=
      { frame := some (live0 0).frameView, streams := Vector.replicate 16 (some 257), links := Vector.replicate 16 none } })
      ).raster.links.get 0 = some { x := 1, y := 1, red := 0, green := 0, blue := 0 } := by decide +kernel
/-- The worked pixel and the worked dome points of chapter 6. -/
theorem test_worked_pixel :
    locate (pixelCentre 1200 350) ⟨16000, 8000⟩ ⟨20096, 8000⟩ ⟨20096, 3904⟩ = some (56, 51, 149) ∧
      blend 56 51 149 2048 1024 3072 = 2440 ∧
      Hit.domePoint { triangle := 1320, b0 := 56, b1 := 51, b2 := 149 } = (21280, 5418) ∧
      sampleKey 21280 5418 = 685 * 4096 + 1330 ∧ [800, 512, 1023].map (fun c => drive c 2440 3900) = [454, 290, 580] ∧
      Hit.domePoint { triangle := 638, b0 := 100, b1 := 100, b2 := 56 } = (65136, 2160) ∧
      Hit.domePoint { triangle := 638, b0 := 0, b1 := 128, b2 := 128 } = (0, 2304) ∧
      Hit.domePoint { triangle := 4031, b0 := 60, b1 := 40, b2 := 156 } = (64921, 16184) ∧
      Hit.domePoint { triangle := 4031, b0 := 0, b1 := 100, b2 := 156 } = (0, 16184) ∧
      Hit.domePoint { triangle := 4031, b0 := 0, b1 := 0, b2 := 256 } = (64512, 16384) := by decide +kernel

theorem test_domeFrameComplete : (after (exec (.domeFrameComplete ⟨[]⟩) State.reset)).content.status = .present := by
  decide +kernel
theorem test_domeFrameBadCount : after (exec (.domeFrameBadCount 7)
    { State.reset with content := { State.reset.content with receiving := [⟨1, 2, 3⟩] } }) = State.reset := by
  decide +kernel
theorem test_contentSignalLost : (after (exec .contentSignalLost State.reset)).content.signal = false := by decide +kernel
theorem test_contentSignalReturn : (after (exec .contentSignalReturn
    { State.reset with content := { State.reset.content with signal := false } })).content.signal = true := by
  decide +kernel

/-! ### The Output Channels -/

theorem test_synthStartCompletion :
    ((after (exec (.synthStartCompletion ⟨0, 0⟩) (chan0 parked0 fun c => { c with lock := .starting }))).chan 0).lock
      = .awaitLock := by decide +kernel
theorem test_lockIndicationRise :
    ((after (exec (.lockIndicationRise ⟨0, 0⟩) (chan0 parked0 fun c => { c with lock := .awaitLock }))).chan 0).lock
      = .validating := by decide +kernel
/-- R134's last row with the expiry first: the rise that waited is discarded, and the next attempt awaits its own. -/
theorem test_rise_waiting_at_timeout :
    let s := after (exec (.lockTimeout 0) (chan0 parked0 fun c => { c with lock := .awaitLock, attempts := 1 }))
    after (exec (.lockIndicationRise ⟨0, 0⟩) s) = s ∧
      ((after (exec (.lockIndicationRise ⟨0, 1⟩) s)).chan 0).lock = .validating := by decide +kernel
theorem test_lockIndicationFall : ((after (exec (.lockIndicationFall ⟨0, 0⟩) parked0)).proj 0).failCause = some .lockLost := by
  decide +kernel
theorem test_lockTimeout :
    ((after (exec (.lockTimeout 0) (chan0 parked0 fun c => { c with lock := .awaitLock, attempts := 3 }))).chan 0).lock
      = .lockFailed := by decide +kernel
theorem test_windowCompletion :
    ((after (exec (.windowCompletion 0 16384) (chan0 parked0 fun c =>
      { c with lock := .validating, expected := 16384, tolerance := 32 }))).chan 0).lock = .locked := by decide +kernel
theorem test_restartOutput : reply (exec .restartOutput (asked parked0 0x30 [0])) = some (7, .ok, [1, 1, 5]) := by
  decide +kernel
theorem test_readyRawChange : ((after (exec (.readyRawChange 0 .ready) State.reset)).chan 0).debounce = .settling .ready := by
  decide +kernel
theorem test_debounceExpiry : ((after (exec (.debounceExpiry 0) State.reset)).chan 0).taken = .notReady := by decide +kernel

/-! ### The Frame Timer and the boundary -/

theorem test_periodTimerExpiry : (after (exec .periodTimerExpiry State.reset)).timer.expiry = some 33334 ∧
    (after (exec .periodTimerExpiry State.reset)).owed = ⟨1, 1, 1, 1, true⟩ := by decide +kernel
theorem test_genlockPulse_acquires : (after (exec (.genlockPulse 40000)
    { State.reset with timer := { State.reset.timer with run := [0, 20000] } })).timer.watchdog = some 70000 := by
  decide +kernel
theorem test_lossWatchdogExpiry : (after (exec .lossWatchdogExpiry
    { State.reset with timer := { State.reset.timer with watchdog := some 70000 } })).timer.state = .freeRun := by
  decide +kernel
theorem test_setFramePeriod : reply (exec .setFramePeriod (ask 0x38 [0, 0])) = some (7, .ok, [64, 31]) := by decide +kernel
theorem test_readFrame : reply (exec .readFrame (ask 0x39 [])) = some (7, .ok, [0, 0, 27, 65, 0, 0, 0, 0, 0, 1]) := by
  decide +kernel

/-! ### The Alignment Port and its reports -/

theorem test_byteCompletion : (after (exec (.byteCompletion 0xA5 false true) (listening [] .seekLead))).align.fifo
    = [clean 0xA5] := by decide +kernel
theorem test_byteCompletion_parity : ((after (exec (.byteCompletion 0xA5 true true) (listening [] .seekLead))).align.fifo.map
    FifoEntry.parityError) = [true] := by decide +kernel
theorem test_lineIdle : (after (exec .lineIdle (withAlign fun a => { a with enable := true, receiver := .listening }))
    ).align.synced = true := by decide +kernel
theorem test_lineBreak : (after (exec .lineBreak (listening [] .seekLead))).align.resume = some .listening := by
  decide +kernel
theorem test_assemblerTake : (after (exec .assemblerTake (listening [clean 3] .readType))).align.queue = [.step] := by
  decide +kernel
theorem test_driftReport :
    (((after (exec .driftReport { oneNode (live0 1) 5 (nodeWith [liveClaim 0 4096]) with
      align := { State.reset.align with queue := [.drift 0 0 5 3000 (-7)] } })).node 5).claims.map Claim.nextTrim)
      = [some ⟨2047, -7⟩] := by decide +kernel
theorem test_lumaReport :
    ((after (exec .lumaReport { parked0 with align := { State.reset.align with queue := [.luma 0 100] } })).proj 0).luminance
      = some 100 := by decide +kernel
theorem test_stepReport :
    (after (exec .stepReport (withAlign fun a => { a with queue := [.step] }))).align.last = some (.step, .ignored) := by
  decide +kernel
theorem test_setAlignLink : reply (exec .setAlignLink (ask 0x40 [9, 0, 1])) = some (7, .ok, [3, 0, 1, 1]) := by decide +kernel
theorem test_clearAlignErrors : reply (exec .clearAlignErrors (asked
    (withAlign fun a => { a with enable := true, receiver := .halted, errors := { ErrorSet.empty with framing := true } })
    0x41 [])) = some (7, .ok, [2, 1]) := by decide +kernel
theorem test_resetAlignReceiver : reply (exec .resetAlignReceiver (asked (withAlign fun a => { a with queue := [.step] })
    0x42 [])) = some (7, .ok, [1, 0]) := by decide +kernel
theorem test_readAlignStatus : reply (exec .readAlignStatus (ask 0x43 []))
    = some (7, .ok, [0, 0, 0, 0, 0, 0, 0, 0, 0]) := by decide +kernel

/-! ### The Mesh Loader -/

theorem test_loadMesh : reply (exec .loadMesh (ask 0x48 [0, 1, 0, 0, 0, 0, 0, 0, 0, 1, 0]))
    = some (7, .ok, [0, 1, 0, 0, 0, 0, 0, 1, 0, 1, 1]) ∧
    (after (exec .loadMesh (ask 0x48 [0, 1, 0, 0, 0, 0, 0, 0, 0, 1, 0]))).loader.remaining = 65536 := by decide +kernel
theorem test_stopLoad : reply (exec .stopLoad (asked (running oneRecord) 0x49 [])) = some (7, .ok, [1, 1]) := by
  decide +kernel
theorem test_resumeLoad : reply (exec .resumeLoad (ask 0x4A [])) = some (7, .state, [0]) := by decide +kernel
theorem test_resetLoader : reply (exec .resetLoader (asked (running oneRecord) 0x4B []))
    = some (7, .ok, [1, 1, 0, 0, 0, 0, 0]) := by decide +kernel
theorem test_readLoader : reply (exec .readLoader (ask 0x4C []))
    = some (7, .ok, [0, 0, 0, 0, 0, 0, 0, 0, 0, 0, 0, 0, 0, 0, 0, 0]) := by decide +kernel
theorem test_quotaRenewal : (after (exec .quotaRenewal (owing (withLoader fun l => { l with quotaUsed := 9 })))).loader.quotaUsed
    = 0 := by decide +kernel
theorem test_fetchCompletion_bad : (after (exec (.fetchCompletion 0 (.data [0, 0, 0, 0, 0, 0, 0, 0])) (running oneRecord))
    ).loader.fault = some (0, .badRecord) := by decide +kernel
theorem test_fetchCompletion_end : (after (exec (.fetchCompletion 0 (.data [0x30, 0, 0, 0, 0, 0, 0, 0])) (running oneRecord))
    ).loader.outcome = .doneEnd := by decide +kernel

/-! ### The Attention Unit -/

theorem test_readEvents : (reply (exec .readEvents (asked (State.reset.raise (.swapDone 5)) 0x50 []))).map
    (fun r => r.2.2) = some [4, 0, 0, 2, 0, 0, 0, 0, 0, 0, 0, 5, 0] := by decide +kernel
theorem test_clearEvents : reply (exec .clearEvents (asked (State.reset.raise (.swapDone 5)) 0x51 [2, 0]))
    = some (7, .ok, [2, 0, 0, 0, 0, 0]) := by decide +kernel
theorem test_setEventMask : reply (exec .setEventMask (asked (State.reset.raise (.swapDone 5)) 0x52 [2, 0]))
    = some (7, .ok, [2, 0, 2, 0]) := by decide +kernel

/-! ### Witnesses: for each obligation, operands and a state that meet its hypotheses, clause by clause

Each conjunct is one clause's hypotheses on one concrete state, at the edge of the clause's range where it has one. -/

theorem test_witness_StepRunsFrontCommand :
    { State.reset with pending := [.swap, .fadeStep] }.pending = .swap :: [.fadeStep] ∧ State.reset.pending = [] := by
  decide +kernel

theorem test_witness_resets : Waits (ask 0x7F []) 0x7F 7 [] [] := by decide +kernel

theorem test_witness_SelectBeginsAndEndsTransactions :
    State.reset.port.txn = .noSelect ∧ (inTxn .ignoring none none).port.txn ≠ .noSelect ∧
      (inTxn .readLength (some ⟨1, none, []⟩) none).port.txn = .readLength ∧
      (inTxn .readPayload (some ⟨1, some 2, []⟩) none).port.txn = .readPayload := by decide +kernel

theorem test_witness_HeaderByteBeginsUnit :
    (inTxn .awaitHeader none none).port.txn = .awaitHeader ∧
      (0x00 : Byte).toNat % 128 = 0 ∧ (0x80 : Byte).toNat % 128 = 0 ∧ 128 ≤ (0x80 : Byte).toNat ∧
      (0x81 : Byte).toNat % 128 = 1 ∧ (0x02 : Byte).toNat % 128 = 2 ∧ 2 < (0x03 : Byte).toNat % 128 ∧
      2 < (0xFF : Byte).toNat % 128 ∧ (inTxn .ignoring none none).port.txn = .ignoring ∧
      Instr.replyByte ∈ [Instr.unitHeader 0, .requestLength 0, .requestPayloadByte 0, .replyByte] := by decide +kernel

theorem test_witness_RequestUnitReachesQueue :
    (let s := inTxn .readLength (some ⟨1, none, []⟩) none
     s.port.txn = .readLength ∧ s.port.partialReq = some ⟨1, none, []⟩) ∧
    (2 ≤ (2 : Byte).toNat ∧ (2 : Byte).toNat ≤ 32) ∧ (2 ≤ (32 : Byte).toNat ∧ (32 : Byte).toNat ≤ 32) ∧
    (1 : Byte).toNat < 2 ∧ 32 < (33 : Byte).toNat ∧
    (let s := inTxn .readPayload (some ⟨1, some 3, [5]⟩) none
     s.port.txn = .readPayload ∧ s.port.partialReq = some ⟨1, some 3, [5]⟩ ∧ [5].length + 1 < 3) ∧
    (let s := inTxn .readPayload (some ⟨1, some 2, [5]⟩) none
     s.port.partialReq = some ⟨1, some 2, [5]⟩ ∧ ([5] : List Byte) ++ [7] = 5 :: 7 :: [] ∧ ([] : List Byte).length + 2 = 2 ∧
      s.port.requests.length < 4) ∧
    4 ≤ ({ State.reset with port := { State.reset.port with
      requests := List.replicate 4 ⟨5, 0, []⟩ } }).port.requests.length := by decide +kernel

theorem test_witness_FetchShiftsOutReply :
    (inTxn .sendReply none (some ⟨none, 0⟩)).port.fetch = some ⟨none, 0⟩ ∧
      (inTxn .sendReply none (some ⟨none, 0⟩)).port.txn = .sendReply ∧
      (inTxn .sendReply none (some ⟨some ⟨7, .ok, [9]⟩, 0⟩)).port.fetch = some ⟨some ⟨7, .ok, [9]⟩, 0⟩ ∧
      ((7 : Byte) :: byte ResultCode.ok.code :: [9])[1 - 1]? = some 7 ∧ 1 < 2 + ([9] : List Byte).length ∧
      ((7 : Byte) :: byte ResultCode.ok.code :: [9])[3 - 1]? = some 9 ∧ 3 = 2 + ([9] : List Byte).length := by
  decide +kernel

theorem test_witness_WrongRequestsAreAnsweredUnrun :
    Waits (ask 0x06 []) 0x06 7 [] [] ∧ (∀ e ∈ catalogue, (0x06 : Byte).toNat ≠ e.2.1) ∧
      Waits (ask 0x05 [1]) 0x05 7 [1] [] ∧ (Instr.clearMap, 5, 2) ∈ catalogue ∧ (0x05 : Byte).toNat = 5 ∧
      ([1] : List Byte).length + 2 ≠ 2 := by decide +kernel

theorem test_witness_ReadNodeReportsNode :
    Waits (ask 0x01 [0, 32, 63]) 0x01 7 [0, 32, 63] [] ∧ addressed (ask 0x01 [0, 32, 63]) 0 32 63 = some 2048 ∧
      Waits (ask 0x01 [1, 0, 0]) 0x01 7 [1, 0, 0] [] ∧ addressed (ask 0x01 [1, 0, 0]) 1 0 0 = some 0 ∧
      Waits (ask 0x01 [0, 33, 0]) 0x01 7 [0, 33, 0] [] ∧ addressed (ask 0x01 [0, 33, 0]) 0 33 0 = none := by
  decide +kernel

theorem test_witness_DomePointIsPlaced :
    (30 * 512 + 511) / 512 ≤ 30 ∧ 2 * (0 % 512) ≤ 0 % 1024 ∧ 0 < 2 * (1 % 512) ∧ 16383 / 512 = 31 ∧ 65535 < 65536 ∧
      16383 < 16384 := by decide

theorem test_witness_ReadPointReportsShares :
    Waits (ask 0x02 [0, 0, 255, 63]) 0x02 7 [0, 0, 255, 63] [] ∧ word 255 63 < 16384 ∧
      Waits (ask 0x02 [0, 0, 0, 64]) 0x02 7 [0, 0, 0, 64] [] ∧ word 0 64 = 16384 ∧
      Waits (ask 0x02 [0, 0, 1, 64]) 0x02 7 [0, 0, 1, 64] [] ∧ 16384 < word 1 64 := by decide +kernel

theorem test_witness_CursorRequestsSetCursorAndWalk :
    Waits (ask 0x03 [31, 255]) 0x03 7 [31, 255] [] ∧ (31 : Byte).toNat < 32 ∧
      Waits (ask 0x03 [32, 9]) 0x03 7 [32, 9] [] ∧ (32 : Byte).toNat = 32 ∧
      Waits (ask 0x03 [33, 0]) 0x03 7 [33, 0] [] ∧ 32 < (33 : Byte).toNat ∧
      Waits (ask 0x04 [255]) 0x04 7 [255] [] ∧ (255 : Byte).toNat % 4 = 3 ∧
      (3, Walk.south) ∈ [(0, Walk.east), (1, .west), (2, .north), (3, .south)] := by decide +kernel

/-- The part after reset with the cursor and the walk direction as given. -/
def cursorAt (cursor remembered : Nat) (walk : Walk) : State :=
  { State.reset with dome := { State.reset.dome with cursor := cursor, remembered := remembered, walk := walk } }

theorem test_witness_AdvanceFollowsWalkTable :
    (cursorAt 2047 63 .east).dome.cursor = 31 * 64 + 63 ∧ (cursorAt 0 0 .west).dome.cursor = 0 * 64 + 0 ∧
      (cursorAt 1983 63 .north).dome.cursor = 30 * 64 + 63 ∧ (cursorAt 2047 63 .north).dome.cursor = 31 * 64 + 63 ∧
      (cursorAt 64 0 .south).dome.cursor = 1 * 64 + 0 ∧ (cursorAt 63 63 .south).dome.cursor = 0 * 64 + 63 ∧
      (cursorAt 2048 63 .south).dome.cursor = 2048 := by decide +kernel

theorem test_witness_ClearMapEmptiesMap :
    let s := asked (proj0 fun r => { r with state := .retiring, claimCount := 1 }) 0x05 []
    Waits s 0x05 7 [] [] ∧ (s.proj 0).state = .retiring ∧ (s.proj 1).state ≠ .retiring ∧
      (s.loader.state ≠ .waiting ∨ s.loader.reason ≠ some .yield) := by decide +kernel

/-- CLEAR MAP with a RETIRING slot keeps the detail of its FADE_DONE; without one it raises nothing. -/
theorem test_witness_ClearMap_events :
    let s := asked (proj0 fun r => { r with state := .retiring, claimCount := 1 }) 0x05 []
    (after (exec .clearMap s)).eventRecord 6 = afterRaising (s.eventRecord 6) (.fadeDone 0 true) ∧
      SlotEmptied s (after (exec .clearMap s)) 0 ∧
      (∀ p, ((ask 0x05 []).proj p).state ≠ .retiring) ∧
      (after (exec .clearMap (ask 0x05 []))).attention = State.reset.attention := by
  unfold SlotEmptied SameButForTarget
  decide +kernel

/-- A FAILED projector 0 that owes one failover, with the loader WAITING for YIELD. -/
def yielding : State :=
  { proj0 fun r => { r with state := .failed, failCause := some .line, claimCount := 1, failover := 1 } with
    loader := { State.reset.loader with state := .waiting, reason := some .yield, descriptor := some oneRecord } }

theorem test_witness_YieldFollows :
    let s := asked yielding 0x05 []
    s.loader.state = .waiting ∧ s.loader.reason = some .yield ∧ FailoverOwed s ∧ ¬FailoverOwed (after (exec .clearMap s)) ∧
      (after (exec .clearMap s)).loader.state = .running ∧ State.reset.loader.state ≠ .waiting := by decide +kernel

/-! ### Edits and the swap -/

/-- SET CLAIM on ring 0, sector 5, slot 0, at mode 0, with pin mode 0. -/
def setFields : List Byte := [0, 0, 5, 0, 0, 8, 0, 8, 0, 0, 0]

theorem test_witness_SetClaimChecksCreatesOrUpdates :
    Waits (ask 0x10 setFields) 0x10 7 [0, 0, 5, 0, 0, 8, 0, 8, 0, 0, 0] [] ∧
      setClaimRefusal (ask 0x10 setFields) (addressed (ask 0x10 setFields) 0 0 5) 0 = some .badProjector ∧
      setClaimRefusal (ask 0x10 setFields) (addressed (ask 0x10 setFields) 0 33 5) 0 = some .badNode ∧
      setClaimRefusal (ask 0x10 setFields) (some 5) 16 = some .badProjector ∧
      setClaimRefusal (proj0 fun r => { r with state := .retiring }) (some 5) 0 = some .state ∧
      setClaimRefusal (oneNode parked0 5 { nodeWith [] with groupMark := true }) (some 5) 0 = some .sealed ∧
      setClaimRefusal (oneNode parked0 5 (nodeWith (List.replicate 4 (liveClaim 3 0)))) (some 5) 0 = some .listFull ∧
      setClaimRefusal (parked0.setFree 0) (some 5) 0 = some .poolFull ∧
      setClaimRefusal (asked parked0 0x10 setFields) (some 5) 0 = none ∧
      (∀ c ∈ ((asked parked0 0x10 setFields).node 5).claims, c.projector ≠ 0) ∧
      setClaimRefusal (asked (oneNode parked0 5 (nodeWith [liveClaim 0 0])) 0x10 setFields) (some 5) 0 = none ∧
      claimBy ((asked (oneNode parked0 5 (nodeWith [liveClaim 0 0])) 0x10 setFields).node 5).claims 0
        = some (liveClaim 0 0) := by decide +kernel

theorem test_witness_DropClaimFreesOrMarks :
    let t := fun c => asked (oneNode parked0 5 (nodeWith [c])) 0x11 [0, 5, 0]
    Waits (ask 0x11 [0, 5, 0]) 0x11 7 [0, 5, 0] [] ∧
      dropClaimRefusal (ask 0x11 [0, 5, 0]) (namedNode 0 5) 0 = some .noClaim ∧
      dropClaimRefusal (ask 0x11 [0, 5, 0]) (namedNode 33 5) 0 = some .badNode ∧
      dropClaimRefusal (ask 0x11 [0, 5, 0]) (namedNode 0 5) 16 = some .badProjector ∧
      dropClaimRefusal (oneNode parked0 5 { nodeWith [] with groupMark := true }) (some 5) 0 = some .sealed ∧
      Waits (t (liveClaim 0 0)) 0x11 7 [0, 5, 0] [] ∧ dropClaimRefusal (t (liveClaim 0 0)) (some 5) 0 = none ∧
      claimBy ((t (liveClaim 0 0)).node 5).claims 0 = some (liveClaim 0 0) ∧ (liveClaim 0 0).pendingNew = false ∧
      claimBy ((t (pendingClaim 0)).node 5).claims 0 = some (pendingClaim 0) ∧ (pendingClaim 0).pendingNew = true ∧
      ((t (pendingClaim 0)).proj 0).failover ≠ 1 ∧
      (let s := asked (oneNode yielding 5 (nodeWith [pendingClaim 0])) 0x11 [0, 5, 0]
       dropClaimRefusal s (some 5) 0 = none ∧ (s.proj 0).failover = 1 ∧
        (after (exec .dropClaim s)).loader.state = .running) := by decide +kernel

/-- A group of one node, and an open node beside it. -/
def grouped (state : GroupState) (waiting : Bool) : State :=
  { oneNode State.reset 5 { nodeWith [] with groupMark := true, nextValid := state == .ready } with
    edit := { groupState := state, members := 1, readyCount := if state = .ready then 1 else 0, applyWaiting := waiting } }

theorem test_witness_ApplyEditsSealsOpenSet :
    Waits (asked (grouped .solving false) 0x12 []) 0x12 7 [] [] ∧ (grouped .solving false).edit.groupState ≠ .none ∧
      Waits (ask 0x12 []) 0x12 7 [] [] ∧ (ask 0x12 []).edit.groupState = .none ∧ NothingToBegin (ask 0x12 []) ∧
      (∃ n < 2049, ((asked (oneNode State.reset 2048 { nodeWith [] with openMark := true }) 0x12 []).node n).openMark
        = true) := by
  refine ⟨by decide +kernel, by decide +kernel, by decide +kernel, by decide +kernel, by decide +kernel,
    2048, by decide, by decide +kernel⟩

theorem test_witness_ApplyEdits_emptyOpenSet : ∀ n < 2049, ((ask 0x12 []).node n).openMark = false := fun _ _ => rfl

theorem test_witness_WithdrawEditsReopensGroup :
    Waits (ask 0x13 []) 0x13 7 [] [] ∧ (ask 0x13 []).edit.groupState = .none ∧
      Waits (asked (grouped .ready false) 0x13 []) 0x13 7 [] [] ∧ (grouped .ready false).edit.groupState ≠ .none ∧
      (grouped .ready false).edit.applyWaiting = false ∧ (grouped .ready true).edit.applyWaiting = true ∧
      ((grouped .ready true).node 5).groupMark = true ∧ ((grouped .ready true).node 6).groupMark = false ∧
      ((after (exec .withdrawEdits (asked (grouped .ready false) 0x13 []))).node 5).openMark = true ∧
      reply (exec .withdrawEdits (asked (grouped .ready true) 0x13 [])) = some (7, .ok, [1, 0, 1, 0]) := by
  decide +kernel

/-- Node lists are ordered when the one listed record's is. -/
theorem ordered_of_one {s : State} {k : Nat} {r : Node} (h : s.dome.nodes = [(k, r)])
    (hr : r.claims.length ≤ 4 ∧ r.claims.Pairwise fun c d => c.projector < d.projector) : s.ListsOrdered := by
  intro n
  unfold State.node
  rw [h]
  by_cases e : k = n
  · simpa [Sparse.get, e] using hr
  · simp [Sparse.get, e, Node.initial]

theorem test_witness_DiscardEditsRemovesEdits :
    let s := asked (oneNode parked0 5 { nodeWith [pendingClaim 0, liveClaim 2 0] with openMark := true }) 0x14 []
    Waits s 0x14 7 [] [] ∧ s.ListsOrdered ∧ ∀ p, (s.proj p).failover = 0 :=
  ⟨by decide +kernel, ordered_of_one rfl (by decide +kernel), by decide +kernel⟩

/-- A discard that frees the claim a FAILED projector's last failover waits for: FAILOVER with the slot, and nothing
else raised. -/
theorem test_witness_DiscardEdits_failover :
    let s := asked (oneNode yielding 5 { nodeWith [pendingClaim 0] with openMark := true }) 0x14 []
    let t := after (exec .discardEdits s)
    (0 < (s.proj 0).failover ∧ (s.proj 0).failover ≤ 1) ∧ (t.proj 0).failover = 0 ∧
      t.eventRecord 2 = afterRaising (s.eventRecord 2) (.failover 0) ∧
      (∀ k, k ≠ 2 → t.eventRecord k = s.eventRecord k) ∧ t.loader.state = .running := by decide +kernel

theorem test_witness_SwapMovesNextPartsLive :
    let s := owing (oneNode (live0 1) 5 { nodeWith [liveClaim 0 4096] with nextValid := true })
    0 < s.owed.swap ∧ s.edit.applyWaiting = false ∧ NothingToBegin s ∧ s.edit.groupState ≠ .ready ∧
      (s.node 5).groupMark = false ∧ (s.node 5).nextValid = true ∧
      (s.node 6).groupMark = false ∧ (s.node 6).nextValid = false ∧
      0 < (owing (grouped .ready false)).owed.swap ∧ NothingToBegin (owing (grouped .ready false)) ∧
      (owing (grouped .ready false)).edit.groupState = .ready ∧ ((owing (grouped .ready false)).node 5).groupMark = true ∧
      ((owing (grouped .solving false)).node 5).groupMark = true ∧
      (owing (grouped .solving false)).edit.groupState ≠ .ready ∧ (∀ p, (s.proj p).failover = 0) := by decide +kernel

/-- Every clause of the swap's reports at once: node 5 turns DARK, frees the last claim of a RETIRING projector 0 and
the claim of a FAILED projector 1 that owes one failover. -/
def swapping : State :=
  let claims := [{ liveClaim 0 4096 with withdrawn := true }, { liveClaim 1 0 with nextWeight := 0 }]
  let s := oneNode State.reset 5 { nodeWith claims with nextValid := true }
  owing ((s.modProj 0 fun r => { r with state := .retiring, claimCount := 1 }).modProj 1 fun r =>
    { r with state := .failed, claimCount := 1, failover := 1 })

theorem test_witness_Swap_reports :
    0 < swapping.owed.swap ∧ swapping.edit.applyWaiting = false ∧ NothingToBegin swapping ∧
      (swapping.node 5).condition = .covered ∧ ((singleSwap 5 swapping).node 5).condition = .dark ∧
      ((swapping.proj 0).state = .retiring ∧ (swapping.proj 0).claimCount ≤ 1) ∧
      ((swapping.proj 1).state ≠ .retiring ∧ 0 < (swapping.proj 1).failover ∧ (swapping.proj 1).failover ≤ 1) ∧
      ((singleSwap 5 swapping).eventRecord 0).detail = some (.darkNode 5) ∧
      ((singleSwap 5 swapping).eventRecord 2).detail = some (.failover 1) ∧
      ((singleSwap 5 swapping).proj 0).state = .vacant := by decide +kernel

/-- A RETIRING slot whose last claim is freed where its last failover is owed raises FAILOVER and FADE_DONE. -/
theorem test_witness_Swap_emptied :
    let s := swapping.modProj 0 fun r => { r with failover := 1 }
    let t := singleSwap 5 s
    (s.proj 0).state = .retiring ∧ (s.proj 0).claimCount = (s.node 5).claims.countP (fun c => c.projector = 0) ∧
      (s.proj 0).failover ≤ (s.node 5).claims.countP (fun c => c.projector = 0) ∧ SlotEmptied s t 0 ∧
      t.eventRecord 2 = [(0 : Slot), 1].foldl (fun r p => afterRaising r (.failover p)) (s.eventRecord 2) ∧
      t.eventRecord 6 = afterRaising (s.eventRecord 6) (.fadeDone 0 true) := by
  unfold SlotEmptied SameButForTarget
  decide +kernel

/-- A READY group of no members, an open node 6 beside it, and a boundary owed. -/
def memberless (waiting : Bool) : State :=
  owing { oneNode State.reset 6 { nodeWith [] with openMark := true } with
    edit := { groupState := .ready, members := 0, readyCount := 0, applyWaiting := waiting } }

theorem test_witness_Swap_applyWaiting :
    (owing (grouped .solving true)).edit.applyWaiting = true ∧ (owing (grouped .solving true)).edit.groupState ≠ .ready ∧
      0 < (owing (grouped .solving true)).owed.swap ∧ (memberless true).edit.applyWaiting = true ∧
      (memberless true).edit.groupState = .ready ∧ NothingToBegin (memberless true) := by decide +kernel

theorem test_witness_Swap_sealsOpenSet : ∃ n < 2049, ((after (exec .swap (memberless false))).node n).openMark = true := by
  refine ⟨6, by decide, ?_⟩
  let u := { memberless false with owed := { (memberless false).owed with swap := 0 } }
  have h : ∀ n, swapNode true u n = u := by
    intro n
    have hn : u.node n = (memberless false).node n := rfl
    have hm : ((memberless false).node n).groupMark = false ∧ ((memberless false).node n).nextValid = false := by
      by_cases e : 6 = n
      · subst e; decide +kernel
      · simp [memberless, owing, oneNode, State.node, Sparse.get, e, Node.initial]
    simp [swapNode, hn, hm.1, hm.2]
  have hr : (u.edit.groupState == .ready) = true := by decide +kernel
  have hs : swapAll u = startSolve (finishGroup u.edit.members u) := by
    simp only [swapAll, hr, if_true, List.foldl_fixed' h]
  have hx : after (exec .swap (memberless false)) = swapAll u := by
    simp [exec, execSwap, after, memberless, owing, u]
  rw [hx, hs]
  decide +kernel

theorem test_witness_conditionOf :
    conditionOf [pendingClaim 0] = .unclaimed ∧ conditionOf [liveClaim 0 0] = .dark ∧
      conditionOf [liveClaim 0 0, liveClaim 1 1] = .covered := by decide

/-! ### The Weight Solver -/

theorem test_witness_QueueRequestsAndInvalidations :
    (State.reset.node 5).queued = none ∧
      ((oneNode State.reset 5 { nodeWith [] with queued := some .normal }).node 5).queued = some .normal ∧
      ((oneNode State.reset 5 { nodeWith [] with queued := some .urgent }).node 5).queued = some .urgent ∧
      ((grouped .ready false).node 5).groupMark = true ∧ ((grouped .ready false).node 5).nextValid = true ∧
      ¬((State.reset.node 5).groupMark = true ∧ (State.reset.node 5).nextValid = true) := by decide +kernel

/-- A Solve Queue with these two classes and no solve in flight. -/
def queued (urgent normal : List Nat) : State :=
  { State.reset with solver := { urgent := urgent, normal := normal, flight := none } }

theorem test_witness_SolveBeginsAtQueueHead :
    (queued [5] [6]).solver.flight = none ∧ (queued [5] [6]).solver.urgent = 5 :: [] ∧
      (queued [] [6]).solver.urgent = [] ∧ (queued [] [6]).solver.normal = 6 :: [] ∧ NothingToBegin (queued [] []) := by
  decide +kernel

/-- A solve of node 5 in flight on a node record. -/
def solving (r : Node) : State :=
  let s := oneNode (live0 1) 5 { r with inFlight := true }
  { s with solver := { s.solver with flight := some (s.flightOf 5 .normal) } }

theorem test_witness_SolveCompletionStoresOrDiscards :
    let f := fun r => (oneNode (live0 1) 5 { r with inFlight := true }).flightOf 5 .normal
    let out := nodeWith [{ liveClaim 0 0 with liveTrim := ⟨-2048, -2048⟩, livePos := some ⟨0, 0⟩ }]
    (solving (nodeWith [liveClaim 0 0])).solver.flight = some (f (nodeWith [liveClaim 0 0])) ∧
      ((solving { nodeWith [] with dirty := true }).node 5).dirty = true ∧
      ((solving (nodeWith [liveClaim 0 0])).node 5).dirty = false ∧
      ((solving { nodeWith [] with groupMark := true }).node 5).groupMark = true ∧
      ((solving { nodeWith [] with groupMark := true }).node 5).nextValid = false ∧
      ((solving (nodeWith [liveClaim 0 0])).node 5).groupMark = false ∧
      (∃ c ∈ (f out).claims, c.offRaster (f out).member = true) ∧
      (∀ c ∈ (f (nodeWith [liveClaim 0 0])).claims, c.offRaster (f (nodeWith [liveClaim 0 0])).member = false) := by
  decide +kernel

/-- The three ways a solve leaves a claim out, and a claim read by a member's view and by a single node's view. -/
theorem test_witness_SolveCompletion_affinity :
    let read := fun k => ReadClaim.mk k { state := .live, phi := 256, width := 256, height := 256, ramp := 1 }
    let edited := { liveClaim 0 0 with
      pendingPos := some ⟨0, 0⟩, pendingPin := some (.set 5), nextTrim := some ⟨-1, 0⟩, livePin := some 9 }
    ((liveClaim 0 0).withdrawn = false ∧ { liveClaim 0 0 with withdrawn := true }.withdrawn = true) ∧
      { liveClaim 0 0 with pendingRemoval := true }.pendingRemoval = true ∧ (pendingClaim 0).pendingNew = true ∧
      (edited.pendingPos = some ⟨0, 0⟩ ∧ edited.livePos = some ⟨2048, 2048⟩) ∧
      (read edited).offRaster true = true ∧ (read edited).offRaster false = false ∧
      (read edited).effective false = 9 * 256 ∧ (read (liveClaim 0 0)).effective false = 1023 * 256 ∧
      (read (pendingClaim 0)).effective false = 0 ∧ (read (pendingClaim 0)).effective true = 1023 * 256 ∧
      ProjState.parked ∉ [ProjState.fadingIn, .live, .fadingOut] := by decide +kernel

theorem test_witness_SolvedWeightsShareUnity :
    let es : List (Slot × Nat) := [(0, 261888), (1, 1), (2, 1), (15, 0)]
    es.length ≤ 4 ∧ (es.map Prod.fst).Nodup ∧ 0 < (es.map Prod.snd).sum ∧
      (([] : List (Slot × Nat)).map Prod.snd).sum = 0 := by decide +kernel

/-! ### Projector records and fades -/

theorem test_witness_EnrolFillsVacantSlot :
    let fields : List Byte := [16, 0, 4, 0, 4, 1, 0, 0, 0, 0, 0]
    let s := ask 0x20 [15, 0, 4, 0, 4, 1, 0, 0, 0, 0, 0]
    Waits (ask 0x20 fields) 0x20 7 fields [] ∧ 16 ≤ (16 : Byte).toNat ∧
      Waits s 0x20 7 [15, 0, 4, 0, 4, 1, 0, 0, 0, 0, 0] [] ∧ (15 : Byte).toNat = (15 : Slot).val ∧
      (s.proj 15).state = .vacant ∧ (parked0.proj 0).state ≠ .vacant := by decide +kernel

theorem test_witness_FadeProjectorFollowsTables :
    let keep : Fade := ⟨256, 0, 3, 1, true⟩
    let plain : Fade := ⟨256, 0, 3, 1, false⟩
    let up : Fade := ⟨0, 256, 3, 1, false⟩
    Waits (ask 0x21 [16, 0, 1]) 0x21 7 [16, 0, 1] [] ∧ 16 ≤ (16 : Byte).toNat ∧
      Waits (asked parked0 0x21 [0, 0, 1]) 0x21 7 [0, 0, 1] [] ∧ (0 : Byte).toNat = (0 : Slot).val ∧
      (State.reset.proj 0).state = .vacant ∧
      ((proj0 fun r => { r with state := .failed }).proj 0).state = .failed ∧
      ((proj0 fun r => { r with state := .retiring }).proj 0).state = .retiring ∧
      (((proj0 fun r => { r with state := .parked }).proj 0).state = .parked ∧
        ((proj0 fun r => { r with state := .parked }).chan 0).lock ≠ .locked) ∧
      (((fading0 .fadingOut keep).proj 0).state = .fadingOut ∧ (fading0 .fadingOut keep).retireFade 0 = true) ∧
      ((0 : Byte).toNat % 2 = 0 ∧ ((live0 0).proj 0).state = .live ∧ NothingToBegin (live0 0)) ∧
      ((255 : Byte).toNat % 2 = 1 ∧ (parked0.proj 0).state = .parked ∧ NothingToBegin parked0) ∧
      fadeInFrom parked0 0 = some 0 ∧ fadeInFrom (fading0 .fadingIn up) 0 = some 85 ∧
      fadeInFrom (fading0 .fadingOut plain) 0 = some 171 ∧ (1 : Byte).toNat ≠ 0 ∧ (0 : Byte).toNat = 0 ∧
      fadeOutFrom (live0 0) 0 = some 256 ∧ fadeOutFrom (fading0 .fadingIn up) 0 = some 85 ∧
      fadeOutFrom (fading0 .fadingOut keep) 0 = some 171 ∧
      ((fading0 .fadingOut plain).retireFade 0 = false) ∧ ((live0 0).proj 0).state ≠ .fadingOut := by decide +kernel

/-- The four cases of an entry into RETIRING: contributing or not, with claims left or none. -/
theorem test_witness_EnteredRetiring :
    (((live0 1).proj 0).state.contributing = true ∧ ((live0 1).proj 0).claimCount - newClaims (live0 1) 0 ≠ 0) ∧
      (((live0 0).proj 0).state.contributing = true ∧ ((live0 0).proj 0).claimCount - newClaims (live0 0) 0 = 0) ∧
      ((parked0.proj 0).state.contributing ≠ true ∧ (parked0.proj 0).claimCount - newClaims parked0 0 = 0) ∧
      (((yielding.proj 0).state.contributing ≠ true) ∧ (yielding.proj 0).claimCount - newClaims yielding 0 ≠ 0) ∧
      newClaims (oneNode (live0 1) 5 (nodeWith [pendingClaim 0])) 0 = 1 := by decide +kernel

theorem test_witness_FadeFactorFollowsFormula :
    let f : Fade := ⟨256, 0, 255, 254, false⟩
    0 < f.length ∧ f.elapsed ≤ f.length ∧ f.start ≤ 256 ∧ f.target ≤ 256 ∧ f.elapsed < f.length := by decide

/-- Every projector's fade agrees with its state when slot 0's does and the others stand as after reset. -/
theorem agree_of_reset_but_zero {s : State} (h0 : (s.proj 0).FadeAgrees)
    (hc : (s.proj 0).failCause.isSome = true ↔ (s.proj 0).state = .failed)
    (h : ∀ p, p ≠ 0 → s.proj p = Projector.initial) : s.ProjectorsAgree := by
  intro p
  by_cases e : p = 0
  · subst e; exact ⟨h0, hc⟩
  · rw [h p e]; exact ⟨⟨rfl, rfl⟩, by decide⟩

theorem agrees_fadingIn {r : Projector} {f : Fade} (hs : r.state = .fadingIn)
    (h : r.fade = some f ∧ r.phi = f.phi ∧ f.start ≤ 256 ∧ f.target = 256 ∧ f.elapsed < f.length ∧
      f.retireAfter = false) : r.FadeAgrees := by
  unfold Projector.FadeAgrees
  rw [hs]
  exact ⟨f, h⟩

theorem agrees_fadingOut {r : Projector} {f : Fade} (hs : r.state = .fadingOut)
    (h : r.fade = some f ∧ r.phi = f.phi ∧ f.start ≤ 256 ∧ f.target = 0 ∧ f.elapsed < f.length) : r.FadeAgrees := by
  unfold Projector.FadeAgrees
  rw [hs]
  exact ⟨f, h⟩

theorem test_witness_FadeStepAdvancesFades_in :
    let f : Fade := ⟨0, 256, 3, 2, false⟩
    let s := owing (fading0 .fadingIn f)
    0 < s.owed.fade ∧ s.ProjectorsAgree ∧ (s.proj 1).fade = none ∧ (s.proj 0).fade = some f ∧
      (s.proj 0).state = .fadingIn ∧ f.elapsed + 1 = f.length :=
  ⟨by decide +kernel,
    agree_of_reset_but_zero (agrees_fadingIn (f := ⟨0, 256, 3, 2, false⟩) (by decide +kernel) (by decide +kernel))
      (by decide +kernel) (by decide +kernel),
    by decide +kernel, by decide +kernel, by decide +kernel, by decide⟩

theorem test_witness_FadeStepAdvancesFades_out :
    let f : Fade := ⟨256, 0, 3, 2, false⟩
    let s := owing (fading0 .fadingOut f)
    0 < s.owed.fade ∧ s.ProjectorsAgree ∧ (s.proj 0).fade = some f ∧ (s.proj 0).state = .fadingOut ∧
      f.elapsed + 1 = f.length ∧ f.retireAfter = false :=
  ⟨by decide +kernel,
    agree_of_reset_but_zero (agrees_fadingOut (f := ⟨256, 0, 3, 2, false⟩) (by decide +kernel) (by decide +kernel))
      (by decide +kernel) (by decide +kernel),
    by decide +kernel, by decide +kernel, by decide, by decide⟩

theorem test_witness_FadeStepAdvancesFades_retire :
    let f : Fade := ⟨256, 0, 1, 0, true⟩
    let s := owing (fading0 .fadingOut f)
    0 < s.owed.fade ∧ s.ProjectorsAgree ∧ (s.proj 0).fade = some f ∧ (s.proj 0).state = .fadingOut ∧
      f.elapsed + 1 = f.length ∧ f.retireAfter = true :=
  ⟨by decide +kernel,
    agree_of_reset_but_zero (agrees_fadingOut (f := ⟨256, 0, 1, 0, true⟩) (by decide +kernel) (by decide +kernel))
      (by decide +kernel) (by decide +kernel),
    by decide +kernel, by decide +kernel, by decide, by decide⟩

/-- A retire-fade that completes with no claim left: FADE_DONE, then FADE_DONE with the retired flag, which overflows. -/
theorem test_witness_FadeStep_events :
    let s := owing (fading0 .fadingOut ⟨256, 0, 1, 0, true⟩)
    retirementEvents s 0 (s.proj 0).failover = [.fadeDone 0 true] ∧
      (after (exec .fadeStep s)).eventRecord 6 =
        [Event.fadeDone 0 false, .fadeDone 0 true].foldl afterRaising (s.eventRecord 6) := by decide +kernel

/-- Nodes that a fading projector claims, and nodes that it does not, with a retire-fade and with a plain one. -/
theorem test_witness_FadeStep_claims :
    let s := oneNode (fading0 .fadingOut ⟨256, 0, 1, 0, true⟩) 5 (nodeWith [liveClaim 0 4096])
    Claims s 0 5 ∧ ¬Claims s 0 6 ∧ s.retireFade 0 = true ∧
      (fading0 .fadingOut ⟨256, 0, 3, 2, false⟩).retireFade 0 = false := by decide +kernel

/-- A LIVE projector 0 that claims nodes 5 and 9, node 9 waiting in the NORMAL class and node 7 in the URGENT class, with a
solve of node 3 in flight. -/
def claiming : State :=
  { live0 2 with
    dome := { State.reset.dome with
      nodes := [(3, { Node.initial with inFlight := true }), (5, nodeWith [liveClaim 0 4096]),
        (7, { Node.initial with queued := some .urgent }), (9, { nodeWith [liveClaim 0 4096] with queued := some .normal })]
      freeCount := 6142 }
    solver := { urgent := [7], normal := [9], flight := some (State.reset.flightOf 3 .normal) } }

/-- The nodes that a projector claims join their class in ascending index: the NORMAL class behind node 9, which waits
there, and the URGENT class behind node 7, node 9 leaving the NORMAL class (R34, R29). -/
theorem test_witness_claimed_order :
    claimed claiming 0 = [5, 9] ∧ (setRamp 0 7 claiming).solver.normal = [9, 5] ∧
      (cutOut 0 claiming).solver.urgent = [7, 5, 9] ∧ (cutOut 0 claiming).solver.normal = [] ∧
      (after (exec (.lockIndicationFall ⟨0, 0⟩) claiming)).solver.urgent = [7, 5, 9] := by decide +kernel

theorem test_witness_FadeStepAdvancesFades_running :
    let f : Fade := ⟨256, 0, 255, 253, false⟩
    let s := owing (fading0 .fadingOut f)
    0 < s.owed.fade ∧ s.ProjectorsAgree ∧ (s.proj 0).fade = some f ∧ f.elapsed + 1 < f.length :=
  ⟨by decide +kernel,
    agree_of_reset_but_zero (agrees_fadingOut (f := ⟨256, 0, 255, 253, false⟩) (by decide +kernel) (by decide +kernel))
      (by decide +kernel) (by decide +kernel),
    by decide +kernel, by decide⟩

theorem test_witness_RetireProjectorByState :
    let s := asked parked0 0x22 [0, 0]
    Waits (ask 0x22 [16, 0]) 0x22 7 [16, 0] [] ∧ 16 ≤ (16 : Byte).toNat ∧ Waits s 0x22 7 [0, 0] [] ∧
      (0 : Byte).toNat = (0 : Slot).val ∧ (State.reset.proj 0).state = .vacant ∧
      ((proj0 fun r => { r with state := .retiring }).proj 0).state = .retiring ∧
      NothingToBegin (proj0 fun r => { r with state := .retiring }) ∧
      ((fading0 .fadingOut ⟨256, 0, 3, 1, false⟩).proj 0).state = .fadingOut ∧
      (((live0 0).proj 0).state = .live ∧ (255 : Byte).toNat ≠ 0) ∧ (s.proj 0).state = .parked ∧
      ((proj0 fun r => { r with state := .failed }).proj 0).state = .failed ∧
      (((fading0 .fadingIn ⟨0, 256, 3, 1, false⟩).proj 0).state = .fadingIn ∧ (0 : Byte).toNat = 0) := by decide +kernel

/-- With no node record listed every list is ordered. -/
theorem ordered_of_empty {s : State} (h : s.dome.nodes = []) : s.ListsOrdered := by
  intro n
  unfold State.node
  rw [h]
  simp [Sparse.get, Node.initial]

theorem test_witness_RetireProjector_ordered : (asked parked0 0x22 [0, 0]).ListsOrdered := ordered_of_empty rfl

/-- RETIRE PROJECTOR of a PARKED projector without claims empties the slot at once, with FADE_DONE and the retired flag. -/
theorem test_witness_RetireProjector_events :
    let s := asked parked0 0x22 [0, 0]
    retirementEvents s 0 (s.proj 0).failover = [.fadeDone 0 true] ∧
      (after (exec .retireProjector s)).eventRecord 6 = afterRaising (s.eventRecord 6) (.fadeDone 0 true) ∧
      retirementEvents (oneNode yielding 5 (nodeWith [pendingClaim 0])) 0 1 = [.failover 0, .fadeDone 0 true] := by
  decide +kernel

theorem test_witness_RampAndProjectorRead :
    Waits (ask 0x23 [16, 0, 0]) 0x23 7 [16, 0, 0] [] ∧ 16 ≤ (16 : Byte).toNat ∧
      Waits (ask 0x23 [15, 0, 0]) 0x23 7 [15, 0, 0] [] ∧ (15 : Byte).toNat = (15 : Slot).val ∧
      (State.reset.proj 15).state = .vacant ∧ (parked0.proj 0).state ≠ .vacant ∧
      Waits (ask 0x24 [16]) 0x24 7 [16] [] ∧ Waits (ask 0x24 [15]) 0x24 7 [15] [] := by decide +kernel

/-! ### Luminance matching -/

/-- Slots 1 to 15 LIVE with luminance 100, and slot 0 as given. -/
def lit (r : Projector) : State :=
  { State.reset with projectors := (Vector.replicate 16
      { Projector.initial with state := .live, phi := 256, luminance := some 100 }).set 0 r }

theorem test_witness_RecomputationSetsGainTargets_reference :
    IsReference (lit { Projector.initial with state := .parked, luminance := some 50 }) 100 := by
  refine ⟨⟨1, by decide +kernel, by decide +kernel⟩, fun p k hc hl => ?_⟩
  have hp : ∀ p, ((lit { Projector.initial with state := .parked, luminance := some 50 }).proj p).state.contributing = true →
      ((lit { Projector.initial with state := .parked, luminance := some 50 }).proj p).luminance = some 100 := by
    decide +kernel
  rw [hp p hc] at hl
  exact le_of_eq (Option.some.inj hl)

theorem test_witness_RecomputationSetsGainTargets :
    (∀ p, (State.reset.proj p).state.contributing = true → (State.reset.proj p).luminance = none) ∧
      ((lit Projector.initial).proj 0).luminance = none ∧
      4096 < 4096 * 100 / 99 ∧ (State.reset.gain.floor ≤ 4096 * 100 / 133 ∧ 4096 * 100 / 133 ≤ 4096) ∧
      (4096 * 100 / 134 < State.reset.gain.floor ∧ 4096 * 100 / 134 ≤ 4096) ∧
      ((lit { Projector.initial with state := .parked, luminance := some 134 }).proj 0).luminance = some 134 ∧
      (∀ p, ((recomputeGains State.reset).proj p).limited = false) ∧
      ((recomputeGains (lit { Projector.initial with state := .parked, luminance := some 134 })).proj 0).limited = true ∧
      (∀ q, q < 0 → ((recomputeGains (lit { Projector.initial with state := .parked, luminance := some 134 })).proj
        q).limited = false) := by decide +kernel

theorem test_witness_GainSettingsAndSlew :
    Waits (ask 0x28 [255, 255]) 0x28 7 [255, 255] [] ∧ Waits (ask 0x29 [0, 0]) 0x29 7 [0, 0] [] ∧
      0 < (owing State.reset).owed.slew ∧
      (let r := (proj0 fun r => { r with gainLive := 3072 }).proj 0; r.gainLive < r.gainTarget) ∧
      (let r := (proj0 fun r => { r with gainTarget := 3072 }).proj 0; r.gainTarget < r.gainLive) ∧
      (State.reset.proj 0).gainLive = (State.reset.proj 0).gainTarget := by decide +kernel

/-! ### The Raster Engine and the Content Input -/

theorem test_witness_RasterFrameStartTakesView :
    let s := { live0 0 with owed := { State.reset.owed with raster := true } }
    s.owed.raster = true ∧ s.owed.swap = 0 ∧ s.owed.fade = 0 ∧ s.owed.slew = 0 ∧ s.NodesCanonical := by
  refine ⟨by decide +kernel, by decide +kernel, by decide +kernel, by decide +kernel, ?_⟩
  unfold State.NodesCanonical
  decide +kernel

/-- A raster frame in progress with channel 0 at a pixel. -/
def drawing (s : State) (k : Nat) : State :=
  { s with raster := { frame := some s.frameView, streams := Vector.replicate 16 (some k), links := Vector.replicate 16 none } }

/-- Node 0, node 1 and node 65 (the corners of triangle 0) claimed by projector 0, around the first pixels. -/
def triangle0 : State :=
  let c := fun u v => { liveClaim 0 4096 with livePos := some ⟨u, v⟩ }
  { live0 3 with dome := { State.reset.dome with nodes :=
      [(0, nodeWith [c 0 0]), (1, nodeWith [c 4000 0]), (65, nodeWith [c 4000 4000])] } }

theorem test_witness_PixelIsSentInRowOrder :
    let f := (live0 0).frameView
    let w := (f.slots.get 0).width
    (drawing (live0 0) 65535).raster.frame = some f ∧ (drawing (live0 0) 65535).raster.streams.get 0 = some 65535 ∧
      65535 < w * (f.slots.get 0).height ∧ w * (f.slots.get 0).height ≤ 65536 ∧
      (drawing triangle0 1).raster.streams.get 0 = some 1 ∧
      (triangle0.frameView.hit 0 { x := 16 * 1 + 8, y := 8 } 0).isSome = true ∧ (∀ j < 0, triangle0.frameView.hit 0
        { x := 16 * 1 + 8, y := 8 } j = none) := by decide +kernel

theorem test_witness_PixelIsSent_black : ∀ i < 4032, (live0 0).frameView.hit 0 { x := 8, y := 8 } i = none := by
  intro i _
  have h : (live0 0).frameView.nodes = [] := rfl
  simp [RasterFrame.hit, RasterFrame.corner, h, Sparse.get]

theorem test_witness_PixelIsSent_domePoint :
    (⟨3967, 100, 100, 56⟩ : Hit).triangle < 3968 ∧ (⟨4031, 0, 0, 256⟩ : Hit).triangle = 3968 + 63 ∧ 63 < 64 ∧
      (⟨4031, 0, 0, 256⟩ : Hit).domePoint = (64512, 16384) ∧
      (cornersOf 127).1 % 64 = 63 ∧ (⟨127, 0, 256, 0⟩ : Hit).domePoint = (0, 512) := by decide +kernel

theorem test_witness_DriveNeverExceedsContent :
    1023 ≤ 1023 ∧ 4096 ≤ 4096 ∧ 1 * 2047 * 4096 < 8388608 ∧ ¬(1 * 2048 * 4096 < 8388608) := by decide

theorem test_witness_ContentEventsFollowTable :
    DomeFrame.wf ⟨[(4194303, ⟨1023, 0, 1⟩)]⟩ = true ∧ State.reset.content.signal = true ∧ 4194303 ≠ 4096 * 1024 ∧
      4194305 ≠ 4096 * 1024 := by decide +kernel

/-! ### The Output Channels -/

/-- Channel 0 of a PARKED slot 0 in a lock state, with an attempt count, E = 16384 and tolerance 32. -/
def locking (lock : LockState) (attempts : Nat) : State :=
  chan0 parked0 fun c => { c with lock := lock, attempts := attempts, expected := 16384, tolerance := 32 }

theorem test_witness_LockAttemptsFollowTable :
    ((locking .starting 1).chan 0).lock = .starting ∧ ((locking .awaitLock 2).chan 0).lock ≠ .starting ∧
      1 ≠ ((locking .starting 1).chan 0).starts ∧
      (((locking .awaitLock 2).chan 0).lock = .awaitLock ∧ ((locking .awaitLock 2).chan 0).attempts < 3 ∧
        NothingToBegin (locking .awaitLock 2)) ∧
      ((locking .starting 1).chan 0).lock ≠ .awaitLock ∧
      (((locking .validating 2).chan 0).lock = .validating ∧ ((locking .validating 2).chan 0).attempts < 3 ∧
        NothingToBegin (locking .validating 2)) ∧
      (((locking .lockFailed 3).chan 0).lock ≠ .validating ∧ ((locking .lockFailed 3).chan 0).lock ≠ .locked) ∧
      min 16351 1048575 + ((locking .validating 2).chan 0).tolerance < ((locking .validating 2).chan 0).expected ∧
      ((locking .validating 2).chan 0).expected + ((locking .validating 2).chan 0).tolerance < min 16417 1048575 ∧
      (((locking .validating 2).chan 0).expected ≤ min 16352 1048575 + ((locking .validating 2).chan 0).tolerance ∧
        min 16352 1048575 ≤ ((locking .validating 2).chan 0).expected + ((locking .validating 2).chan 0).tolerance) ∧
      (let s := chan0 (proj0 fun r => { r with state := .failed, failCause := some .line })
        fun c => { c with lock := .validating, taken := .ready }
       (s.proj 0).state = .failed ∧ (s.chan 0).taken = .ready) ∧
      ((locking .validating 2).proj 0).state ≠ .failed := by decide +kernel

theorem test_witness_LockFailuresReportToTable :
    (((locking .awaitLock 3).chan 0).lock = .awaitLock ∧ 3 ≤ ((locking .awaitLock 3).chan 0).attempts) ∧
      (((locking .validating 3).chan 0).lock = .validating ∧
        ((locking .validating 3).chan 0).passes (min 16351 1048575) = false) ∧
      (((live0 0).chan 0).lock = .locked ∧ ((live0 0).proj 0).state ≠ .vacant) ∧
      (Waits (asked (live0 0) 0x30 [0]) 0x30 7 [0] [] ∧ (0 : Byte).toNat = (0 : Slot).val ∧
        ((asked (live0 0) 0x30 [0]).chan 0).lock = .locked) ∧
      Waits (ask 0x30 [16]) 0x30 7 [16] [] ∧ 16 ≤ (16 : Byte).toNat ∧ (State.reset.proj 0).state = .vacant ∧
      ((locking .awaitLock 1).chan 0).lock ∈ [LockState.starting, .awaitLock, .validating] ∧
      (((locking .lockFailed 3).chan 0).lock = .lockFailed ∧ ((locking .lockFailed 3).proj 0).state ≠ .vacant ∧
        NothingToBegin (locking .lockFailed 3)) := by decide +kernel

/-- A report to a projector in each state, and the details that a third failure and a lock loss raise. -/
theorem test_witness_LockFaultTaken :
    ((locking .awaitLock 3).proj 0).state = .parked ∧ ((live0 0).proj 0).state = .live ∧ (live0 0).retireFade 0 ≠ true ∧
      (fading0 .fadingOut ⟨256, 0, 3, 1, true⟩).retireFade 0 = true ∧ (yielding.proj 0).state = .failed ∧
      ((proj0 fun r => { r with state := .retiring }).proj 0).state = .retiring ∧
      lockFaultEvents (locking .awaitLock 3) 0 .lockFailed = [.projFault 0 .lockFailed] ∧
      (after (exec (.lockTimeout 0) (locking .awaitLock 3))).eventRecord 5
        = afterRaising (State.reset.eventRecord 5) (.lockFail 0) ∧
      lockFaultEvents (live0 0) 0 .lockLost = [.failover 0, .projFault 0 .lockLost] ∧
      (after (exec (.lockIndicationFall ⟨0, 0⟩) (live0 0))).eventRecord 3
        = afterRaising (State.reset.eventRecord 3) (.projFault 0 .lockLost) := by decide +kernel

/-- The third failing window records its count and keeps all else of the channel; a slot that a failure empties, and one
that it does not. -/
theorem test_witness_LockFailures_channel :
    let emptying := chan0 (fading0 .fadingOut ⟨256, 0, 3, 1, true⟩) fun c => { c with lastCount := some 9, changeFlag := true }
    (after (exec (.windowCompletion 0 16351) (locking .validating 3))).chan 0 =
        { (locking .validating 3).chan 0 with lock := .lockFailed, attempts := 3, lastCount := some 16351 } ∧
      RetiresEmpty emptying 0 ∧ ¬RetiresEmpty (live0 0) 0 ∧
      (after (exec (.lockIndicationFall ⟨0, 0⟩) emptying)).chan 0 =
        { emptying.chan 0 with lock := .off, attempts := 0 } := by
  unfold RetiresEmpty
  decide +kernel

/-- Channel 0 of a LIVE slot 0 settling toward a level. -/
def settling (auto : Bool) (taken : TakenLevel) (level : ReadyLevel) : State :=
  chan0 ((live0 0).modProj 0 fun r => { r with autoFailover := auto })
    fun c => { c with taken := taken, debounce := .settling level, raw := level }

theorem test_witness_ReadyLineIsDebounced :
    (State.reset.chan 0).raw ≠ .ready ∧ (State.reset.chan 0).debounce = .settling .notReady ∧
      (State.reset.proj 0).state = .vacant ∧ NothingToBegin State.reset ∧ (State.reset.chan 0).taken = .unsettled ∧
      (let s := settling true .ready .notReady
       (s.chan 0).debounce = .settling .notReady ∧ (s.proj 0).state ≠ .vacant ∧ (s.chan 0).taken ≠ .unsettled ∧
        (s.chan 0).taken ≠ .notReady ∧ (s.proj 0).autoFailover = true ∧ (s.proj 0).state ≠ .retiring) ∧
      (let s := settling false .ready .notReady
       (s.proj 0).autoFailover = false ∧ (s.proj 0).state ≠ .failed) ∧
      (let s := (settling false .ready .notReady).modProj 0 fun r => { r with state := .failed }
       (s.proj 0).autoFailover = false ∧ (s.proj 0).state = .failed ∧ (s.chan 0).debounce = .settling .notReady) ∧
      (let s := (settling true .ready .notReady).modProj 0 fun r => { r with state := .retiring }
       (s.proj 0).autoFailover = true ∧ (s.proj 0).state = .retiring ∧ (s.chan 0).taken = .ready) ∧
      (let s := settling false .notReady .ready
       (s.chan 0).taken ≠ .ready ∧ (s.proj 0).state ≠ .failed) ∧
      (let s := chan0 (proj0 fun r => { r with state := .failed, failCause := some .line }) fun c =>
        { c with lock := .locked, taken := .notReady, debounce := .settling .ready }
       (s.chan 0).debounce = .settling .ready ∧ (s.proj 0).state = .failed ∧ (s.chan 0).lock = .locked) ∧
      ((chan0 parked0 fun c => { c with debounce := .quiet }).chan 0).debounce = .quiet := by decide +kernel

/-- A fault end that recovers a FAILED projector raises PROJ_RECOVER with its slot. -/
theorem test_witness_ReadyLine_recovers :
    let s := chan0 (proj0 fun r => { r with state := .failed, failCause := some .line }) fun c =>
      { c with lock := .locked, taken := .notReady, debounce := .settling .ready }
    (after (exec (.debounceExpiry 0) s)).eventRecord 4 = afterRaising (s.eventRecord 4) (.projRecover 0) ∧
      ((after (exec (.debounceExpiry 0) s)).proj 0).state = .parked := by decide +kernel

/-! ### The Frame Timer -/

/-- The Frame Timer changed. -/
def withTimer (f : FrameTimer → FrameTimer) : State := { State.reset with timer := f State.reset.timer }

theorem test_witness_TimerExpiriesAreBoundaries :
    State.reset.timer.expiry = some 16667 ∧ (withTimer fun t => { t with expiry := none }).timer.expiry = none ∧
      Waits (ask 0x38 [255, 255]) 0x38 7 [255, 255] [] ∧
      (withTimer fun t => { t with watchdog := some 70000 }).timer.watchdog = some 70000 ∧
      State.reset.timer.watchdog = none := by decide +kernel

theorem test_witness_GenlockPulsesAreFollowed :
    State.reset.timer.state ≠ .genlocked ∧ State.reset.timer.run = [] ∧
      (withTimer fun t => { t with run := [10] }).timer.run = [10] ∧ 10 ≤ 8010 ∧
      (8000 ≤ 8010 - 10 ∧ 8010 - 10 ≤ 50000) ∧ 8009 - 10 < 8000 ∧ 50000 < 50011 - 10 ∧
      (withTimer fun t => { t with run := [0, 10000] }).timer.run = [0, 10000] ∧
      (10000 - 0 < ((20101 - 10000 : Int) - (10000 - 0)).natAbs * 100) ∧
      (((20100 - 10000 : Int) - (10000 - 0)).natAbs * 100 ≤ 10000 - 0) ∧
      (let s := withTimer fun t => { t with state := .genlocked, lastPulse := some 10 }
       s.timer.state = .genlocked ∧ s.timer.lastPulse = some 10 ∧ 8009 - 10 < 8000 ∧ 8000 ≤ 8010 - 10) := by
  decide +kernel

/-! ### The Alignment Port -/

theorem test_witness_LineEventsDriveReceiver :
    ((listening [] .seekLead).align.receiver = .listening ∧ (listening [] .seekLead).align.synced = true ∧
      (listening [] .seekLead).align.mode = .discardReport ∧ (listening [] .seekLead).align.fifo.length < 4) ∧
    4 ≤ (listening (List.replicate 4 (clean 0)) .seekLead).align.fifo.length ∧
    (withAlign fun a => { a with mode := .halt }).align.mode = .halt ∧
    (withAlign fun a => { a with receiver := .halted }).align.receiver = .halted ∧
    State.reset.align.receiver = .disabled ∧
    (withAlign fun a => { a with receiver := .lineDown, resume := some .listening }).align.resume = some .listening ∧
    (withAlign fun a => { a with receiver := .lineDown, resume := some .halted }).align.resume = some .halted := by
  decide +kernel

/-- The four cells of R151 in which the line's idle and its break are ignored. -/
theorem test_witness_LineEvents_ignored :
    let halted := withAlign fun a => { a with enable := true, receiver := .halted }
    let down := withAlign fun a => { a with enable := true, receiver := .lineDown, resume := some .listening }
    (State.reset.align.receiver = .disabled ∧ after (exec .lineIdle State.reset) = State.reset ∧
        after (exec .lineBreak State.reset) = State.reset) ∧
      (halted.align.receiver = .halted ∧ after (exec .lineIdle halted) = halted) ∧
      (down.align.receiver = .lineDown ∧ after (exec .lineBreak down) = down) := by decide +kernel

theorem test_witness_AssemblerTakesFifoHead :
    let r : PartialReport := { type := .luma, bytes := [0], faulty := false, flags := .empty }
    let full : PartialReport := { type := .luma, bytes := [0, 1], faulty := false, flags := .empty }
    (listening [clean 0xA5] .seekLead).align.receiver = .listening ∧
      (listening [clean 0xA5] .seekLead).align.fifo = clean 0xA5 :: [] ∧ (clean 0xA5).value = 0xA5 ∧
      (clean 0xA4).value ≠ 0xA5 ∧ (listening [] .readType).align.assembler = .readType ∧
      (∀ k ∈ reportTypes, (clean 4).value ≠ k.1) ∧ ((1, ReportType.drift, 7) ∈ reportTypes ∧ (0 : Nat) < 7) ∧
      ((3, ReportType.step, 0) ∈ reportTypes ∧ (clean 3).value = 3) ∧
      ((listening [] (.readPayload r)).align.assembler = .readPayload r ∧ (2, ReportType.luma, 3) ∈ reportTypes ∧
        r.type = .luma ∧ (r.bytes ++ [9]).length < 3 ∧ 3 ≤ (full.bytes ++ [9]).length) ∧
      (listening [] .seekLead).align.queue.length < 16 ∧
      16 ≤ (withAlign fun a => { a with queue := List.replicate 16 .step }).align.queue.length := by decide +kernel

theorem test_witness_ReportsAreApplied :
    let d := fun x => withAlign fun a => { a with queue := [Report.drift x 0 5 2047 (-2048)] }
    let c := { liveClaim 0 0 with liveTrim := ⟨0, 0⟩ }
    let s := oneNode (live0 1) 5 (nodeWith [c])
    (d 16).align.queue = .drift 16 0 5 2047 (-2048) :: [] ∧
      (0 : Byte).toNat = (0 : Slot).val ∧ namedNode 0 5 = some 5 ∧ claimBy (s.node 5).claims 0 = some c ∧
      c.pendingNew = false ∧
      claimBy ((oneNode (live0 1) 5 (nodeWith [pendingClaim 0])).node 5).claims 0 = some (pendingClaim 0) ∧
      (pendingClaim 0).pendingNew = true ∧
      (max (-2048) (min 2047 ((0 : Int) + 2047)) = 0 + 2047 ∧ max (-2048) (min 2047 ((0 : Int) + 2048)) ≠ 0 + 2048) ∧
      (withAlign fun a => { a with queue := [.luma 15 0] }).align.queue = .luma 15 0 :: [] ∧
      (15 : Byte).toNat = (15 : Slot).val ∧ (State.reset.proj 15).state = .vacant ∧ (parked0.proj 0).state ≠ .vacant ∧
      (withAlign fun a => { a with queue := [.step] }).align.queue = .step :: [] ∧
      (let t := withLoader fun l => { l with state := .waiting, reason := some .step }
       t.loader.state = .waiting ∧ t.loader.reason = some .step) ∧ State.reset.loader.state ≠ .waiting := by
  decide +kernel

theorem test_witness_Reports_noTarget :
    ∀ (p : Slot) n c, (16 : Byte).toNat = p.val → namedNode 0 5 = some n →
      claimBy (State.reset.node n).claims p = some c → c.pendingNew = true := fun p _ _ h => absurd h (by
  have := p.isLt
  simp
  omega)

theorem test_witness_AlignRequestsSetReceiver :
    Waits (ask 0x40 [255, 255, 255]) 0x40 7 [255, 255, 255] [] ∧ Waits (ask 0x41 []) 0x41 7 [] [] ∧
      Waits (ask 0x42 []) 0x42 7 [] [] ∧ (withAlign fun a => { a with receiver := .halted }).align.receiver = .halted ∧
      (let a := (withAlign fun a => { a with receiver := .lineDown, resume := some .halted }).align
       a.receiver = .lineDown ∧ a.resume = some .halted) ∧ State.reset.align.receiver = .disabled := by decide +kernel

/-! ### The Mesh Loader -/

theorem test_witness_FetchDecisionFollowsTable :
    let l := { State.reset.loader with state := .running, descriptor := some oneRecord }
    let frame := { oneRecord with pacing := .perFrame }
    l.descriptor = some oneRecord ∧ l.state = .running ∧ l.reason = none ∧ l.fetch = none ∧ l.stopPending = false ∧
      { l with stopPending := true }.stopPending = true ∧
      (frame.pacing = .perFrame ∧ { l with quotaUsed := 1 }.quotaUsed = frame.quota) ∧
      { oneRecord with pacing := .step }.pacing = .step ∧
      ¬(oneRecord.pacing = .perFrame ∧ l.quotaUsed = oneRecord.quota) ∧
      ¬(oneRecord.pacing = .step ∧ false = false) := by decide +kernel

/-- A record at the end of the address space continues from address 0. -/
theorem test_witness_FetchDecision_wraps :
    let l := { State.reset.loader with state := .running, nextAddress := 16777213 }
    ({ l with descriptor := some oneRecord }.decide false false).asked
        = [16777213, 16777214, 16777215, 0, 1, 2, 3, 4] ∧
      ({ l with descriptor := some { oneRecord with format := .full } }.decide false false).asked
        = [16777213, 16777214, 16777215, 0, 1, 2, 3, 4, 5, 6] ∧ l.asked = [] ∧
      ([0, 0, 0, 0, 0, 0, 0, 0, 0, 0] : List Byte).length ≠ 8 := by decide +kernel

theorem test_witness_LoaderRequestsByState :
    Waits (ask 0x48 [255, 255, 255, 0, 0, 9, 9, 0, 0, 1, 1]) 0x48 7 [255, 255, 255, 0, 0, 9, 9, 0, 0, 1, 1] [] ∧
      State.reset.loader.state = .idle ∧ (running oneRecord).loader.state = .running ∧
      (running oneRecord).loader.state ≠ .idle ∧ Waits (ask 0x49 []) 0x49 7 [] [] ∧
      (withLoader fun l => { l with state := .waiting }).loader.state = .waiting ∧
      (withLoader fun l => { l with state := .held }).loader.state = .held ∧ Waits (ask 0x4A []) 0x4A 7 [] [] ∧
      Waits (ask 0x4B []) 0x4B 7 [] [] ∧ 0 < (owing State.reset).owed.quota ∧
      (let t := owing (withLoader fun l => { l with state := .waiting, reason := some .quota })
       t.loader.state = .waiting ∧ t.loader.reason = some .quota) ∧
      (owing State.reset).loader.state ≠ .waiting := by decide +kernel

/-- A CLAIM record for slot 0, ring 0, sector 5, at (2048, 2048). -/
def claimRecord : List Byte := [0x10, 0, 5, 0, 0, 8, 0, 8]

theorem test_witness_FetchCompletionStoresRecord :
    let s := running oneRecord
    let two := { s with loader := { s.loader with remaining := 2 } }
    let stopping := { two with loader := { two.loader with stopPending := true } }
    s.loader.state = .running ∧ s.loader.fetch = some { serial := 0, address := 0 } ∧
      s.loader.descriptor = some oneRecord ∧ NothingToBegin s ∧ 1 ≠ 0 ∧
      ([0, 0, 0, 0, 0, 0, 0, 0] : List Byte).length = 8 ∧ decodeRecord .compact [0, 0, 0, 0, 0, 0, 0, 0] = .bad ∧
      claimRecord.length = 8 ∧ decodeRecord .compact claimRecord = .claim 0 0 5 ⟨2048, 2048⟩ .absent ∧
      setClaimRefusal s (resolveNode 0 5) 0 = some .badProjector ∧ (ResultCode.badProjector, FaultReason.badProjector) ∈ faultReasons ∧
      setClaimRefusal { s with projectors := parked0.projectors } (resolveNode 0 5) 0 = none ∧ s.loader.remaining = 1 ∧
      (1 < two.loader.remaining ∧ 0 < two.loader.remaining) ∧ stopping.loader.stopPending = true ∧
      decodeRecord .compact [0x20, 0, 5, 0, 0, 0, 0, 0] = .drop 0 0 5 ∧
      dropClaimRefusal s (resolveNode 0 5) 0 = some .noClaim ∧ (ResultCode.noClaim, FaultReason.noClaim) ∈ faultReasons ∧
      dropClaimRefusal (oneNode s 5 (nodeWith [liveClaim 0 0])) (resolveNode 0 5) 0 = none ∧
      decodeRecord .compact [0x30, 0, 0, 0, 0, 0, 0, 0] = .endMark ∧ oneRecord.honourEnd = true ∧
      { oneRecord with honourEnd := false }.honourEnd = false ∧
      oneRecord.applyAtEnd = false ∧ (grouped .solving false).edit.groupState ≠ .none ∧
      s.edit.groupState = .none ∧ (s.node 2048).openMark = false ∧
      ((oneNode s 2048 { nodeWith [] with openMark := true }).node 2048).openMark = true := by decide +kernel

/-- A completion that comes with no fetch in flight is ignored. -/
theorem test_witness_FetchCompletion_noFetch :
    (withLoader fun l => { l with serial := 1 }).loader.fetch = none ∧
      after (exec (.fetchCompletion 0 .readError) (withLoader fun l => { l with serial := 1 }))
        = withLoader fun l => { l with serial := 1 } := by decide +kernel

/-- The kinds of record at their boundary values: the high half of byte 0, the clear bit, and the pin field. -/
theorem test_witness_FetchCompletion_records :
    ((0x1F : Byte).toNat / 16 = 1 ∧ (0x20 : Byte).toNat / 16 = 2 ∧ (0x3F : Byte).toNat / 16 = 3 ∧
      (0x0F : Byte).toNat / 16 = 0 ∧ 3 < (0x40 : Byte).toNat / 16) ∧
      ((255 : Byte).toNat % 2 = 1 ∧ (254 : Byte).toNat % 2 ≠ 1) ∧ (32768 ≤ word 0 128 ∧ ¬32768 ≤ word 255 127) ∧
      decodeRecord .full [0x1F, 32, 0, 0, 0, 0, 0, 0, 255, 131] = .claim 15 32 0 ⟨0, 0⟩ (.value 1023) ∧
      decodeRecord .full [0x1F, 32, 0, 1, 0, 0, 0, 0, 255, 131] = .bad ∧
      decodeRecord .full [0x1F, 32, 0, 1, 0, 0, 0, 0, 255, 127] = .claim 15 32 0 ⟨0, 0⟩ .clear := by decide +kernel

theorem test_witness_FetchCompletion_yields :
    FailoverOwed { running oneRecord with projectors := (proj0 fun r => { r with failover := 1 }).projectors } :=
  ⟨0, by decide +kernel⟩

/-! ### The Attention Unit and the reads -/

theorem test_witness_AttentionFollowsStatusAndMask :
    Waits (ask 0x52 [255, 255]) 0x52 7 [255, 255] [] ∧ (State.reset.eventRecord (Event.swapDone 1).cls).status = false ∧
      ((State.reset.raise (.swapDone 1)).eventRecord (Event.swapDone 1).cls).status = true := by decide +kernel

theorem test_witness_ClearEventsClearsNamedClasses :
    Waits (ask 0x51 [1, 128]) 0x51 7 [1, 128] [] ∧ (word 1 128).testBit 0 = true ∧ (word 1 128).testBit 15 = true ∧
      (word 1 128).testBit 1 = false := by decide +kernel

theorem test_witness_ReadsReplyAndChangeNothing :
    Waits (ask 0x18 []) 0x18 7 [] [] ∧ Waits (ask 0x39 []) 0x39 7 [] [] ∧ Waits (ask 0x2A []) 0x2A 7 [] [] ∧
      (let s := asked (lit { Projector.initial with luminance := some 1 }) 0x2A []
       Waits s 0x2A 7 [] [] ∧ (∀ p, (s.proj p).luminance.isSome = true)) ∧
      Waits (ask 0x43 []) 0x43 7 [] [] ∧ Waits (ask 0x4C []) 0x4C 7 [] [] ∧ Waits (ask 0x50 []) 0x50 7 [] [] ∧
      (∀ p, ((ask 0x2A []).proj p).state.contributing = true → ((ask 0x2A []).proj p).luminance = none) := by
  decide +kernel

/-- READ FRAME with a swap owed waits, and with none owed it is answered; a wrong length is answered at once. -/
theorem test_witness_ReadFrame_swapOwed :
    Waits (owing (ask 0x39 [])) 0x39 7 [] [] ∧ 0 < (owing (ask 0x39 [])).owed.swap ∧ (ask 0x39 []).owed.swap = 0 ∧
      (after (exec .readFrame (owing (ask 0x39 [])))).port.requests.length = 1 ∧
      (after (exec .readFrame (ask 0x39 []))).port.requests = [] ∧
      (after (exec .readFrame (owing (ask 0x39 [0])))).port.requests = [] := by decide +kernel

/-- A boundary raises the counter and the swaps owed together. -/
theorem test_witness_ReadFrame_counts :
    let t := after (exec .periodTimerExpiry { State.reset with timer := { State.reset.timer with counter := 4294967295 } })
    t.timer.counter = 0 ∧ t.owed.swap = 1 ∧ Instr.periodTimerExpiry ≠ .resetLine ∧
      Instr.periodTimerExpiry ≠ .resetDevice := by decide +kernel

theorem test_witness_ReadFrame_swapTaken :
    Instr.swap ≠ .resetLine ∧ Instr.swap ≠ .resetDevice ∧ 0 < (owing State.reset).owed.swap ∧
      ∃ t, exec .swap (owing State.reset) = .next t := ⟨by decide, by decide, by decide, _, rfl⟩

theorem test_witness_ReadGains_contributing :
    ∃ p, ((asked (lit { Projector.initial with luminance := some 1 }) 0x2A []).proj p).state.contributing = true :=
  ⟨1, by decide +kernel⟩

/-! ### The invariants: a state that has each and takes a step -/

/-- The part after reset with an expiry of the period timer to come. -/
def ticking : State := { State.reset with pending := [.periodTimerExpiry] }

theorem ticking_node (n : Nat) : ticking.node n = Node.initial := rfl

theorem ticking_solver : ticking.solver = { urgent := [], normal := [], flight := none } := rfl

theorem test_witness_step : ∃ t, step ticking = .next t := ⟨_, rfl⟩

theorem test_witness_StepKeepsMapSound :
    ticking.NodesCanonical ∧ ticking.MarksApart ∧ ticking.ListsOrdered ∧ ticking.ConditionsAgree ∧ ticking.CursorPlaced := by
  refine ⟨rfl, fun n => ?_, ordered_of_empty rfl, ⟨ordered_of_empty rfl, fun n => ?_⟩, ?_⟩
  · rw [ticking_node]; decide
  · rw [ticking_node]; rfl
  · unfold State.CursorPlaced; decide +kernel

theorem test_witness_StepKeepsSolveQueue : ticking.QueueAgrees := by
  unfold State.QueueAgrees
  simp [ticking_node, ticking_solver, Node.initial]

theorem test_witness_StepKeepsGroupCounts : ticking.GroupAgrees := by
  refine ⟨fun n _ => ticking_node n, test_witness_StepKeepsMapSound.2.2.2.2, test_witness_StepKeepsSolveQueue, ?_⟩
  simp only [ticking_node]
  decide +kernel

theorem test_witness_StepKeepsWeightsWhole : ticking.WeightsAgree := by
  refine ⟨test_witness_StepKeepsGroupCounts, test_witness_StepKeepsMapSound.2.1, ordered_of_empty rfl, ?_, ?_⟩
  · simp [ticking_node, Node.initial, SharesUnity]
  · simp [ticking_solver]

theorem test_witness_StepKeepsClaimCounts : ticking.ClaimsCounted := by
  refine ⟨fun n _ => ticking_node n, test_witness_StepKeepsMapSound.2.2.2.2, test_witness_StepKeepsSolveQueue,
    ordered_of_empty rfl, ?_, fun p => ⟨?_, ?_, ?_⟩⟩
  · simp only [ticking_node]; decide +kernel
  · have h : ticking.claimNodes p = [] := by simp [State.claimNodes, ticking_node, Node.initial, Node.claimedBy]
    rw [h]; revert p; decide +kernel
  · revert p; decide +kernel
  · have h : (ticking.proj p).state ≠ .retiring := by revert p; decide +kernel
    exact fun e => absurd e h

theorem test_witness_StepKeepsProjectors :
    ticking.ProjectorsAgree ∧ ticking.GainsInRange ∧ ticking.ChannelsAgree := by
  have hp : ticking.ProjectorsAgree :=
    agree_of_reset_but_zero ⟨rfl, rfl⟩ (by decide +kernel) (by decide +kernel)
  refine ⟨hp, ?_, hp, fun p => ⟨?_, ?_⟩⟩
  · unfold State.GainsInRange; decide +kernel
  · revert p; decide +kernel
  · have h : (ticking.chan p).lastCount = none := by revert p; decide +kernel
    simp [h]

theorem test_witness_StepKeepsTimerLoaderAttention :
    ticking.timer.Agrees ∧ ticking.loader.Agrees ∧ ticking.AttentionAgrees := by
  refine ⟨by simp [FrameTimer.Agrees, ticking, State.reset], ?_, fun k => ⟨?_, ?_, ?_⟩⟩
  · unfold Loader.Agrees; decide +kernel
  · revert k; decide +kernel
  · revert k; decide +kernel
  · have h : (ticking.eventRecord k).detail = none := by revert k; decide +kernel
    simp [h]

theorem test_witness_StepKeepsPorts : ticking.align.Agrees ∧ ticking.port.Agrees := by
  constructor
  · simp [AlignPort.Agrees, ticking, State.reset, AlignPort.initial]
  · simp [ControlPort.Agrees, ticking, State.reset, ControlPort.afterReset]

end Sys2Proof.Tests
end

section
/-! PROOF. The Dome Map (chapter 1): the rules of the placing of a dome point (R3, R4), of the advance of the Map Cursor
(R22) and of the reset values of the map (R26), and the obligations they settle: O10, O13, O2. -/

namespace Sys2Proof.Machine

open Sys2Proof Sys2Proof.Stating

/-! ### The placing of a dome point (R3, R4) -/

/-- Below ring 31, on or under the diagonal of its cell, a point lies in the cell's even triangle. -/
theorem placePoint_even {a e : Nat} (hr : e / 512 < 31) (hd : 2 * (e % 512) ≤ a % 1024) :
    placePoint a e =
      { triangle := 2 * (e / 512 * 64 + a / 1024)
        b0 := 256 - (a % 1024 - 2 * (e % 512) + 2) / 4 - (2 * (e % 512) + 2) / 4
        b1 := (a % 1024 - 2 * (e % 512) + 2) / 4
        b2 := (2 * (e % 512) + 2) / 4 } := by
  simp only [placePoint, if_pos hr, if_pos hd]

/-- Below ring 31, over the diagonal of its cell, a point lies in the cell's odd triangle. -/
theorem placePoint_odd {a e : Nat} (hr : e / 512 < 31) (hd : a % 1024 < 2 * (e % 512)) :
    placePoint a e =
      { triangle := 2 * (e / 512 * 64 + a / 1024) + 1
        b0 := 256 - (a % 1024 + 2) / 4 - (2 * (e % 512) - a % 1024 + 2) / 4
        b1 := (a % 1024 + 2) / 4
        b2 := (2 * (e % 512) - a % 1024 + 2) / 4 } := by
  simp only [placePoint, if_pos hr, if_neg (Nat.not_le.mpr hd)]

/-- From ring 31 on, a point lies in its sector's triangle at the zenith. -/
theorem placePoint_cap {a e : Nat} (hr : ¬e / 512 < 31) :
    placePoint a e =
      { triangle := 3968 + a / 1024
        b0 := 256 - ((256 - (2 * (e % 512) + 2) / 4) * (a % 1024) + 512) / 1024 - (2 * (e % 512) + 2) / 4
        b1 := ((256 - (2 * (e % 512) + 2) / 4) * (a % 1024) + 512) / 1024
        b2 := (2 * (e % 512) + 2) / 4 } := by
  simp only [placePoint, if_neg hr]

/-- A share of `k` by a fraction `f / 1024` below one, rounded to the nearest, is no more than `k`. -/
theorem roundedShare_le (k : Nat) {f : Nat} (hf : f < 1024) : (k * f + 512) / 1024 ≤ k := by
  have hkf : k * f ≤ k * 1024 := Nat.mul_le_mul_left k hf.le
  omega

/-- The coordinates of corners 1 and 2 leave room for the difference to 256 that b0 is, so the three sum to 256 (R4). -/
theorem placePoint_sum (a e : Nat) :
    (placePoint a e).b0 + (placePoint a e).b1 + (placePoint a e).b2 = 256 := by
  have hfs : a % 1024 < 1024 := Nat.mod_lt _ (by decide)
  have hfr : e % 512 < 512 := Nat.mod_lt _ (by decide)
  by_cases hr : e / 512 < 31
  · by_cases hd : 2 * (e % 512) ≤ a % 1024
    · rw [placePoint_even hr hd]; dsimp only; omega
    · rw [placePoint_odd hr (Nat.not_le.mp hd)]; dsimp only; omega
  · have hb1 := roundedShare_le (256 - (2 * (e % 512) + 2) / 4) hfs
    rw [placePoint_cap hr]; dsimp only; omega

/-- Settles O10: the sum is `placePoint_sum`, and each triangle's row is the equation of its case. -/
theorem domePointIsPlaced : Obligations.DomePointIsPlaced := by
  intro a e _ _ r sec fs fr d
  have hsum : d.b0 + d.b1 + d.b2 = 256 := placePoint_sum a e
  refine ⟨by omega, by omega, by omega, hsum, fun hr hd => ?even, fun hr hd => ?odd, fun hr => ?cap⟩
  case even =>
    have hp : d = _ := placePoint_even (Nat.lt_succ_of_le hr) hd
    exact ⟨congrArg DomePlace.triangle hp, congrArg DomePlace.b1 hp, congrArg DomePlace.b2 hp⟩
  case odd =>
    have hp : d = _ := placePoint_odd (Nat.lt_succ_of_le hr) hd
    exact ⟨congrArg DomePlace.triangle hp, congrArg DomePlace.b1 hp, congrArg DomePlace.b2 hp⟩
  case cap =>
    have hp : d = _ := placePoint_cap (Nat.not_lt.mpr (Nat.le_of_eq hr.symm))
    have hb2 : d.b2 = (fr + 2) / 4 := congrArg DomePlace.b2 hp
    exact ⟨congrArg DomePlace.triangle hp, hb2 ▸ congrArg DomePlace.b1 hp, hb2⟩

/-! ### The advance of the Map Cursor (R22) -/

/-- The ring of a lattice node (R1). -/
theorem ringOf_lattice (r : Nat) {sec : Nat} (hs : sec < 64) : ringOf (r * 64 + sec) = r := by
  unfold ringOf; omega

/-- The sector of a lattice node (R1). -/
theorem sectorOf_lattice (r : Nat) {sec : Nat} (hs : sec < 64) : sectorOf (r * 64 + sec) = sec := by
  unfold sectorOf; omega

/-- A lattice node stands before Z (R1). -/
theorem lattice_lt_zenith {r sec : Nat} (hr : r ≤ 31) (hs : sec < 64) : r * 64 + sec < Config.zenith := by
  unfold Config.zenith; omega

section Lattice

variable {r sec : Nat} (hr : r ≤ 31) (hs : sec < 64) (remembered : Nat)

include hr hs in
theorem advanceCursor_east : advanceCursor .east (r * 64 + sec) remembered =
    (r * 64 + (sec + 1) % 64, (sec + 1) % 64) := by
  simp only [advanceCursor, if_pos (lattice_lt_zenith hr hs), ringOf_lattice r hs, sectorOf_lattice r hs, nodeIndex]

include hr hs in
theorem advanceCursor_west : advanceCursor .west (r * 64 + sec) remembered =
    (r * 64 + (sec + 63) % 64, (sec + 63) % 64) := by
  simp only [advanceCursor, if_pos (lattice_lt_zenith hr hs), ringOf_lattice r hs, sectorOf_lattice r hs, nodeIndex]

include hr hs in
/-- Ring 31 is the highest of the lattice: the step north of it is to Z. -/
theorem advanceCursor_north : advanceCursor .north (r * 64 + sec) remembered =
    if r < 31 then ((r + 1) * 64 + sec, sec) else (Config.zenith, sec) := by
  simp only [advanceCursor, if_pos (lattice_lt_zenith hr hs), ringOf_lattice r hs, sectorOf_lattice r hs, nodeIndex]

include hr hs in
/-- Ring 0 is the lowest of the lattice: south of it the cursor stays. -/
theorem advanceCursor_south : advanceCursor .south (r * 64 + sec) remembered =
    if r = 0 then (sec, sec) else ((r - 1) * 64 + sec, sec) := by
  simp only [advanceCursor, if_pos (lattice_lt_zenith hr hs), ringOf_lattice r hs, sectorOf_lattice r hs, nodeIndex,
    Nat.zero_mul, Nat.zero_add]

end Lattice

/-- The cell of a walk direction and a cursor says what the advance makes of the state: the cursor and the remembered
sector change, and nothing else (R22). -/
theorem advance_of_cell {s : State} {walk : Walk} {cursor cursor' remembered' : Nat} (hw : s.dome.walk = walk)
    (hc : s.dome.cursor = cursor) (cell : advanceCursor walk cursor s.dome.remembered = (cursor', remembered')) :
    s.advance = { s with dome := { s.dome with cursor := cursor', remembered := remembered' } } := by
  simp only [State.advance, hw, hc, cell]

/-- Settles O13, cell by cell: on the lattice by the rule of the walk direction, at Z by evaluating the one cell there. -/
theorem advanceFollowsWalkTable : Obligations.AdvanceFollowsWalkTable := by
  intro s moved
  refine ⟨fun r sec hr hs hc => ⟨fun hw => ?east, fun hw => ?west, fun hw h31 => ?north, fun hw h31 => ?northOfRing31,
    fun hw h0 => ?south, fun hw h0 => ?southOfRing0⟩,
    fun hc => ⟨fun hw => ?eastAtZ, fun hw => ?westAtZ, fun hw => ?northAtZ, fun hw => ?southAtZ⟩⟩
  case east => exact advance_of_cell hw hc (advanceCursor_east hr hs _)
  case west => exact advance_of_cell hw hc (advanceCursor_west hr hs _)
  case north => exact advance_of_cell hw hc ((advanceCursor_north hr hs _).trans (if_pos h31))
  case northOfRing31 => exact advance_of_cell hw hc ((advanceCursor_north hr hs _).trans (if_neg h31.not_lt))
  case south => exact advance_of_cell hw hc ((advanceCursor_south hr hs _).trans (if_neg h0.ne'))
  case southOfRing0 => exact advance_of_cell hw hc ((advanceCursor_south hr hs _).trans (if_pos h0))
  case eastAtZ | westAtZ | southAtZ => exact advance_of_cell hw hc rfl
  case northAtZ =>
    have hstay : s.advance = moved 2048 s.dome.remembered := advance_of_cell hw hc rfl
    rw [hstay, ← hc]

/-! ### The reset values of the Dome Map (R26) -/

/-- In a view that lists no claim, no projector has a corner anywhere (R110). -/
theorem RasterFrame.corner_of_no_claims {f : RasterFrame} (hf : f.nodes = []) (p : Slot) (n : Nat) :
    f.corner p n = none := by
  simp only [RasterFrame.corner, hf, Sparse.get, List.find?_nil]

/-- A triangle without its corner 0 is not hit (R110). -/
theorem RasterFrame.hit_of_no_corner {f : RasterFrame} {p : Slot} {t : Nat}
    (h : f.corner p (cornersOf t).1 = none) (c : Place) : f.hit p c t = none := by
  simp only [RasterFrame.hit, h]

/-- In a view that lists no claim, no triangle contains a pixel (R112). -/
theorem RasterFrame.find_of_no_claims {f : RasterFrame} (hf : f.nodes = []) (p : Slot) (x y : Nat) :
    f.find p x y = none := by
  unfold RasterFrame.find
  exact List.findSome?_eq_none_iff.mpr fun _ _ => hit_of_no_corner (corner_of_no_claims hf p _) _

/-- In a view that lists no claim, every pixel is black (R112). -/
theorem RasterFrame.pixel_of_no_claims {f : RasterFrame} (hf : f.nodes = []) (p : Slot) (x y : Nat) :
    f.pixel p x y = { x := x, y := y, red := 0, green := 0, blue := 0 } := by
  unfold RasterFrame.pixel
  rw [find_of_no_claims hf]

/-- After a reset every node record is as R26 gives it. -/
theorem afterReset_node (s : State) (n : Nat) : (afterReset s).node n = Node.initial := rfl

/-- After a reset the Dome Map holds the values of R26, and with no claim in the view every pixel is black. -/
theorem afterReset_domeMapReset (s : State) : DomeMapReset (afterReset s) := by
  refine ⟨rfl, fun n => ?_, rfl, rfl, rfl, RasterFrame.pixel_of_no_claims rfl⟩
  rw [afterReset_node]
  exact ⟨rfl, rfl, rfl, rfl, rfl, rfl, rfl, rfl⟩

/-- RESET DEVICE of the right length, run by the Request Executor, is a reset (R191). -/
theorem resetDevice_of_waits {s : State} {tag : Byte} {rest : List Request} (h : Waits s 0x7F tag [] rest) :
    resetDevice s = afterReset s := by
  obtain ⟨hhead, hroom⟩ := h
  unfold resetDevice
  rw [takeRequest_of_head hhead hroom]
  exact (if_pos rfl).trans (if_pos rfl)

/-- Settles O2: both commands are `afterReset`, which leaves the map at R26's values. -/
theorem resetEmptiesDomeMap : Obligations.ResetEmptiesDomeMap := by
  refine ⟨fun s => ⟨afterReset s, rfl, afterReset_domeMapReset s⟩, fun s tag rest h => ?_⟩
  exact ⟨afterReset s, congrArg Host.Outcome.next (resetDevice_of_waits h), afterReset_domeMapReset s⟩

end Sys2Proof.Machine
end

section
/-! PROOF. The Weight Solver (chapter 2): the rules of the sharing of unity (R47) and of the making up of the shortfall
by largest remainder (R48), and the obligation they settle: O24. -/

namespace Sys2Proof.Machine

open Sys2Proof

/-! ### The quotients, the remainders and the shortfall (R47) -/

/-- The quotients of a solve, summed (R47). -/
def quotientSum (es : List (Slot × Nat)) (total : Nat) : Nat := (es.map fun o => shareQuotient o.2 total).sum

/-- The remainders of a solve, summed (R47). -/
def remainderSum (es : List (Slot × Nat)) (total : Nat) : Nat := (es.map fun o => shareRemainder o.2 total).sum

/-- How many claims leave a remainder (R47). -/
def remainderCount (es : List (Slot × Nat)) (total : Nat) : Nat :=
  es.countP fun o => decide (0 < shareRemainder o.2 total)

/-- The units the quotients leave short of unity: k (R48). -/
def shortfall (es : List (Slot × Nat)) (total : Nat) : Nat := Config.unity - quotientSum es total

theorem shareRemainder_zero (total : Nat) : shareRemainder 0 total = 0 := Nat.zero_mod total

theorem shareRemainder_lt {total : Nat} (e : Nat) (ht : 0 < total) : shareRemainder e total < total := Nat.mod_lt _ ht

/-- Quotients and remainders account for every share, claim by claim. -/
theorem quotientSum_add_remainderSum (es : List (Slot × Nat)) (total : Nat) :
    total * quotientSum es total + remainderSum es total = Config.unity * (es.map Prod.snd).sum := by
  unfold quotientSum remainderSum
  rw [← List.sum_map_mul_left, ← List.sum_map_add, ← List.sum_map_mul_left]
  exact congrArg List.sum (List.map_congr_left fun o _ => Nat.div_add_mod (Config.unity * o.2) total)

/-- Each claim that leaves a remainder leaves less than the total. -/
theorem remainderSum_le (es : List (Slot × Nat)) {total : Nat} (ht : 0 < total) :
    remainderSum es total ≤ total * remainderCount es total := by
  unfold remainderSum remainderCount
  induction es with
  | nil => exact Nat.zero_le _
  | cons o os ih =>
    have hlt := shareRemainder_lt o.2 ht
    rw [List.map_cons, List.sum_cons, List.countP_cons, Nat.mul_add]
    split
    case isTrue => omega
    case isFalse hzero =>
      simp only [decide_eq_true_eq, Nat.not_lt, Nat.le_zero] at hzero
      omega

section Shortfall

variable {es : List (Slot × Nat)} {total : Nat} (htotal : (es.map Prod.snd).sum = total) (ht : 0 < total)

include htotal ht in
theorem quotientSum_le_unity : quotientSum es total ≤ Config.unity := by
  have hsum := quotientSum_add_remainderSum es total
  rw [htotal, Nat.mul_comm Config.unity] at hsum
  exact Nat.le_of_mul_le_mul_left (Nat.le_of_add_right_le hsum.le) ht

include htotal ht in
theorem quotientSum_add_shortfall : quotientSum es total + shortfall es total = Config.unity :=
  Nat.add_sub_of_le (quotientSum_le_unity htotal ht)

include htotal ht in
/-- The remainders are worth the shortfall in units of the total, so no more claims are to gain a unit than leave a
remainder. -/
theorem shortfall_le_remainderCount : shortfall es total ≤ remainderCount es total := by
  have hworth : total * shortfall es total = remainderSum es total := by
    have hsum := quotientSum_add_remainderSum es total
    rw [htotal, ← quotientSum_add_shortfall htotal ht, Nat.mul_comm _ total, Nat.mul_add] at hsum
    exact (Nat.add_left_cancel hsum).symm
  exact Nat.le_of_mul_le_mul_left (hworth.trans_le (remainderSum_le es ht)) ht

end Shortfall

/-! ### The order in which the claims gain a unit (R48) -/

/-- One claim gains a unit before another: its remainder is larger, or equal and its slot is the lower (R48). -/
abbrev GainsBefore (total : Nat) (a b : Slot × Nat) : Prop :=
  shareRemainder b.2 total < shareRemainder a.2 total ∨
    shareRemainder a.2 total = shareRemainder b.2 total ∧ a.1 < b.1

/-- The rank of a claim in that order: how many claims of the solve come before it (R48). -/
def gainRank (es : List (Slot × Nat)) (total : Nat) (b : Slot × Nat) : Nat := shortfallRank es total b.1 b.2

theorem gainsBefore_irrefl (total : Nat) (a : Slot × Nat) : ¬GainsBefore total a a := by
  rintro (h | ⟨-, h⟩) <;> exact lt_irrefl _ h

theorem GainsBefore.trans {total : Nat} {a b c : Slot × Nat} (hab : GainsBefore total a b)
    (hbc : GainsBefore total b c) : GainsBefore total a c := by
  obtain hab | ⟨hab, hsab⟩ := hab <;> obtain hbc | ⟨hbc, hsbc⟩ := hbc
  · exact .inl (hbc.trans hab)
  · exact .inl (hbc ▸ hab)
  · exact .inl (hab ▸ hbc)
  · exact .inr ⟨hab.trans hbc, hsab.trans hsbc⟩

/-- The lower slot decides between equal remainders, so of two claims of different slots one gains first. -/
theorem gainsBefore_or_gainsBefore (total : Nat) {a b : Slot × Nat} (hslot : a.1 ≠ b.1) :
    GainsBefore total a b ∨ GainsBefore total b a := by
  obtain hrem | hrem | hrem := lt_trichotomy (shareRemainder a.2 total) (shareRemainder b.2 total)
  · exact .inr (.inl hrem)
  · exact hslot.lt_or_gt.imp (fun h => .inr ⟨hrem, h⟩) fun h => .inr ⟨hrem.symm, h⟩
  · exact .inl (.inl hrem)

/-- Of the first `n` numbers, `k` are below `k`. -/
theorem countP_lt_range {k n : Nat} (hk : k ≤ n) : (List.range n).countP (fun r => decide (r < k)) = k := by
  obtain ⟨j, rfl⟩ := Nat.exists_eq_add_of_le hk
  rw [List.range_add, List.countP_append, List.countP_map,
    List.countP_eq_length.mpr fun r hr => decide_eq_true (List.mem_range.mp hr), List.length_range,
    List.countP_eq_zero.mpr fun r _ h => (of_decide_eq_true h).not_ge (Nat.le_add_right k r), Nat.add_zero]

section Rank

variable (es : List (Slot × Nat)) (total : Nat)

theorem gainRank_eq_countP (b : Slot × Nat) :
    gainRank es total b = es.countP fun o => decide (GainsBefore total o b) :=
  List.countP_congr fun o _ => by
    simp only [Bool.or_eq_true, Bool.and_eq_true, decide_eq_true_eq, beq_iff_eq]

variable {es total} {a b : Slot × Nat}

theorem gainRank_lt_length (hb : b ∈ es) : gainRank es total b < es.length := by
  rw [gainRank_eq_countP, List.countP_lt_length_iff]
  exact ⟨b, hb, decide_eq_false (gainsBefore_irrefl total b)⟩

/-- Whatever comes before the first of two claims comes before the second, and so does the first itself. -/
theorem gainRank_lt_gainRank (ha : a ∈ es) (hab : GainsBefore total a b) :
    gainRank es total a < gainRank es total b := by
  have hfirst : gainRank es total a =
      (es.filter fun o => decide (GainsBefore total o b)).countP fun o => decide (GainsBefore total o a) := by
    rw [gainRank_eq_countP, List.countP_filter]
    refine List.countP_congr fun o _ => ?_
    simpa only [Bool.and_eq_true, decide_eq_true_eq] using ⟨fun h => ⟨h, h.trans hab⟩, And.left⟩
  rw [hfirst, gainRank_eq_countP es total b, List.countP_eq_length_filter (l := es), List.countP_lt_length_iff]
  exact ⟨a, List.mem_filter.mpr ⟨ha, decide_eq_true hab⟩, decide_eq_false (gainsBefore_irrefl total a)⟩

/-- A claim without remainder stands behind every claim that leaves one. -/
theorem remainderCount_le_gainRank (hzero : shareRemainder b.2 total = 0) :
    remainderCount es total ≤ gainRank es total b := by
  rw [gainRank_eq_countP]
  refine List.countP_mono_left fun o _ hpos => decide_eq_true (.inl ?_)
  rw [hzero]
  exact of_decide_eq_true hpos

variable (hslots : (es.map Prod.fst).Nodup)

include hslots in
/-- The order of the ranks is the order of the gains. -/
theorem gainsBefore_of_gainRank_lt (ha : a ∈ es) (hb : b ∈ es) (hrank : gainRank es total a < gainRank es total b) :
    GainsBefore total a b := by
  have hslot : a.1 ≠ b.1 := fun h => hrank.ne (congrArg _ (List.inj_on_of_nodup_map hslots ha hb h))
  exact (gainsBefore_or_gainsBefore total hslot).resolve_right fun hba => hrank.not_gt (gainRank_lt_gainRank hb hba)

include hslots in
theorem gainRank_inj (ha : a ∈ es) (hb : b ∈ es) (hrank : gainRank es total a = gainRank es total b) : a = b := by
  refine List.inj_on_of_nodup_map hslots ha hb (by_contra fun hslot => ?_)
  obtain hab | hba := gainsBefore_or_gainsBefore total hslot
  · exact (gainRank_lt_gainRank ha hab).ne hrank
  · exact (gainRank_lt_gainRank hb hba).ne' hrank

include hslots in
/-- Distinct ranks below the number of claims: every rank is taken exactly once. -/
theorem map_gainRank_perm_range : (es.map (gainRank es total)).Perm (List.range es.length) := by
  have hdistinct : (es.map (gainRank es total)).Nodup :=
    (List.Nodup.of_map _ hslots).map_on fun a ha b hb => gainRank_inj hslots ha hb
  have hbound : es.map (gainRank es total) ⊆ List.range es.length := by
    intro r hr
    obtain ⟨b, hb, rfl⟩ := List.mem_map.mp hr
    exact List.mem_range.mpr (gainRank_lt_length hb)
  refine (List.subperm_of_subset hdistinct hbound).perm_of_length_le ?_
  rw [List.length_map, List.length_range]

include hslots in
/-- As many claims gain a unit as there are units to make up. -/
theorem countP_gainRank_lt {k : Nat} (hk : k ≤ es.length) :
    es.countP (fun o => decide (gainRank es total o < k)) = k := by
  calc es.countP (fun o => decide (gainRank es total o < k))
      = (es.map (gainRank es total)).countP (fun r => decide (r < k)) := by
        rw [List.countP_map]; rfl
    _ = (List.range es.length).countP (fun r => decide (r < k)) := (map_gainRank_perm_range hslots).countP_eq _
    _ = k := countP_lt_range hk

end Rank

/-! ### The weights of a solve (R47, R48) -/

/-- The unit that making up a shortfall of `k` gives a claim: 1 among the first `k`, else 0 (R48). -/
def gainedUnit (es : List (Slot × Nat)) (total k : Nat) (o : Slot × Nat) : Nat :=
  if gainRank es total o < k then 1 else 0

theorem gainedUnit_sum (es : List (Slot × Nat)) (total k : Nat) :
    (es.map (gainedUnit es total k)).sum = es.countP fun o => decide (gainRank es total o < k) := by
  unfold gainedUnit
  rw [List.sum_map_ite, List.map_const', List.map_const', List.sum_replicate, List.sum_replicate, smul_zero,
    smul_eq_mul, mul_one, add_zero, List.countP_eq_length_filter]

/-- A claim's weight of a solve: its quotient and the unit it gains (R47, R48). -/
def sharedWeight (es : List (Slot × Nat)) (total : Nat) (o : Slot × Nat) : Nat :=
  shareQuotient o.2 total + gainedUnit es total (shortfall es total) o

/-- Without effective affinity every weight is 0 (R47). -/
theorem shareWeights_of_total_zero {es : List (Slot × Nat)} (htotal : (es.map Prod.snd).sum = 0) :
    shareWeights es = es.map fun o => (o.1, 0) := if_pos htotal

theorem shareWeights_of_total_pos {es : List (Slot × Nat)} {total : Nat} (htotal : (es.map Prod.snd).sum = total)
    (ht : 0 < total) : shareWeights es = es.map fun o => (o.1, sharedWeight es total o) := by
  subst htotal
  exact if_neg ht.ne'

theorem shareWeights_slots (es : List (Slot × Nat)) : (shareWeights es).map Prod.fst = es.map Prod.fst := by
  obtain htotal | ht := Nat.eq_zero_or_pos (es.map Prod.snd).sum
  · rw [shareWeights_of_total_zero htotal, List.map_map]; rfl
  · rw [shareWeights_of_total_pos rfl ht, List.map_map]; rfl

section Weights

variable {es : List (Slot × Nat)} {total : Nat}

theorem gainedUnit_eq_one_iff {k : Nat} {o : Slot × Nat} :
    gainedUnit es total k o = 1 ↔ gainRank es total o < k := Nat.one_ne_zero.ite_eq_left_iff

theorem gainedUnit_eq_zero_iff {k : Nat} {o : Slot × Nat} :
    gainedUnit es total k o = 0 ↔ k ≤ gainRank es total o :=
  Nat.one_ne_zero.ite_eq_right_iff.trans Nat.not_lt

theorem gainedUnit_zero_or_one (k : Nat) (o : Slot × Nat) :
    gainedUnit es total k o = 0 ∨ gainedUnit es total k o = 1 :=
  (Nat.lt_or_ge (gainRank es total o) k).symm.imp gainedUnit_eq_zero_iff.mpr gainedUnit_eq_one_iff.mpr

theorem sharedWeight_quotient_or_succ (o : Slot × Nat) :
    sharedWeight es total o = shareQuotient o.2 total ∨ sharedWeight es total o = shareQuotient o.2 total + 1 :=
  (gainedUnit_zero_or_one _ o).imp (congrArg _) (congrArg _)

theorem gainRank_lt_shortfall_of_succ {o : Slot × Nat} (h : sharedWeight es total o = shareQuotient o.2 total + 1) :
    gainRank es total o < shortfall es total := gainedUnit_eq_one_iff.mp (Nat.add_left_cancel h)

theorem shortfall_le_gainRank_of_quotient {o : Slot × Nat} (h : sharedWeight es total o = shareQuotient o.2 total) :
    shortfall es total ≤ gainRank es total o := gainedUnit_eq_zero_iff.mp (Nat.add_eq_left.mp h)

variable (htotal : (es.map Prod.snd).sum = total) (ht : 0 < total)

include htotal ht in
/-- A claim of no effective affinity has quotient and remainder 0, and no unit is left when its turn comes. -/
theorem sharedWeight_of_no_affinity {o : Slot × Nat} (ho : o.2 = 0) : sharedWeight es total o = 0 := by
  have hquotient : shareQuotient o.2 total = 0 := by rw [ho]; exact Nat.zero_div total
  have hremainder : shareRemainder o.2 total = 0 := by rw [ho]; exact shareRemainder_zero total
  have hunit : gainedUnit es total (shortfall es total) o = 0 := gainedUnit_eq_zero_iff.mpr
    ((shortfall_le_remainderCount htotal ht).trans (remainderCount_le_gainRank hremainder))
  unfold sharedWeight
  rw [hquotient, hunit]

include htotal ht in
/-- The units gained are as many as the shortfall, so the weights sum to unity (R48). -/
theorem sharedWeight_sum (hslots : (es.map Prod.fst).Nodup) : (es.map (sharedWeight es total)).sum = Config.unity := by
  have hk : shortfall es total ≤ es.length := (shortfall_le_remainderCount htotal ht).trans List.countP_le_length
  calc (es.map (sharedWeight es total)).sum
      = quotientSum es total + (es.map (gainedUnit es total (shortfall es total))).sum := List.sum_map_add
    _ = quotientSum es total + shortfall es total := by rw [gainedUnit_sum, countP_gainRank_lt hslots hk]
    _ = Config.unity := quotientSum_add_shortfall htotal ht

/-- A claim that gains a unit comes before every claim that does not (R48). -/
theorem gainsBefore_of_weights (hslots : (es.map Prod.fst).Nodup) {a b : Slot × Nat} (ha : a ∈ es) (hb : b ∈ es)
    (hgains : sharedWeight es total a = shareQuotient a.2 total + 1)
    (hstays : sharedWeight es total b = shareQuotient b.2 total) : GainsBefore total a b :=
  gainsBefore_of_gainRank_lt hslots ha hb
    ((gainRank_lt_shortfall_of_succ hgains).trans_le (shortfall_le_gainRank_of_quotient hstays))

include htotal ht in
theorem eq_sharedWeight_of_getElem? {i : Nat} {e w : Slot × Nat} (he : es[i]? = some e)
    (hw : (shareWeights es)[i]? = some w) : w = (e.1, sharedWeight es total e) := by
  rw [shareWeights_of_total_pos htotal ht, List.getElem?_map, he] at hw
  exact (Option.some.inj hw).symm

end Weights

/-- Settles O24: the ranks of distinct slots are the numbers below their count, each taken once, so the shortfall is
made up exactly and by the claims that come first. -/
theorem solvedWeightsShareUnity : Obligations.SolvedWeightsShareUnity := by
  intro es _ hslots total ws
  refine ⟨shareWeights_slots es, fun hzero w hw => ?noAffinity, fun ht => ⟨?sum, fun i e w he hw => ?weight⟩⟩
  case noAffinity =>
    rw [show ws = _ from shareWeights_of_total_zero hzero] at hw
    obtain ⟨o, -, rfl⟩ := List.mem_map.mp hw
    rfl
  case sum =>
    rw [show ws = _ from shareWeights_of_total_pos rfl ht, List.map_map]
    exact sharedWeight_sum rfl ht hslots
  case weight =>
    obtain rfl := eq_sharedWeight_of_getElem? rfl ht he hw
    refine ⟨sharedWeight_quotient_or_succ e, sharedWeight_of_no_affinity rfl ht,
      fun j e' w' he' hw' hgains hstays => ?_⟩
    obtain rfl := eq_sharedWeight_of_getElem? rfl ht he' hw'
    exact (gainsBefore_of_weights hslots (List.mem_of_getElem? he) (List.mem_of_getElem? he') hgains hstays).imp_right
      (.imp_left Eq.symm)

end Sys2Proof.Machine
end

section
/-! PROOF. The fade factor (chapter 4): how far φ has moved from its start at an elapsed count (R81), and the obligation
that its rules settle: O27. -/

namespace Sys2Proof.Machine

open Sys2Proof

/-! ### The movement of a fade from its start (R81) -/

/-- How far φ has moved from its start at elapsed count `j`: R81's quotient, which is negative in a falling fade. -/
def Fade.movement (f : Fade) (j : Nat) : Int :=
  (2 * ((f.target : Int) - f.start) * j + f.length) / (2 * (f.length : Int))

/-- The longest step of a fade of length `n`: 256 / n rounded up (R81). -/
def fadeStepBound (n : Nat) : Nat := (256 + n - 1) / n

theorem le_length_mul_fadeStepBound {n : Nat} (hn : 0 < n) : 256 ≤ n * fadeStepBound n := by
  unfold fadeStepBound
  rw [← Nat.ceilDiv_eq_add_pred_div]
  exact le_smul_ceilDiv hn

theorem Fade.phi_at (f : Fade) (j : Nat) : { f with elapsed := j }.phi = (f.start + f.movement j).toNat := rfl

section Movement
variable {f : Fade} (hlen : 0 < f.length)

include hlen in
/-- Rounding keeps order up to whole units: exact movements within `c` of each other round to within `c`. -/
theorem Fade.movement_le_add {i j : Nat} {c : Int}
    (h : ((f.target : Int) - f.start) * i ≤ ((f.target : Int) - f.start) * j + f.length * c) :
    f.movement i ≤ f.movement j + c := by
  have hdivisor : (0 : Int) < 2 * f.length := by omega
  calc f.movement i
      ≤ (2 * ((f.target : Int) - f.start) * j + f.length + 2 * f.length * c) / (2 * f.length) :=
        Int.ediv_le_ediv hdivisor (by linarith)
    _ = f.movement j + c := Int.add_mul_ediv_left _ _ hdivisor.ne'

include hlen in
theorem Fade.movement_zero : f.movement 0 = 0 := by
  have hhalf : (f.length : Int) / (2 * f.length) = 0 := Int.ediv_eq_zero_of_lt (by omega) (by omega)
  simpa [Fade.movement] using hhalf

include hlen in
/-- The last step leaves nothing to round. -/
theorem Fade.movement_length : f.movement f.length = f.target - f.start := by
  have hhalf : (f.length : Int) / (2 * f.length) = 0 := Int.ediv_eq_zero_of_lt (by omega) (by omega)
  calc f.movement f.length
      = (f.length + 2 * f.length * ((f.target : Int) - f.start)) / (2 * f.length) := by
        unfold Fade.movement; congr 1; ring
    _ = f.target - f.start := by rw [Int.add_mul_ediv_left _ _ (by omega), hhalf, zero_add]

include hlen in
theorem Fade.movement_monotone (hrises : f.start ≤ f.target) : Monotone f.movement := fun i j hij => by
  have hexact : ((f.target : Int) - f.start) * i ≤ ((f.target : Int) - f.start) * j :=
    mul_le_mul_of_nonneg_left (Int.ofNat_le.mpr hij) (by omega)
  simpa using Fade.movement_le_add hlen (c := 0) (by simpa using hexact)

include hlen in
theorem Fade.movement_antitone (hfalls : f.target ≤ f.start) : Antitone f.movement := fun i j hij => by
  have hexact : ((f.target : Int) - f.start) * j ≤ ((f.target : Int) - f.start) * i :=
    mul_le_mul_of_nonpos_left (Int.ofNat_le.mpr hij) (by omega)
  simpa using Fade.movement_le_add hlen (c := 0) (by simpa using hexact)

include hlen in
theorem Fade.movement_of_rising (hrises : f.start ≤ f.target) {j : Nat} (hj : j ≤ f.length) :
    0 ≤ f.movement j ∧ f.movement j ≤ f.target - f.start :=
  ⟨movement_zero hlen ▸ movement_monotone hlen hrises (Nat.zero_le j),
    movement_length hlen ▸ movement_monotone hlen hrises hj⟩

include hlen in
theorem Fade.movement_of_falling (hfalls : f.target ≤ f.start) {j : Nat} (hj : j ≤ f.length) :
    f.target - f.start ≤ f.movement j ∧ f.movement j ≤ 0 :=
  ⟨movement_length hlen ▸ movement_antitone hlen hfalls hj,
    movement_zero hlen ▸ movement_antitone hlen hfalls (Nat.zero_le j)⟩

/-! ### φ between its ends -/

include hlen in
theorem Fade.start_add_movement_between {j : Nat} (hj : j ≤ f.length) :
    (min f.start f.target : Int) ≤ f.start + f.movement j ∧ f.start + f.movement j ≤ max f.start f.target := by
  rcases le_total f.start f.target with hrises | hfalls
  · have hmove := movement_of_rising hlen hrises hj
    omega
  · have hmove := movement_of_falling hlen hfalls hj
    omega

include hlen in
/-- Up to its length a fade never moves below 0, so φ is R81's sum itself. -/
theorem Fade.phi_eq {j : Nat} (hj : j ≤ f.length) :
    ({ f with elapsed := j }.phi : Int) = f.start + f.movement j := by
  have hlow := (start_add_movement_between hlen hj).1
  rw [Fade.phi_at]
  omega

include hlen in
theorem Fade.phi_zero : { f with elapsed := 0 }.phi = f.start := by
  rw [Fade.phi_at, movement_zero hlen, add_zero, Int.toNat_natCast]

include hlen in
theorem Fade.phi_length : { f with elapsed := f.length }.phi = f.target := by
  rw [Fade.phi_at, movement_length hlen, add_sub_cancel, Int.toNat_natCast]

include hlen in
theorem Fade.phi_between {j : Nat} (hj : j ≤ f.length) :
    min f.start f.target ≤ { f with elapsed := j }.phi ∧ { f with elapsed := j }.phi ≤ max f.start f.target := by
  have hphi := phi_eq hlen hj
  have hbetween := start_add_movement_between hlen hj
  omega

include hlen in
/-- φ moves monotonically toward its target (R81): no step leaves it farther away. -/
theorem Fade.phi_succ_nearer {j : Nat} (hj : j < f.length) :
    (({ f with elapsed := j + 1 }.phi : Int) - f.target).natAbs ≤
      (({ f with elapsed := j }.phi : Int) - f.target).natAbs := by
  have hsucc : j + 1 ≤ f.length := hj
  rw [phi_eq hlen hsucc, phi_eq hlen hj.le]
  rcases le_total f.start f.target with hrises | hfalls
  · have hnext := (movement_of_rising hlen hrises hsucc).2
    have hstep := movement_monotone hlen hrises (Nat.le_add_right j 1)
    omega
  · have hnext := (movement_of_falling hlen hfalls hsucc).1
    have hstep := movement_antitone hlen hfalls (Nat.le_add_right j 1)
    omega

include hlen in
/-- The exact movement of one step is at most 256 / N either way, so the rounded one is at most that rounded up. -/
theorem Fade.phi_succ_sub_le (hstart : f.start ≤ 256) (htarget : f.target ≤ 256) {j : Nat} (hj : j < f.length) :
    (({ f with elapsed := j + 1 }.phi : Int) - { f with elapsed := j }.phi).natAbs ≤ fadeStepBound f.length := by
  have hsucc : j + 1 ≤ f.length := hj
  have hbound : (256 : Int) ≤ f.length * fadeStepBound f.length := by
    exact_mod_cast le_length_mul_fadeStepBound hlen
  have hup : f.movement (j + 1) ≤ f.movement j + fadeStepBound f.length :=
    movement_le_add hlen (by rw [Nat.cast_succ, mul_add]; omega)
  have hdown : f.movement j ≤ f.movement (j + 1) + fadeStepBound f.length :=
    movement_le_add hlen (by rw [Nat.cast_succ, mul_add]; omega)
  rw [phi_eq hlen hsucc, phi_eq hlen hj.le]
  omega

end Movement

/-- Settles O27: φ is its start plus the rounded movement, which is ordered like the exact one and meets it at both
ends. -/
theorem fadeFactorFollowsFormula : Obligations.FadeFactorFollowsFormula := by
  refine ⟨fun f hlen hj hstart htarget => ?_, by decide, by decide⟩
  obtain ⟨hlow, hhigh⟩ := Fade.phi_between hlen hj
  have hformula : (f.phi : Int) = f.start
      + Int.fdiv (2 * ((f.target : Int) - f.start) * f.elapsed + f.length) (2 * (f.length : Int)) := by
    rw [Int.fdiv_eq_ediv_of_nonneg _ (by omega)]
    exact Fade.phi_eq hlen hj
  exact ⟨hformula, Fade.phi_zero hlen, Fade.phi_length hlen, hlow, hhigh,
    fun hlt => ⟨Fade.phi_succ_nearer hlen hlt, Fade.phi_succ_sub_le hlen hstart htarget hlt⟩⟩

end Sys2Proof.Machine
end

section
/-! PROOF. The Attention Unit (chapter 12): the sets of event classes as the statements number them (R197), the clear of
the classes a set names (R195), and the obligation that its rules settle: O50. -/

namespace Sys2Proof.Machine

open Sys2Proof Sys2Proof.Stating

/-! ### The sets of event classes (R197) -/

/-- The number of a list of bits is the sum of the powers of two whose bits are set. -/
theorem bitsToNat_map_finRange (n : Nat) (bit : Fin n → Bool) :
    bitsToNat ((List.finRange n).map bit) = ((List.finRange n).map fun k => if bit k then 2 ^ k.val else 0).sum := by
  induction n with
  | zero => rfl
  | succ n ih =>
    have hdouble (k : Fin n) :
        (if bit k.succ then 2 ^ k.succ.val else 0) = 2 * if bit k.succ then 2 ^ k.val else 0 := by
      rw [Fin.val_succ, Nat.pow_succ', mul_ite, mul_zero]
    simp only [List.finRange_succ, List.map_cons, List.map_map, List.sum_cons, bitsToNat, Function.comp_def, hdouble,
      List.sum_map_mul_left, ih fun k => bit k.succ, Fin.val_zero, pow_zero]

/-- The class records in class order. -/
theorem attention_toList (s : State) : s.attention.toList = (List.finRange 16).map s.eventRecord := by
  refine List.ext_getElem (by simp) fun i _ _ => ?_
  simp [State.eventRecord, Vector.get_eq_getElem]

theorem classSet_eq_classesWith (s : State) (f : EventRecord → Bool) : s.classSet f = classesWith s f := by
  unfold State.classSet classesWith
  rw [attention_toList, List.map_map]
  exact bitsToNat_map_finRange 16 _

/-! ### Requests of the Attention Unit -/

/-- A request that changes class records alone: what is left of the state is the request taken and the reply (R188). -/
theorem reply_mapEvents (s : State) (change : Nat → EventRecord → EventRecord) (rest : List Request) (tag : Byte)
    (fields : List Byte) :
    ((s.setPort { s.port with requests := rest }).mapEvents change).reply tag (.ok fields)
      = answered (s.mapEvents change) rest tag .ok fields := rfl

/-! ### CLEAR EVENTS (R195) -/

theorem eventRecord_clearClasses_of_named {set : Nat} (s : State) {k : ClassNumber}
    (hnamed : set.testBit k.val = true) : (clearClasses set s).eventRecord k = (s.eventRecord k).cleared :=
  (eventRecord_mapEvents s _ k).trans (if_pos hnamed)

theorem eventRecord_clearClasses_of_not_named {set : Nat} (s : State) {k : ClassNumber}
    (hother : set.testBit k.val = false) : (clearClasses set s).eventRecord k = s.eventRecord k :=
  (eventRecord_mapEvents s _ k).trans (if_neg (Bool.eq_false_iff.mp hother))

/-- The reply's fields are the status and overflow sets before the clear and the masked status after it (R195). -/
def clearEventsFields (set : Nat) (s : State) : List Byte :=
  twoBytes (classesWith s EventRecord.status) ++ twoBytes (classesWith s EventRecord.overflow)
    ++ twoBytes (classesWith (clearClasses set s) maskedOn)

/-- CLEAR EVENTS of the right length, run by the Request Executor, clears the classes its two bytes name (R195). -/
theorem exec_clearEvents_of_waits {s : State} {tag m0 m1 : Byte} {rest : List Request}
    (h : Waits s 0x51 tag [m0, m1] rest) :
    exec .clearEvents s = .next (answered (clearClasses (word m0 m1) s) rest tag .ok
      (clearEventsFields (word m0 m1) s)) := by
  obtain ⟨hhead, hroom⟩ := h
  have hrun := runRequest_of_head hhead hroom (c := 0x51) (k := 4) rfl rfl rfl clearEventsRequest
  unfold clearEventsFields
  simp only [← classSet_eq_classesWith]
  exact congrArg Host.Outcome.next (hrun.trans (reply_mapEvents s _ rest tag _))

/-- Settles O50: the state after it is the clear of the named classes, which is known class by class. -/
theorem clearEventsClearsNamedClasses : Obligations.ClearEventsClearsNamedClasses := by
  intro s tag m0 m1 rest h
  exact ⟨clearClasses (word m0 m1) s, exec_clearEvents_of_waits h, rfl, fun k =>
    ⟨eventRecord_clearClasses_of_named s, eventRecord_clearClasses_of_not_named s⟩⟩

end Sys2Proof.Machine
end

section
/-! PROOF. The block as a machine and its resets (O1, O3), and the layer that every statement about a request uses: the
byte forms as the statements write them (R197), and the operations that neither read nor change what stands outside the
map, the solver, the Projector Table and the loader. -/

namespace Sys2Proof.Machine

open Sys2Proof Sys2Proof.Stating

set_option Elab.async false

/-! ### Byte forms (R197) -/

theorem u8_eq (n : Nat) : u8 n = [byte n] := rfl

theorem u16_eq (n : Nat) : u16 n = twoBytes n := rfl

theorem u24_eq (n : Nat) : u24 n = threeBytes n := by
  simp only [u24, leBytes, threeBytes, byte, Nat.div_div_eq_div_mul]

theorem s16_eq (v : Int) : s16 v = signedBytes v := rfl

theorem bitsToNat_eq_flags : ∀ bs : List Bool, bitsToNat bs = flags bs
  | [] => rfl
  | b :: rest => by rw [bitsToNat, flags, bitsToNat_eq_flags rest]

theorem packBits_eq (bs : List Bool) : packBits bs = leBytes ((bs.length + 7) / 8) (flags bs) := by
  rw [packBits, bitsToNat_eq_flags]

theorem optional_eq_ifPresent {α : Type} (f : α → List Byte) (a : Option α) : optional f a = ifPresent f a := by
  cases a <;> rfl

theorem byte_toNat (b : Byte) : byte b.toNat = b := BitVec.ofNat_toNat 8 b |>.trans (BitVec.setWidth_eq b)

/-- The two bytes of a two-byte field. -/
theorem twoBytes_word (lo hi : Byte) : twoBytes (word lo hi) = [lo, hi] := by
  have hlo := lo.isLt
  have hhi := hi.isLt
  have h0 : byte (word lo hi) = lo := by
    apply BitVec.eq_of_toNat_eq
    simp only [byte, word, BitVec.toNat_ofNat]
    omega
  have h1 : byte (word lo hi / 256) = hi := by
    apply BitVec.eq_of_toNat_eq
    simp only [byte, word, BitVec.toNat_ofNat]
    omega
  rw [twoBytes, h0, h1]

/-- The three bytes of a three-byte field. -/
theorem threeBytes_triple (b0 b1 b2 : Byte) : threeBytes (triple b0 b1 b2) = [b0, b1, b2] := by
  have l0 := b0.isLt
  have l1 := b1.isLt
  have l2 := b2.isLt
  have h0 : byte (triple b0 b1 b2) = b0 := by
    apply BitVec.eq_of_toNat_eq
    simp only [byte, triple, BitVec.toNat_ofNat]
    omega
  have h1 : byte (triple b0 b1 b2 / 256) = b1 := by
    apply BitVec.eq_of_toNat_eq
    simp only [byte, triple, BitVec.toNat_ofNat]
    omega
  have h2 : byte (triple b0 b1 b2 / 65536) = b2 := by
    apply BitVec.eq_of_toNat_eq
    simp only [byte, triple, BitVec.toNat_ofNat]
    omega
  rw [threeBytes, h0, h1, h2]

/-- A byte is 0 exactly when its number is. -/
theorem byte_eq_zero_iff (b : Byte) : b = 0 ↔ b.toNat = 0 :=
  ⟨fun h => h ▸ rfl, fun h => BitVec.eq_of_toNat_eq h⟩

/-- A byte is 1 exactly when its number is. -/
theorem byte_eq_one_iff (b : Byte) : b = 1 ↔ b.toNat = 1 :=
  ⟨fun h => h ▸ rfl, fun h => BitVec.eq_of_toNat_eq h⟩

/-! ### Operations that stay inside -/

/-- The state with what stands outside the map, the solver, Edit Control, the Projector Table, the rasters, the channels,
the loader and the Attention Unit taken from another state. -/
def State.outside (s o : State) : State :=
  { s with
    pending := o.pending, content := o.content, timer := o.timer, owed := o.owed, align := o.align, port := o.port }

/-- An operation that neither reads nor changes what stands outside. -/
def Inward (f : State → State) : Prop := ∀ s o, f (s.outside o) = (f s).outside o

namespace Inward

variable {f g : State → State}

/-- What stands outside is as it was. -/
theorem outside_self (h : Inward f) (s : State) : (f s).outside s = f s := (h s s).symm

theorem port (h : Inward f) (s : State) : (f s).port = s.port := by rw [← h.outside_self s]; rfl
theorem align (h : Inward f) (s : State) : (f s).align = s.align := by rw [← h.outside_self s]; rfl
theorem timer (h : Inward f) (s : State) : (f s).timer = s.timer := by rw [← h.outside_self s]; rfl
theorem owed (h : Inward f) (s : State) : (f s).owed = s.owed := by rw [← h.outside_self s]; rfl

/-- Such an operation is the same before and after a change of the Control Port. -/
theorem setPort (h : Inward f) (s : State) (p : ControlPort) : f (s.setPort p) = (f s).setPort p :=
  calc f (s.setPort p) = f (s.outside (s.setPort p)) := rfl
    _ = (f s).outside (s.setPort p) := h _ _
    _ = ((f s).outside s).setPort p := rfl
    _ = (f s).setPort p := by rw [h.outside_self]

/-- Such an operation is the same before and after a change of the Alignment Port. -/
theorem setAlign (h : Inward f) (s : State) (a : AlignPort) : f (s.setAlign a) = (f s).setAlign a :=
  calc f (s.setAlign a) = f (s.outside (s.setAlign a)) := rfl
    _ = (f s).outside (s.setAlign a) := h _ _
    _ = ((f s).outside s).setAlign a := rfl
    _ = (f s).setAlign a := by rw [h.outside_self]

/-- Such an operation is the same before and after a change of the deliveries owed. -/
theorem setOwed (h : Inward f) (s : State) (w : Owed) : f { s with owed := w } = { f s with owed := w } :=
  calc f { s with owed := w } = f (s.outside { s with owed := w }) := rfl
    _ = (f s).outside { s with owed := w } := h _ _
    _ = { (f s).outside s with owed := w } := rfl
    _ = { f s with owed := w } := by rw [h.outside_self]

theorem id : Inward fun s => s := fun _ _ => rfl

theorem comp (hg : Inward g) (hf : Inward f) : Inward fun s => g (f s) := fun s o => by
  dsimp only; rw [hf, hg]

/-- A choice by what stands inside. -/
theorem ite {c : State → Prop} [∀ s, Decidable (c s)] (hc : ∀ s o, c (s.outside o) ↔ c s) (hf : Inward f)
    (hg : Inward g) : Inward fun s => if c s then f s else g s := fun s o => by
  dsimp only
  by_cases h : c s
  · rw [if_pos h, if_pos ((hc s o).mpr h), hf]
  · rw [if_neg h, if_neg fun h' => h ((hc s o).mp h'), hg]

/-- An operation that picks one by a value read inside. -/
theorem pick {α : Type} (v : State → α) (hv : ∀ s o, v (s.outside o) = v s) {k : α → State → State}
    (hk : ∀ a, Inward (k a)) : Inward fun s => k (v s) s := fun s o => by
  dsimp only; rw [hv, hk]

theorem foldl {α : Type} {k : State → α → State} (hk : ∀ a, Inward fun s => k s a) (l : List α) :
    Inward fun s => l.foldl k s := by
  induction l with
  | nil => exact Inward.id
  | cons a l ih => exact fun s o => (congrArg (l.foldl k) (hk a s o)).trans (ih _ _)

end Inward

/-! ### A request at the head of the queue (R188) -/

/-- The reply of a request whose run leaves the port alone. -/
theorem reply_eq_answered {s : State} {p : ControlPort} (hp : s.port = p) (rest : List Request) (tag : Byte) (a : Answer) :
    (s.setPort { p with requests := rest }).reply tag a = answered s rest tag a.result a.fields := by
  subst hp; rfl

/-- A request of its code and length whose run is an inward operation: what it makes of the state, and its reply. -/
theorem runRequest_of_waits {s : State} {code tag : Byte} {fields : List Byte} {rest : List Request}
    (h : Waits s code tag fields rest) {c k : Nat} (hc : code.toNat = c) (hk : requiredLength c = some k)
    (hl : fields.length + 2 = k) {run : Request → State → State × Answer} {f : State → State} (hf : Inward f) {a : Answer}
    (hrun : run { code := code, tag := tag, fields := fields } (s.setPort { s.port with requests := rest }) =
      (f (s.setPort { s.port with requests := rest }), a)) :
    runRequest c run s = answered (f s) rest tag a.result a.fields := by
  obtain ⟨hhead, hroom⟩ := h
  rw [runRequest_of_head hhead hroom hc hk hl, hrun]
  dsimp only
  rw [hf.setPort]
  exact reply_eq_answered (hf.port s) rest tag a

/-- A request of its code and length whose run changes nothing. -/
theorem runRequest_of_waits_same {s : State} {code tag : Byte} {fields : List Byte} {rest : List Request}
    (h : Waits s code tag fields rest) {c k : Nat} (hc : code.toNat = c) (hk : requiredLength c = some k)
    (hl : fields.length + 2 = k) {run : Request → State → State × Answer} {a : Answer}
    (hrun : run { code := code, tag := tag, fields := fields } (s.setPort { s.port with requests := rest }) =
      (s.setPort { s.port with requests := rest }, a)) :
    runRequest c run s = answered s rest tag a.result a.fields :=
  runRequest_of_waits h hc hk hl Inward.id hrun

/-! ### The block as a machine -/

/-- Every command answers a next state. -/
theorem exec_next (c : Instr) (s : State) : ∃ t, exec c s = .next t := by
  cases c <;> exact ⟨_, rfl⟩

/-- Settles O1: the step by its equations, and the frame of every command by `exec_pending`. -/
theorem stepRunsFrontCommand : Obligations.StepRunsFrontCommand := by
  refine ⟨fun s => ⟨fun c rest h => ?front, fun h => ?idle⟩, fun c s => ?next⟩
  case front => unfold step; rw [h]; rfl
  case idle => unfold step; rw [h]
  case next =>
    obtain ⟨t, ht⟩ := exec_next c s
    exact ⟨t, ht, exec_pending c s t ht⟩

/-! ### Reset (R191) -/

theorem channels_afterReset (s : State) :
    (s.channels.map fun c => Channel.afterReset c.raw c.starts) =
      Vector.ofFn fun p => Channel.afterReset (s.chan p).raw (s.chan p).starts := by
  ext i hi
  · simp [State.chan, Vector.get_eq_getElem]

theorem resetTxn_eq (x : TxnState) : resetTxn x = if x = .noSelect then .noSelect else .ignoring := by
  cases x <;> rfl

theorem afterReset_eq_resetFrom (s : State) : afterReset s = resetFrom s := by
  unfold afterReset
  rw [channels_afterReset, resetTxn_eq]
  rfl

/-- Settles O3: both commands are `afterReset`, whose blocks hold the values that `resetFrom` writes out. -/
theorem resetGivesEveryBlocksValues : Obligations.ResetGivesEveryBlocksValues := by
  refine ⟨fun s => ?line, fun s tag rest h => ?device, ?reset⟩
  case line => exact congrArg Host.Outcome.next (afterReset_eq_resetFrom s)
  case device => exact congrArg Host.Outcome.next ((resetDevice_of_waits h).trans (afterReset_eq_resetFrom s))
  case reset =>
    rw [← afterReset_eq_resetFrom]
    simp [afterReset, State.reset, resetTxn, ControlPort.afterReset, Channel.afterReset, Loader.afterReset]

end Sys2Proof.Machine
end

section
/-! PROOF. The Attention Unit's lines, mask and raisings (O49), and the Control Port: its transactions, its units and the
requests that are answered unrun (O4 to O8). -/

namespace Sys2Proof.Machine

open Sys2Proof Sys2Proof.Stating

set_option Elab.async false

/-! ### The ATTN line and the lead class (R193) -/

theorem maskedOn_iff (r : EventRecord) : maskedOn r = true ↔ r.status = true ∧ r.mask = true := by
  simp only [maskedOn, Bool.and_eq_true]

theorem attn_iff_anyMasked (s : State) : s.attn = true ↔ AnyMasked s := by
  unfold State.attn AnyMasked
  rw [attention_toList, List.any_eq_true]
  simp only [List.mem_map, List.mem_finRange, true_and, exists_exists_eq_and, EventRecord.masked, Bool.and_eq_true]

/-- The lead class is the least class whose masked status is set. -/
theorem leadClass_eq_some_iff (s : State) (k : ClassNumber) :
    s.leadClass = some k.val ↔ maskedOn (s.eventRecord k) = true ∧ ∀ j < k, maskedOn (s.eventRecord j) = false := by
  unfold State.leadClass
  rw [attention_toList, List.findIdx?_eq_some_iff_getElem]
  constructor
  · rintro ⟨hlt, hk, hmin⟩
    refine ⟨by simpa [maskedOn, EventRecord.masked] using hk, fun j hj => ?_⟩
    simpa [maskedOn, EventRecord.masked] using hmin j.val hj
  · rintro ⟨hk, hmin⟩
    refine ⟨by simp, by simpa [maskedOn, EventRecord.masked] using hk, fun j hj => ?_⟩
    have hclear := hmin ⟨j, hj.trans k.isLt⟩ hj
    simpa [maskedOn, EventRecord.masked] using hclear

theorem leadClass_eq_none_iff (s : State) : s.leadClass = none ↔ ¬AnyMasked s := by
  unfold State.leadClass
  rw [List.findIdx?_eq_none_iff, ← attn_iff_anyMasked, State.attn, Bool.not_eq_true, List.any_eq_false]
  simp only [Bool.not_eq_true]

/-! ### SET EVENT MASK (R193) -/

theorem word_lt (lo hi : Byte) : word lo hi < 65536 := by
  have hlo := lo.isLt
  have hhi := hi.isLt
  unfold word
  omega

/-- The bits of a number below 2 ^ n, summed. -/
theorem sum_bits_eq (n : Nat) : ∀ x < 2 ^ n,
    ((List.finRange n).map fun k => if x.testBit k.val then 2 ^ k.val else 0).sum = x := by
  intro x hx
  rw [← bitsToNat_map_finRange]
  induction n generalizing x with
  | zero => simp only [List.finRange_zero, List.map_nil, bitsToNat]; omega
  | succ n ih =>
    rw [List.finRange_succ, List.map_cons, List.map_map, bitsToNat]
    have hhalf := ih (x / 2) (by omega)
    simp only [Function.comp_def, Fin.val_succ, Nat.testBit_succ, Fin.val_zero, Nat.testBit_zero] at hhalf ⊢
    rw [hhalf]
    rcases Nat.mod_two_eq_zero_or_one x with h | h <;> simp only [h] <;> simp <;> omega

theorem eventRecord_replaceMask (set : Nat) (s : State) (k : ClassNumber) :
    (replaceMask set s).eventRecord k = { s.eventRecord k with mask := set.testBit k.val } :=
  eventRecord_mapEvents s _ k

/-- The mask in force after SET EVENT MASK is the set it names. -/
theorem maskSet_replaceMask {set : Nat} (hset : set < 65536) (s : State) : (replaceMask set s).maskSet = set := by
  unfold State.maskSet
  rw [classSet_eq_classesWith]
  unfold classesWith
  simp only [eventRecord_replaceMask]
  exact sum_bits_eq 16 set hset

theorem exec_setEventMask_of_waits {s : State} {tag m0 m1 : Byte} {rest : List Request}
    (h : Waits s 0x52 tag [m0, m1] rest) :
    exec .setEventMask s = .next (answered (replaceMask (word m0 m1) s) rest tag .ok
      (twoBytes (word m0 m1) ++ twoBytes (classesWith (replaceMask (word m0 m1) s) maskedOn))) := by
  obtain ⟨hhead, hroom⟩ := h
  have hrun := runRequest_of_head hhead hroom (c := 0x52) (k := 4) rfl rfl rfl setEventMaskRequest
  have hmask : (replaceMask (word m0 m1) s).maskSet = word m0 m1 := maskSet_replaceMask (word_lt m0 m1) s
  rw [← classSet_eq_classesWith]
  refine congrArg Host.Outcome.next (hrun.trans ((reply_mapEvents s _ rest tag _).trans ?_))
  exact congrArg (answered _ rest tag .ok) (congrArg (fun m => twoBytes m ++ _) hmask)

/-! ### A raising (R192) -/

theorem take_of_clear {r : EventRecord} (h : r.status = false) (e : Event) :
    r.take e = { r with status := true, detail := some e } := if_neg (by simp [h])

theorem take_of_set {r : EventRecord} (h : r.status = true) (e : Event) : r.take e = { r with overflow := true } :=
  if_pos h

theorem eventRecord_raise_self (s : State) (e : Event) :
    (s.raise e).eventRecord e.cls = (s.eventRecord e.cls).take e := by rw [eventRecord_raise, if_pos rfl]

theorem eventRecord_raise_other (s : State) {e : Event} {k : ClassNumber} (h : k ≠ e.cls) :
    (s.raise e).eventRecord k = s.eventRecord k := by rw [eventRecord_raise, if_neg h]

/-- Settles O49: the line and the lead class are searches of the class records in class order, and the records after SET
EVENT MASK and after a raising are known class by class. -/
theorem attentionFollowsStatusAndMask : Obligations.AttentionFollowsStatusAndMask := by
  refine ⟨⟨fun s => ?lines, fun s tag m0 m1 rest h => ?mask⟩, fun s e => ?raise⟩
  case lines => exact ⟨attn_iff_anyMasked s, leadClass_eq_none_iff s, leadClass_eq_some_iff s⟩
  case mask =>
    exact ⟨replaceMask (word m0 m1) s, exec_setEventMask_of_waits h, rfl, eventRecord_replaceMask (word m0 m1) s⟩
  case raise =>
    refine ⟨rfl, fun k hk => eventRecord_raise_other s hk, fun hc => ?clear, fun hs => ?set⟩
    case clear => rw [eventRecord_raise_self, take_of_clear hc]
    case set => rw [eventRecord_raise_self, take_of_set hs]

/-! ### Transactions and units (R183 to R187) -/

theorem portStatus_eq (s : State) :
    s.portStatus =
      byte ((if AnyMasked s then 128 else 0) + 16 * (4 - s.port.requests.length) + s.port.replies.length) := by
  unfold State.portStatus
  simp only [attn_iff_anyMasked]
  rfl

/-- Settles O4: SELECT ASSERT by its one case, SELECT RELEASE by the transaction state it ends. -/
theorem selectBeginsAndEndsTransactions : Obligations.SelectBeginsAndEndsTransactions := by
  refine ⟨fun s h => ?asserted, ?released⟩
  case asserted =>
    rw [← portStatus_eq]
    exact congrArg Host.Outcome.next (if_pos h)
  case released =>
    intro s h t
    change execSelectRelease s = _
    unfold execSelectRelease
    cases htxn : s.port.txn
    case noSelect => exact absurd htxn h
    all_goals rfl

/-- Bit 7 of a byte is set from 128 on. -/
theorem getLsbD_seven (b : Byte) : b.getLsbD 7 = decide (128 ≤ b.toNat) := by
  have hb := b.isLt
  rw [BitVec.getLsbD, Nat.testBit_eq_decide_div_mod_eq]
  exact decide_eq_decide.mpr ⟨fun h => by omega, fun h => by omega⟩

/-- A byte clocked in IGNORING is disregarded (R184). -/
theorem disregardedByte_of_ignoring {s : State} (h : s.port.txn = .ignoring) :
    disregardedByte s = { s with port := { s.port with
      shiftedOut := some (s.port.statusByte.getD 0), statusByte := none } } := if_pos h

/-- A header byte in AWAIT_HEADER, kind by kind (R184). -/
theorem exec_unitHeader_of_awaitHeader {s : State} (h : s.port.txn = .awaitHeader) (b : Byte) :
    exec (.unitHeader b) s = .next (takeHeader b s) := congrArg Host.Outcome.next (if_pos h)

/-- Settles O5: the kind of the header picks the branch of `takeHeader`; in IGNORING each of the four byte commands is
`disregardedByte`. -/
theorem headerByteBeginsUnit : Obligations.HeaderByteBeginsUnit := by
  refine ⟨?header, fun s b c h hc => ?ignoring⟩
  case header =>
    intro s b h p
    rw [exec_unitHeader_of_awaitHeader h]
    unfold takeHeader
    simp only [getLsbD_seven]
    refine ⟨fun hk => ?fill, fun hk => ?request, fun hk => ?fetch, fun hk => ?malformed⟩
    case fill =>
      rw [if_pos hk]
      simp only [ControlPort.unitEnd, decide_eq_true_eq]
      rfl
    case request => rw [if_neg (by omega), if_pos hk]; rfl
    case fetch => rw [if_neg (by omega), if_neg (by omega), if_pos hk]; rfl
    case malformed => rw [if_neg (by omega), if_neg (by omega), if_neg (by omega)]; rfl
  case ignoring =>
    rw [← disregardedByte_of_ignoring h]
    simp only [List.mem_cons, List.not_mem_nil, or_false] at hc
    rcases hc with rfl | rfl | rfl | rfl
    · exact congrArg Host.Outcome.next (if_neg (by rw [h]; decide))
    all_goals
      refine congrArg Host.Outcome.next ?_
      rw [h]

/-- The payload byte of a REQUEST unit (R185). -/
theorem exec_requestPayloadByte_of_readPayload {s : State} {q : PartialRequest} {k : Nat} (htxn : s.port.txn = .readPayload)
    (hq : s.port.partialReq = some q) (hk : q.length = some k) (b : Byte) :
    exec (.requestPayloadByte b) s = .next (takePayload q k b s) := by
  refine congrArg Host.Outcome.next ?_
  rw [htxn, hq]
  dsimp only
  rw [hk, Option.getD_some]

/-- The length byte of a REQUEST unit (R185). -/
theorem exec_requestLength_of_readLength {s : State} {q : PartialRequest} (htxn : s.port.txn = .readLength)
    (hq : s.port.partialReq = some q) (b : Byte) :
    exec (.requestLength b) s = .next (if 2 ≤ b.toNat ∧ b.toNat ≤ 32 then
        s.setPort { s.port.clocked with txn := .readPayload, partialReq := some { q with length := some b.toNat } }
      else malformedUnit (s.setPort s.port.clocked)) := by
  refine congrArg Host.Outcome.next ?_
  rw [htxn, hq]

/-- The byte that brings the count to the length completes the request (R185). -/
theorem takePayload_of_complete {s : State} {q : PartialRequest} {b code tag : Byte} {fields : List Byte} {k : Nat}
    (hbytes : q.bytes ++ [b] = code :: tag :: fields) (hk : fields.length + 2 = k) :
    takePayload q k b s = offerRequest { code := code, tag := tag, fields := fields }
      (s.setPort s.port.clocked.unitEnd) := by
  unfold takePayload
  rw [hbytes]
  exact if_neg (by simp only [List.length_cons]; omega)

/-- Settles O6: the length byte by its range, the payload byte by whether it completes the request, and the request by the
room in the queue. -/
theorem requestUnitReachesQueue : Obligations.RequestUnitReachesQueue := by
  refine ⟨?length, ?payload⟩
  case length =>
    intro s b q htxn hq p
    rw [exec_requestLength_of_readLength htxn hq]
    refine ⟨fun h => ?taken, fun h => ?malformed⟩
    case taken => rw [if_pos h]; rfl
    case malformed => rw [if_neg (by omega)]; rfl
  intro s b q k htxn hq hk p ended
  refine ⟨fun hmore => ?gather, ?complete⟩
  case gather =>
    rw [exec_requestPayloadByte_of_readPayload htxn hq hk]
    have hlt : (q.bytes ++ [b]).length < k := by simpa using hmore
    exact congrArg Host.Outcome.next (if_pos hlt)
  case complete =>
    intro code tag fields hbytes hlen
    rw [exec_requestPayloadByte_of_readPayload htxn hq hk, takePayload_of_complete hbytes hlen]
    refine ⟨fun hroom => ?queued, fun hfull => ?dropped⟩
    case queued => exact congrArg Host.Outcome.next (if_pos hroom)
    case dropped => exact congrArg Host.Outcome.next (if_neg (Nat.not_lt.mpr hfull))

/-! ### A FETCH (R186) -/

theorem exec_replyByte_of_sendReply {s : State} {f : FetchProgress} (htxn : s.port.txn = .sendReply)
    (hf : s.port.fetch = some f) : exec .replyByte s = .next (sendReplyByte f s) := by
  refine congrArg Host.Outcome.next ?_
  rw [htxn, hf]

/-- Settles O7: the byte sent is picked by the reply in progress and the count of bytes sent. -/
theorem fetchShiftsOutReply : Obligations.FetchShiftsOutReply := by
  intro s f htxn hf after
  rw [exec_replyByte_of_sendReply htxn hf]
  unfold sendReplyByte
  refine ⟨fun hnone => ?noReply, fun r hr => ⟨fun hsent => ?first, fun b hb hpos => ⟨fun hlt => ?more, fun hend => ?last⟩⟩⟩
  case noReply => rw [hnone]; rfl
  case first => rw [hr]; exact congrArg Host.Outcome.next (if_pos hsent)
  case more =>
    have hbyte : r.bytes.getD (f.sent - 1) 0#8 = b := by
      rw [List.getD_eq_getElem?_getD]; exact congrArg (Option.getD · 0#8) hb
    rw [hr]
    dsimp only
    rw [if_neg hpos.ne', hbyte, if_pos (show f.sent < r.length from hlt)]
    rfl
  case last =>
    have hbyte : r.bytes.getD (f.sent - 1) 0#8 = b := by
      rw [List.getD_eq_getElem?_getD]; exact congrArg (Option.getD · 0#8) hb
    rw [hr]
    dsimp only
    rw [if_neg hpos.ne', hbyte, if_neg (show ¬f.sent < r.length from hend.not_lt)]
    rfl

/-! ### Requests answered unrun (R189) -/

/-- A code that requires a length is one of the catalogue's. -/
theorem code_mem_of_requiredLength {n k : Nat} (h : requiredLength n = some k) :
    n ∈ catalogue.map fun e => e.2.1 := by
  unfold requiredLength at h
  split at h
  case h_36 => cases h
  all_goals decide

theorem requiredLength_of_not_catalogued {n : Nat} (h : ∀ e ∈ catalogue, n ≠ e.2.1) : requiredLength n = none := by
  cases hk : requiredLength n with
  | none => rfl
  | some k =>
    obtain ⟨e, he, hn⟩ := List.mem_map.mp (code_mem_of_requiredLength hk)
    exact absurd hn.symm (h e he)

/-- The catalogue's lengths are the lengths required. -/
theorem requiredLength_of_catalogued : ∀ e ∈ catalogue, requiredLength e.2.1 = some e.2.2 := by decide

/-- The answer to a request that is not run changes nothing but the queues. -/
theorem reply_unrun (s : State) (rest : List Request) (tag : Byte) (a : Answer) :
    (s.setPort { s.port with requests := rest }).reply tag a = answered s rest tag a.result a.fields := rfl

/-- READ FRAME of a wrong length waits for no swap (R148). -/
theorem readsFrame_of_badLength {s : State} {r : Request} {rest : List Request} (h : s.port.requests = r :: rest)
    (hl : r.length ≠ 2) : s.readsFrame = false := by
  simp only [State.readsFrame, h, List.head?_cons, Option.any_some, Bool.and_eq_false_iff, beq_eq_false_iff_ne]
  exact Or.inr hl

/-- RESET DEVICE of a wrong length does not reset (R191). -/
theorem resetDevice_of_badLength {s : State} {r : Request} {rest : List Request} (h : s.port.requests = r :: rest)
    (hr : s.port.replies.length < 8) (hc : r.code.toNat = 0x7F) (hl : r.length ≠ 2) :
    resetDevice s = answered s rest r.tag .badLength (badLengthAnswer r 2).fields := by
  unfold resetDevice
  rw [takeRequest_of_head h hr]
  exact (if_pos hc).trans (if_neg hl)

/-- The command of a code answers a wrong length BAD_LENGTH (R189). -/
theorem exec_of_badLength {s : State} {code tag : Byte} {fields : List Byte} {rest : List Request}
    (h : Waits s code tag fields rest) {e : Instr × Nat × Nat} (he : e ∈ catalogue) (hc : code.toNat = e.2.1)
    (hl : fields.length + 2 ≠ e.2.2) :
    exec e.1 s = .next (answered s rest tag .badLength
      (badLengthAnswer { code := code, tag := tag, fields := fields } e.2.2).fields) := by
  obtain ⟨hhead, hroom⟩ := h
  have hrun (run : Request → State → State × Answer) :=
    (runRequest_of_badLength hhead hroom hc (requiredLength_of_catalogued e he) hl run).trans (reply_unrun s rest tag _)
  have hlen : Request.length { code := code, tag := tag, fields := fields } ≠ e.2.2 := by
    simp only [Request.length]; omega
  have hframe (hk : e.2.2 = 2) : ¬(0 < s.owed.swap ∧ s.readsFrame = true) := by
    simp [readsFrame_of_badLength hhead (hk ▸ hlen)]
  have hreset (hd : e.2.1 = 0x7F) (hk : e.2.2 = 2) := resetDevice_of_badLength hhead hroom (hc.trans hd) (hk ▸ hlen)
  simp only [catalogue, List.cons_append, List.nil_append, List.mem_cons, List.not_mem_nil, or_false] at he
  rcases he with rfl | rfl | rfl | rfl | rfl | rfl | rfl | rfl | rfl | rfl | rfl | rfl | rfl | rfl | rfl | rfl | rfl | rfl |
    rfl | rfl | rfl | rfl | rfl | rfl | rfl | rfl | rfl | rfl | rfl | rfl | rfl | rfl | rfl | rfl | rfl
  all_goals first
    | exact congrArg Host.Outcome.next (hrun _)
    | exact congrArg Host.Outcome.next (Eq.trans (if_neg (hframe rfl)) (hrun _))
    | exact congrArg Host.Outcome.next (hreset rfl rfl)

theorem exec_unknownCode_of_head {s : State} {r : Request} {rest : List Request} (h : s.port.requests = r :: rest)
    (hr : s.port.replies.length < 8) :
    exec .unknownCode s = .next (match requiredLength r.code.toNat with
      | none => answered s rest r.tag .unknown (u8 r.code.toNat)
      | some k => if r.length = k then s else answered s rest r.tag .badLength (badLengthAnswer r k).fields) := by
  refine congrArg Host.Outcome.next ?_
  unfold answerUnrun
  rw [takeRequest_of_head h hr]
  dsimp only
  cases requiredLength r.code.toNat <;> rfl

theorem badLengthFields_eq (code tag : Byte) (fields : List Byte) (k : Nat) :
    (badLengthAnswer { code := code, tag := tag, fields := fields } k).fields =
      [code, byte (fields.length + 2), byte k] := by
  simp only [badLengthAnswer, u8_eq, byte_toNat, Request.length, Nat.add_comm 2, List.cons_append, List.nil_append]

/-- Settles O8: a code outside the catalogue requires no length; for one in it both commands come to BAD_LENGTH. -/
theorem wrongRequestsAreAnsweredUnrun : Obligations.WrongRequestsAreAnsweredUnrun := by
  refine ⟨fun s code tag fields rest h hcode => ?unknown, fun s code tag fields rest h e he hc hl c hmem => ?badLength⟩
  case unknown =>
    obtain ⟨hhead, hroom⟩ := h
    rw [exec_unknownCode_of_head hhead hroom, requiredLength_of_not_catalogued hcode, u8_eq, byte_toNat]
  case badLength =>
    rw [← badLengthFields_eq code tag fields]
    simp only [List.mem_cons, List.not_mem_nil, or_false] at hmem
    rcases hmem with rfl | rfl
    · exact exec_of_badLength h he hc hl
    · obtain ⟨hhead, hroom⟩ := h
      rw [exec_unknownCode_of_head hhead hroom, hc, requiredLength_of_catalogued e he]
      exact congrArg Host.Outcome.next (if_neg (by simp only [Request.length]; omega))

end Sys2Proof.Machine
end

section
/-! PROOF. What every request command runs, said once, and the invariants of the two ports (O60): the Control Port's queues
and unit in progress, and the Alignment Port's receiver, FIFO and assembler. -/

namespace Sys2Proof.Machine

open Sys2Proof Sys2Proof.Stating

set_option Elab.async false

/-! ### The request commands (R188) -/

/-- The code and the run of a request command; RESET DEVICE, which resets the port itself, is not among them. -/
def requestOf : Instr → Option (Nat × (Request → State → State × Answer))
  | .readNode => some (0x01, readNodeRequest)
  | .readPoint => some (0x02, readPointRequest)
  | .placeCursor => some (0x03, placeCursorRequest)
  | .setWalk => some (0x04, setWalkRequest)
  | .clearMap => some (0x05, clearMapRequest)
  | .setClaim => some (0x10, setClaimRequest)
  | .dropClaim => some (0x11, dropClaimRequest)
  | .applyEdits => some (0x12, applyEditsRequest)
  | .withdrawEdits => some (0x13, withdrawEditsRequest)
  | .discardEdits => some (0x14, discardEditsRequest)
  | .readSolver => some (0x18, fun _ t => (t, solverAnswer t))
  | .enrolProjector => some (0x20, enrolRequest)
  | .fadeProjector => some (0x21, fadeRequest)
  | .retireProjector => some (0x22, retireRequest)
  | .setRamp => some (0x23, setRampRequest)
  | .readProjector => some (0x24, readProjectorRequest)
  | .setGainFloor => some (0x28, setGainFloorRequest)
  | .setGainSlew => some (0x29, setGainSlewRequest)
  | .readGains => some (0x2A, fun _ t => (t, gainsAnswer t))
  | .restartOutput => some (0x30, restartOutputRequest)
  | .setFramePeriod => some (0x38, setFramePeriodRequest)
  | .readFrame => some (0x39, fun _ t => (t, frameAnswer t.timer))
  | .setAlignLink => some (0x40, setAlignLinkRequest)
  | .clearAlignErrors => some (0x41, clearAlignErrorsRequest)
  | .resetAlignReceiver => some (0x42, resetAlignReceiverRequest)
  | .readAlignStatus => some (0x43, fun _ t => (t, alignAnswer t.align))
  | .loadMesh => some (0x48, loadMeshRequest)
  | .stopLoad => some (0x49, stopLoadRequest)
  | .resumeLoad => some (0x4A, resumeLoadRequest)
  | .resetLoader => some (0x4B, resetLoaderRequest)
  | .readLoader => some (0x4C, fun _ t => (t, loaderAnswer t.loader))
  | .readEvents => some (0x50, fun _ t => (t, eventsAnswer t))
  | .clearEvents => some (0x51, clearEventsRequest)
  | .setEventMask => some (0x52, setEventMaskRequest)
  | _ => none

/-- The fields of State that the run of a request command can change: the command's own but for the port's. -/
def runFields (c : Instr) : List Field := (commandFields c).filter fun f => f != .port

/-- A request command runs its request, but for a READ FRAME that waits for a swap (R148, R188). -/
theorem exec_of_requestOf {c : Instr} {code : Nat} {run : Request → State → State × Answer}
    (h : requestOf c = some (code, run)) (s : State) :
    exec c s = .next (runRequest code run s) ∨ exec c s = .next s := by
  by_cases hc : c = .readFrame
  · subst hc
    obtain ⟨rfl, rfl⟩ := Prod.mk.inj (Option.some.inj h)
    change execReadFrame s = _ ∨ execReadFrame s = _
    unfold execReadFrame
    split
    · exact Or.inr rfl
    · exact Or.inl rfl
  · left
    cases c <;> cases h
    case readFrame.refl => exact absurd rfl hc
    all_goals rfl

/-- What the run of a request command can change (R188). -/
theorem requestOf_touches {c : Instr} {code : Nat} {run : Request → State → State × Answer}
    (h : requestOf c = some (code, run)) (r : Request) (s : State) : Touches (runFields c) s (run r s).1 := by
  cases c <;> cases h
  case readNode.refl => exact readNodeRequest_touches r s
  case placeCursor.refl => exact placeCursorRequest_touches r s
  case setWalk.refl => exact setDome_touches s _
  case clearMap.refl => exact clearMapRequest_touches r s
  case setClaim.refl => exact setClaimRequest_touches r s
  case dropClaim.refl => exact dropClaimRequest_touches r s
  case applyEdits.refl => exact applyEditsRequest_touches r s
  case withdrawEdits.refl => exact withdrawEditsRequest_touches r s
  case discardEdits.refl => exact discardEditsRequest_touches r s
  case enrolProjector.refl => exact enrolRequest_touches r s
  case fadeProjector.refl => exact (fadeRequest_touches r s).mono
  case retireProjector.refl => exact retireRequest_touches r s
  case setRamp.refl => exact setRampRequest_touches r s
  case readProjector.refl => exact readProjectorRequest_touches r s
  case setGainFloor.refl => exact setGainFloorRequest_touches r s
  case setGainSlew.refl => exact setGain_touches s _
  case restartOutput.refl => exact restartOutputRequest_touches r s
  case setFramePeriod.refl => exact setTimer_touches s _
  case setAlignLink.refl => exact setAlign_touches s _
  case clearAlignErrors.refl => exact setAlign_touches s _
  case resetAlignReceiver.refl => exact setAlign_touches s _
  case loadMesh.refl => exact loadMeshRequest_touches r s
  case stopLoad.refl => exact stopLoadRequest_touches r s
  case resumeLoad.refl => exact resumeLoadRequest_touches r s
  case resetLoader.refl => exact setLoader_touches s _
  case clearEvents.refl => exact clearEventsRequest_touches r s
  case setEventMask.refl => exact setEventMaskRequest_touches r s
  all_goals exact Touches.refl _ _

/-- A request's run leaves the port alone. -/
theorem requestOf_port {c : Instr} {code : Nat} {run : Request → State → State × Answer}
    (h : requestOf c = some (code, run)) (r : Request) (s : State) : (run r s).1.port = s.port :=
  (requestOf_touches h r s).port (by simp [runFields])

/-! ### The Control Port (R182) -/

namespace ControlPort.Agrees

variable {p : ControlPort}

theorem take (h : p.Agrees) {r : Request} {rest : List Request} (hr : p.requests = r :: rest) :
    { p with requests := rest }.Agrees := by
  obtain ⟨hreq, hrep, hlen, hunit⟩ := h
  rw [hr] at hreq hlen
  exact ⟨Nat.le_of_succ_le hreq, hrep, fun q hq => hlen q (List.mem_cons_of_mem r hq), hunit⟩

/-- A reply appended while fewer than eight wait leaves the oldest reply where it is. -/
theorem reply (h : p.Agrees) (hroom : p.replies.length < 8) (a : Reply) :
    { p with replies := p.replies ++ [a] }.Agrees := by
  obtain ⟨hreq, -, hlen, hpart, hlength, hpayload, hfetch, hhead⟩ := h
  refine ⟨hreq, by simpa using hroom, hlen, hpart, hlength, hpayload, hfetch, fun f r hf hr => ?_⟩
  obtain ⟨hfirst, hsent⟩ := hhead f r hf hr
  exact ⟨by simp [List.head?_append, hfirst], hsent⟩

theorem clocked (h : p.Agrees) : p.clocked.Agrees := h

/-- Between units there is neither a partial request nor a fetch, and the queues alone are to fit (R184). -/
theorem of_queues (hreq : p.requests.length ≤ 4) (hrep : p.replies.length ≤ 8) (hlen : ∀ r ∈ p.requests, r.length ≤ 32)
    {x : TxnState} (hx : x = .noSelect ∨ x = .awaitHeader ∨ x = .ignoring) :
    { p with txn := x, partialReq := none, fetch := none }.Agrees := by
  rcases hx with rfl | rfl | rfl <;> exact ⟨hreq, hrep, hlen, by simp, by simp, by simp, by simp, by simp⟩

theorem idle (h : p.Agrees) {x : TxnState} (hx : x = .noSelect ∨ x = .awaitHeader ∨ x = .ignoring) :
    { p with txn := x, partialReq := none, fetch := none }.Agrees := by
  obtain ⟨hreq, hrep, hlen, -⟩ := h
  exact of_queues hreq hrep hlen hx

theorem unitEnd_of_queues (hreq : p.requests.length ≤ 4) (hrep : p.replies.length ≤ 8)
    (hlen : ∀ r ∈ p.requests, r.length ≤ 32) : p.unitEnd.Agrees := by
  refine of_queues hreq hrep hlen ?_
  cases p.cont <;> simp

theorem unitEnd (h : p.Agrees) : p.unitEnd.Agrees := by
  obtain ⟨hreq, hrep, hlen, -⟩ := h
  exact unitEnd_of_queues hreq hrep hlen

/-- Outside a unit there is neither a partial request nor a fetch. -/
theorem no_unit (h : p.Agrees) (hx : p.txn = .noSelect ∨ p.txn = .awaitHeader) :
    p.partialReq = none ∧ p.fetch = none := by
  obtain ⟨-, -, -, hpart, -, -, hfetch, -⟩ := h
  rcases hx with hx | hx <;> simp [hx] at hpart hfetch <;> exact ⟨hpart, hfetch⟩

end ControlPort.Agrees

theorem malformedUnit_agrees {s : State} (h : s.port.Agrees) : (malformedUnit s).port.Agrees :=
  h.idle (Or.inr (Or.inr rfl))

theorem disregardedByte_agrees {s : State} (h : s.port.Agrees) : (disregardedByte s).port.Agrees := by
  unfold disregardedByte
  split
  · exact h.clocked
  · exact h

theorem selectAssert_agrees {s : State} (h : s.port.Agrees) (htxn : s.port.txn = .noSelect) (b : Option Byte) :
    { s.port with txn := .awaitHeader, statusByte := b, shiftedOut := none }.Agrees := by
  obtain ⟨hpart, hfetch⟩ := h.no_unit (Or.inl htxn)
  have hidle := h.idle (x := .awaitHeader) (Or.inr (Or.inl rfl))
  rw [← hpart, ← hfetch] at hidle
  exact hidle

theorem takeHeader_agrees {s : State} (h : s.port.Agrees) (htxn : s.port.txn = .awaitHeader) (b : Byte) :
    (takeHeader b s).port.Agrees := by
  obtain ⟨hpart, hfetch⟩ := h.no_unit (Or.inr htxn)
  have hp : { s.port.clocked with cont := b.getLsbD 7 }.Agrees := h
  obtain ⟨hreq, hrep, hlen, -⟩ := h
  unfold takeHeader
  dsimp only
  split
  · exact hp.unitEnd
  split
  · refine ⟨hreq, hrep, hlen, by simp, ?_, by simp, by simp [ControlPort.clocked, hfetch], ?_⟩
    · rintro q - ⟨⟩; exact ⟨rfl, rfl⟩
    · simp [ControlPort.clocked, hfetch]
  split
  · refine ⟨hreq, hrep, hlen, by simp [ControlPort.clocked, hpart], by simp, by simp, by simp, ?_⟩
    rintro f r ⟨⟩ hr
    exact ⟨hr, Nat.zero_le _⟩
  · exact malformedUnit_agrees hp

theorem requestLength_agrees {s : State} {q : PartialRequest} (h : s.port.Agrees) (htxn : s.port.txn = .readLength)
    (hq : s.port.partialReq = some q) {k : Nat} (hk : 2 ≤ k ∧ k ≤ 32) :
    { s.port.clocked with txn := .readPayload, partialReq := some { q with length := some k } }.Agrees := by
  obtain ⟨hreq, hrep, hlen, -, hlength, -, hfetch, hhead⟩ := h
  obtain ⟨-, hbytes⟩ := hlength q htxn hq
  refine ⟨hreq, hrep, hlen, by simp, by simp, ?_, ?_, hhead⟩
  · rintro q' - ⟨⟩
    exact ⟨k, rfl, hk.1, hk.2, by rw [hbytes, List.length_nil]; omega⟩
  · simpa [ControlPort.clocked, htxn] using hfetch

theorem offerRequest_agrees {s : State} (h : s.port.Agrees) {r : Request} (hr : r.length ≤ 32) :
    (offerRequest r s).port.Agrees := by
  unfold offerRequest
  split
  case isFalse => exact h
  case isTrue hroom =>
    obtain ⟨-, hrep, hlen, hunit⟩ := h
    refine ⟨by simpa [Config.requestLimit] using hroom, hrep, fun q hq => ?_, hunit⟩
    rcases List.mem_append.mp hq with hq | hq
    · exact hlen q hq
    · rw [List.mem_singleton.mp hq]; exact hr

theorem takePayload_agrees {s : State} {q : PartialRequest} (h : s.port.Agrees) (htxn : s.port.txn = .readPayload)
    (hq : s.port.partialReq = some q) (b : Byte) : (takePayload q (q.length.getD 0) b s).port.Agrees := by
  have hended := h.clocked.unitEnd
  obtain ⟨hreq, hrep, hlen, hpart, -, hpayload, hfetch, hhead⟩ := h
  obtain ⟨k, hk, hk2, hk32, hmore⟩ := hpayload q htxn hq
  unfold takePayload
  dsimp only
  rw [hk, Option.getD_some]
  split
  case isTrue hlt =>
    refine ⟨hreq, hrep, hlen, by simpa [ControlPort.clocked, hq] using hpart, by simp [ControlPort.clocked, htxn], ?_,
      hfetch, hhead⟩
    rintro q' - ⟨⟩
    exact ⟨k, rfl, hk2, hk32, hlt⟩
  case isFalse hge =>
    split
    · next code tag fields hbytes =>
      refine offerRequest_agrees hended ?_
      have hlength := congrArg List.length hbytes
      simp only [List.length_append, List.length_cons, List.length_nil] at hlength
      simp only [Request.length]
      omega
    · exact hended

theorem sendReplyByte_agrees {s : State} {f : FetchProgress} (h : s.port.Agrees) (htxn : s.port.txn = .sendReply)
    (hf : s.port.fetch = some f) : (sendReplyByte f s).port.Agrees := by
  obtain ⟨hreq, hrep, hlen, hpart, hlength, hpayload, -, hhead⟩ := h
  have hmore (b : Byte) {k : Nat} (hk : ∀ r, f.reply = some r → k ≤ r.length) :
      { s.port.sending b with fetch := some { f with sent := k } }.Agrees := by
    refine ⟨hreq, hrep, hlen, hpart, hlength, hpayload, by simp [ControlPort.sending, htxn], ?_⟩
    rintro f' r ⟨⟩ hr
    exact ⟨(hhead f r hf hr).1, hk r hr⟩
  unfold sendReplyByte
  split
  · exact ControlPort.Agrees.unitEnd_of_queues hreq hrep hlen
  · next r hr =>
    have hk {k : Nat} (hk : k ≤ r.length) : ∀ r', f.reply = some r' → k ≤ r'.length := fun r' hr' => by
      obtain rfl := Option.some.inj (hr.symm.trans hr'); exact hk
    dsimp only
    split
    · exact hmore _ (hk (by simp only [Reply.length]; omega))
    split
    · next hlt => exact hmore _ (hk hlt)
    · exact ControlPort.Agrees.unitEnd_of_queues hreq
        (by simpa [ControlPort.sending] using Nat.le_trans (Nat.sub_le _ 1) hrep) hlen

/-- A request's step keeps the port: the head is taken, the run leaves the port alone, and the reply joins a queue that had
room (R188). -/
theorem runRequest_agrees {code : Nat} {run : Request → State → State × Answer}
    (hrun : ∀ r t, (run r t).1.port = t.port) {s : State} (h : s.port.Agrees) : (runRequest code run s).port.Agrees := by
  cases hreq : s.port.requests with
  | nil => unfold runRequest State.takeRequest; rw [hreq]; exact h
  | cons r rest =>
    by_cases hroom : s.port.replies.length < 8
    case neg =>
      have hnone : s.takeRequest = none := by unfold State.takeRequest; rw [hreq]; exact if_neg hroom
      unfold runRequest; rw [hnone]; exact h
    case pos =>
      have htaken := h.take hreq
      unfold runRequest
      rw [takeRequest_of_head hreq hroom]
      dsimp only
      repeat' split
      · exact h
      · simp only [State.reply, State.setPort_port, hrun]
        exact htaken.reply hroom _
      · exact htaken.reply hroom _
      · exact h

theorem answerUnrun_agrees {s : State} (h : s.port.Agrees) : (answerUnrun s).port.Agrees := by
  unfold answerUnrun State.takeRequest
  cases hreq : s.port.requests with
  | nil => exact h
  | cons r rest =>
    dsimp only
    by_cases hroom : s.port.replies.length < Config.replyLimit
    · rw [if_pos hroom]
      have htaken := h.take hreq
      dsimp only
      repeat' split
      · exact htaken.reply hroom _
      · exact h
      · exact htaken.reply hroom _
    · rw [if_neg hroom]; exact h

theorem afterReset_port_agrees (s : State) : (afterReset s).port.Agrees := by
  refine ControlPort.Agrees.of_queues (p := ControlPort.afterReset (resetTxn s.port.txn)) (Nat.zero_le _) (Nat.zero_le _)
    (by simp [ControlPort.afterReset]) ?_
  rw [resetTxn_eq]
  split <;> simp

theorem resetDevice_port_agrees {s : State} (h : s.port.Agrees) : (resetDevice s).port.Agrees := by
  unfold resetDevice State.takeRequest
  cases hreq : s.port.requests with
  | nil => exact h
  | cons r rest =>
    dsimp only
    by_cases hroom : s.port.replies.length < Config.replyLimit
    · rw [if_pos hroom]
      dsimp only
      split
      · split
        · exact afterReset_port_agrees s
        · exact (h.take hreq).reply hroom _
      · exact h
    · rw [if_neg hroom]; exact h

/-- Every command keeps the Control Port's parts in agreement. -/
theorem exec_port_agrees (c : Instr) {s t : State} (h : s.port.Agrees) (e : exec c s = .next t) : t.port.Agrees := by
  by_cases hreq : ∃ k, requestOf c = some k
  · obtain ⟨⟨code, run⟩, hc⟩ := hreq
    rcases exec_of_requestOf hc s with hs | hs <;> obtain rfl := Host.Outcome.next.inj (hs.symm.trans e)
    · exact runRequest_agrees (requestOf_port hc) h
    · exact h
  have hframe := exec_touches c s t e
  cases c
  case resetLine => obtain rfl := Host.Outcome.next.inj e; exact afterReset_port_agrees s
  case resetDevice => obtain rfl := Host.Outcome.next.inj e; exact resetDevice_port_agrees h
  case unknownCode => obtain rfl := Host.Outcome.next.inj e; exact answerUnrun_agrees h
  case selectAssert =>
    obtain rfl := Host.Outcome.next.inj e
    split
    · next htxn => exact selectAssert_agrees h htxn _
    · exact h
  case unitHeader =>
    obtain rfl := Host.Outcome.next.inj e
    split
    · next htxn => exact takeHeader_agrees h htxn _
    · exact disregardedByte_agrees h
  case requestLength =>
    obtain rfl := Host.Outcome.next.inj e
    split
    · next htxn hq =>
      dsimp only
      split
      · next hk => exact requestLength_agrees h htxn hq hk
      · exact malformedUnit_agrees h.clocked
    · exact disregardedByte_agrees h
  case requestPayloadByte =>
    obtain rfl := Host.Outcome.next.inj e
    split
    · next htxn hq => exact takePayload_agrees h htxn hq _
    · exact disregardedByte_agrees h
  case replyByte =>
    obtain rfl := Host.Outcome.next.inj e
    split
    · next htxn hf => exact sendReplyByte_agrees h htxn hf
    · exact disregardedByte_agrees h
  case selectRelease =>
    change execSelectRelease s = _ at e
    unfold execSelectRelease at e
    obtain rfl := Host.Outcome.next.inj e
    have hidle := h.idle (x := .noSelect) (Or.inl rfl)
    split
    case h_1 => exact h
    all_goals exact hidle
  all_goals first
    | exact hframe.port ▸ h
    | exact absurd ⟨_, rfl⟩ hreq

/-! ### The Alignment Port (R149) -/

namespace AlignPort.Agrees

variable {a : AlignPort}

/-- The assembler at its start and an empty FIFO fit every receiver state (R157). -/
theorem emptied (hresume : a.resume.isSome = true ↔ a.receiver = .lineDown)
    (henable : a.enable = false ↔ a.receiver = .disabled) (hqueue : a.queue.length ≤ 16) (hfifo : a.fifo = [])
    (hasm : a.assembler = .seekLead) : a.Agrees :=
  ⟨hresume, henable, fun _ => ⟨hfifo, hasm⟩, by simp [hasm], by simp [hfifo], hqueue⟩

/-- In LISTENING the FIFO and the assembler are free within their bounds. -/
theorem listening (hreceiver : a.receiver = .listening) (hresume : a.resume = none) (henable : a.enable = true)
    (hasm : ∀ r, a.assembler = .readPayload r → r.bytes.length < r.type.payload) (hfifo : a.fifo.length ≤ 4)
    (hqueue : a.queue.length ≤ 16) : a.Agrees :=
  ⟨by simp [hreceiver, hresume], by simp [hreceiver, henable], by simp [hreceiver], hasm, hfifo, hqueue⟩

theorem errors (h : a.Agrees) (e : ErrorSet) : { a with errors := e }.Agrees := h

/-- What a port in LISTENING has. -/
theorem of_listening (h : a.Agrees) (hr : a.receiver = .listening) :
    a.resume = none ∧ a.enable = true ∧ (∀ r, a.assembler = .readPayload r → r.bytes.length < r.type.payload) ∧
      a.fifo.length ≤ 4 ∧ a.queue.length ≤ 16 := by
  obtain ⟨hresume, henable, -, hasm, hfifo, hqueue⟩ := h
  exact ⟨by simpa [hr] using hresume, by simpa [hr] using henable, hasm, hfifo, hqueue⟩

theorem discarding (h : a.Agrees) (hr : a.receiver = .listening) (flags : ErrorSet) : (a.discarding flags).Agrees := by
  obtain ⟨hresume, henable, -, hfifo, hqueue⟩ := h.of_listening hr
  exact listening hr hresume henable (by simp [AlignPort.discarding]) hfifo hqueue

theorem halting (h : a.Agrees) (hr : a.receiver = .listening) (flags : ErrorSet) : (a.halting flags).Agrees := by
  obtain ⟨hresume, henable, -, -, hqueue⟩ := h.of_listening hr
  exact emptied (by simp [AlignPort.halting, hresume]) (by simp [AlignPort.halting, henable]) hqueue rfl rfl

end AlignPort.Agrees

theorem takeDiscard_agrees {s : State} (h : s.align.Agrees) (hr : s.align.receiver = .listening) (flags : ErrorSet) :
    (takeDiscard flags s).align.Agrees := by
  unfold takeDiscard
  split
  · exact h.discarding hr flags
  · exact h.halting hr flags

theorem loseByte_agrees {s : State} (h : s.align.Agrees) (hr : s.align.receiver = .listening) :
    (loseByte s).align.Agrees := by
  have hgap : { s.align with gapPending := true }.Agrees := h
  unfold loseByte
  dsimp only
  split
  · exact hgap.errors _
  · exact hgap.halting hr _

theorem offerByte_agrees {s : State} (h : s.align.Agrees) (hr : s.align.receiver = .listening) (e : FifoEntry) :
    (offerByte e s).align.Agrees := by
  unfold offerByte
  split
  · exact takeDiscard_agrees h hr _
  split
  · next hroom =>
    obtain ⟨hresume, henable, hasm, -, hqueue⟩ := h.of_listening hr
    exact AlignPort.Agrees.listening hr hresume henable hasm
      (by simpa [AlignPort.joined, Config.fifoLimit] using hroom) hqueue
  · exact loseByte_agrees h hr

theorem offerReport_agrees {s : State} (h : s.align.Agrees) (hr : s.align.receiver = .listening) (r : Report) :
    (offerReport r s).align.Agrees := by
  unfold offerReport
  split
  · next hroom =>
    obtain ⟨hresume, henable, -, hfifo, -⟩ := h.of_listening hr
    exact AlignPort.Agrees.listening hr hresume henable (by simp) hfifo
      (by simpa [Config.measurementLimit] using hroom)
  · exact takeDiscard_agrees h hr _

theorem advanceReport_agrees {s : State} (h : s.align.Agrees) (hr : s.align.receiver = .listening) (r : PartialReport) :
    (advanceReport r s).align.Agrees := by
  unfold advanceReport
  split
  · next hmore =>
    obtain ⟨hresume, henable, -, hfifo, hqueue⟩ := h.of_listening hr
    refine AlignPort.Agrees.listening hr hresume henable ?_ hfifo hqueue
    rintro r' ⟨⟩
    exact hmore
  split
  · exact takeDiscard_agrees h hr _
  · exact offerReport_agrees h hr _

theorem assemble_agrees {s : State} (h : s.align.Agrees) (hr : s.align.receiver = .listening) (e : FifoEntry) :
    (assemble e s).align.Agrees := by
  unfold assemble
  split
  · split
    · obtain ⟨hresume, henable, -, hfifo, hqueue⟩ := h.of_listening hr
      exact AlignPort.Agrees.listening hr hresume henable (by simp) hfifo hqueue
    · exact takeDiscard_agrees h hr _
  · split
    · exact takeDiscard_agrees h hr _
    split
    · exact advanceReport_agrees h hr _
    · exact takeDiscard_agrees h hr _
  · exact advanceReport_agrees h hr _

/-- A report taken from the Measurement Queue, whatever applying it does elsewhere, leaves a shorter queue (R159). -/
theorem runReport_agrees {apply : Report → State → Option (State × ReportOutcome)}
    (happly : ∀ r t u o, apply r t = some (u, o) → u.align = t.align) {s : State} (h : s.align.Agrees) :
    (runReport apply s).align.Agrees := by
  unfold runReport
  split
  · exact h
  · next r rest hq =>
    split
    · exact h
    · next u o e =>
      obtain ⟨hresume, henable, hempty, hasm, hfifo, hqueue⟩ := h
      rw [hq] at hqueue
      simp only [State.setAlign_align, happly _ _ _ _ e]
      exact ⟨hresume, henable, hempty, hasm, hfifo, Nat.le_of_succ_le hqueue⟩

theorem linked_agrees {a : AlignPort} (h : a.Agrees) (rate : LineRate) (mode : ErrorMode) (enable : Bool) :
    (a.linked rate mode enable).Agrees := by
  obtain ⟨hresume, -, -, -, -, hqueue⟩ := h
  refine AlignPort.Agrees.emptied ?_ ?_ hqueue rfl rfl
  all_goals
    cases enable <;> simp [AlignPort.linked, linkedReceiver]
  · by_cases hd : a.receiver = .disabled <;> simp_all
  · by_cases hd : a.receiver = .disabled <;> simp [hd]

theorem cleared_agrees {a : AlignPort} (h : a.Agrees) : a.cleared.Agrees := by
  unfold AlignPort.cleared
  dsimp only
  split
  · next hr =>
    obtain ⟨hresume, henable, hempty, -, -, hqueue⟩ := h
    obtain ⟨hfifo, -⟩ := hempty (by simp [hr])
    exact AlignPort.Agrees.listening rfl (by simpa [hr] using hresume) (by simpa [hr] using henable) (by simp)
      (by simp [hfifo]) hqueue
  · next hr =>
    obtain ⟨hresume, henable, hempty, hasm, hfifo, hqueue⟩ := h
    refine ⟨?_, henable, hempty, hasm, hfifo, hqueue⟩
    by_cases hh : a.resume = some .halted
    · simp [hh, hr]
    · simpa [hh] using hresume
  · exact h
  · exact h

theorem receiverReset_agrees (a : AlignPort) : a.receiverReset.Agrees := by
  refine AlignPort.Agrees.emptied ?_ ?_ (Nat.zero_le _) rfl rfl <;> cases henable : a.enable <;>
    simp [AlignPort.receiverReset, henable]

theorem lineIdle_agrees {a : AlignPort} (h : a.Agrees) (hr : a.receiver = .lineDown) {r : ResumeState} :
    (a.lineUp r).Agrees := by
  obtain ⟨-, henable, hempty, -, -, hqueue⟩ := h
  obtain ⟨hfifo, hasm⟩ := hempty (by simp [hr])
  refine AlignPort.Agrees.emptied ?_ ?_ hqueue hfifo hasm <;> cases r <;>
    simp [AlignPort.lineUp, ResumeState.receiver] <;> simpa [hr] using henable

theorem broken_agrees {a : AlignPort} (h : a.Agrees) (hr : a.receiver = .listening ∨ a.receiver = .halted)
    (r : ResumeState) : (a.broken r).Agrees := by
  obtain ⟨-, henable, -, -, -, hqueue⟩ := h
  refine AlignPort.Agrees.emptied (by simp [AlignPort.broken]) ?_ hqueue rfl rfl
  rcases hr with hr | hr <;> simpa [hr, AlignPort.broken] using henable

/-- A property of the Alignment Port alone is kept by the two resets and by every request that keeps it. -/
theorem exec_align_agrees (c : Instr) {s t : State} (h : s.align.Agrees) (e : exec c s = .next t) : t.align.Agrees := by
  have hreset : AlignPort.initial.Agrees := by
    exact AlignPort.Agrees.emptied (by simp [AlignPort.initial]) (by simp [AlignPort.initial]) (Nat.zero_le _) rfl rfl
  have hframe := exec_touches c s t e
  cases c
  case resetLine => obtain rfl := Host.Outcome.next.inj e; exact hreset
  case resetDevice =>
    obtain rfl := Host.Outcome.next.inj e
    exact resetDevice_keeps (P := fun s => s.align.Agrees) (fun _ _ h => h) h hreset
  case setAlignLink =>
    obtain rfl := Host.Outcome.next.inj e
    exact runRequest_keeps (P := fun s => s.align.Agrees) (fun _ _ h => h) (fun _ _ h => linked_agrees h _ _ _) h
  case clearAlignErrors =>
    obtain rfl := Host.Outcome.next.inj e
    exact runRequest_keeps (P := fun s => s.align.Agrees) (fun _ _ h => h) (fun _ _ h => cleared_agrees h) h
  case resetAlignReceiver =>
    obtain rfl := Host.Outcome.next.inj e
    exact runRequest_keeps (P := fun s => s.align.Agrees) (fun _ _ h => h) (fun _ t _ => receiverReset_agrees t.align) h
  case byteCompletion =>
    change execByteCompletion _ _ _ s = _ at e
    unfold execByteCompletion at e
    obtain rfl := Host.Outcome.next.inj e
    split
    · next hr =>
      split
      · exact offerByte_agrees h hr _
      · exact h
    · exact h.errors _
    · exact h
    · exact h
  case lineIdle =>
    obtain rfl := Host.Outcome.next.inj e
    split
    · exact h
    · next hr _ => exact lineIdle_agrees h hr
    all_goals exact h
  case lineBreak =>
    obtain rfl := Host.Outcome.next.inj e
    split
    · next hr => exact broken_agrees h (Or.inl hr) _
    · next hr => exact broken_agrees h (Or.inr hr) _
    all_goals exact h
  case assemblerTake =>
    obtain rfl := Host.Outcome.next.inj e
    split
    · next entry rest hr hf =>
      obtain ⟨hresume, henable, hasm, hfifo, hqueue⟩ := h.of_listening hr
      rw [hf] at hfifo
      have htaken : { s.align with fifo := rest }.Agrees :=
        AlignPort.Agrees.listening hr hresume henable hasm (Nat.le_of_succ_le hfifo) hqueue
      exact assemble_agrees (s := s.setAlign { s.align with fifo := rest }) htaken hr entry
    all_goals exact h
  case driftReport =>
    obtain rfl := Host.Outcome.next.inj e
    refine runReport_agrees (fun r t u o e => ?_) h
    cases r <;> simp only [Option.some.injEq, reduceCtorEq] at e
    have hfst := congrArg Prod.fst e
    dsimp only at hfst
    exact hfst ▸ (applyDrift_touches _ _ _ _ _ _).align
  case lumaReport =>
    obtain rfl := Host.Outcome.next.inj e
    refine runReport_agrees (fun r t u o e => ?_) h
    cases r <;> simp only [Option.some.injEq, reduceCtorEq] at e
    have hfst := congrArg Prod.fst e
    dsimp only at hfst
    exact hfst ▸ (applyLuma_touches _ _ _).align
  case stepReport =>
    obtain rfl := Host.Outcome.next.inj e
    refine runReport_agrees (fun r t u o e => ?_) h
    cases r <;> simp only [Option.some.injEq, reduceCtorEq] at e
    have hfst := congrArg Prod.fst e
    dsimp only at hfst
    exact hfst ▸ (applyStep_touches _).align
  all_goals exact hframe.align ▸ h

/-- Settles O60: each port's agreement is kept by every command that touches it, and by the frame of every other. -/
theorem stepKeepsPorts : Obligations.StepKeepsPorts :=
  ⟨KeptByStep.of_exec (fun _ _ h => h) fun c _ _ h e => exec_align_agrees c h e,
    KeptByStep.of_exec (fun _ _ h => h) fun c _ _ h e => exec_port_agrees c h e⟩

end Sys2Proof.Machine
end

section
/-! PROOF. The invariants of the Frame Timer, the Mesh Loader and the Attention Unit (O59). The operations of the map and of
the Projector Table reach the loader by the yield report alone and the Attention Unit by raisings alone: `Told` says so
once for each of them. -/

namespace Sys2Proof.Machine

open Sys2Proof Sys2Proof.Stating

set_option Elab.async false

/-! ### What the map and the Projector Table tell the loader and the Attention Unit -/

/-- Every field but the loader and the Attention Unit. -/
abbrev Field.quiet : List Field :=
  [.pending, .dome, .solver, .edit, .projectors, .gain, .raster, .content, .channels, .timer, .owed, .align, .port]

/-- The second state comes from the first by changes elsewhere, raisings and yield reports (R173, R192). -/
inductive Told : State → State → Prop
  | quiet {s t : State} : Touches Field.quiet s t → Told s t
  | raise (s : State) (e : Event) : Told s (s.raise e)
  | reportYield (s : State) : Told s (reportYield s)
  | trans {s t u : State} : Told s t → Told t u → Told s u

namespace Told

variable {s t u : State}

theorem refl (s : State) : Told s s := quiet (Touches.refl _ s)

theorem of_touches {fs : List Field} (h : Touches fs s t) (hfs : Field.sub fs Field.quiet = true := by rfl) : Told s t :=
  quiet (h.mono hfs)

theorem thenRaise (h : Told s t) (e : Event) : Told s (t.raise e) := h.trans (raise t e)

theorem ite {c : Prop} [Decidable c] (ht : Told s t) (hu : Told s u) : Told s (if c then t else u) := by
  split <;> assumption

theorem foldl {α : Type} {g : State → α → State} (h : ∀ s a, Told s (g s a)) (l : List α) (s : State) :
    Told s (l.foldl g s) :=
  foldl_keeps (Told s) g (fun _ a ht => ht.trans (h _ a)) l s (refl s)

/-- What every raising keeps, whatever the class, and nothing else can reach, is kept. -/
theorem keeps {P : State → Prop} (hquiet : ∀ s t, t.loader = s.loader → t.attention = s.attention → P s → P t)
    (hraise : ∀ s e, P s → P (s.raise e)) (hyield : ∀ s, P s → P (Machine.reportYield s)) (h : Told s t) : P s → P t := by
  induction h with
  | quiet h => exact hquiet _ _ h.loader h.attention
  | raise s e => exact hraise s e
  | reportYield s => exact hyield s
  | trans _ _ ih ih' => exact fun hs => ih' (ih hs)

end Told

theorem raiseLimits_told (ps : List Slot) (s : State) : Told s (raiseLimits ps s) :=
  Told.foldl (fun _ _ => Told.ite (Told.raise _ _) (Told.refl _)) ps s

theorem recomputeGains_told (s : State) : Told s (recomputeGains s) :=
  (Told.of_touches (mapProj_touches s _)).trans (raiseLimits_told _ _)

theorem storeLuminance_told (p : Slot) (v : Nat) (s : State) : Told s (storeLuminance p v s) := by
  unfold storeLuminance
  exact (Told.of_touches (modProj_touches s p _)).trans (recomputeGains_told _)

theorem applyLuma_told (slot : Byte) (v : Nat) (s : State) : Told s (applyLuma slot v s).1 := by
  unfold applyLuma
  split
  · exact Told.refl s
  · split
    · exact Told.refl s
    · dsimp only
      exact storeLuminance_told _ _ s

theorem lowerFailover_told (p : Slot) (s : State) : Told s (lowerFailover p s) :=
  have h : Told s (s.setFailover p ((s.proj p).failover - 1)) := Told.of_touches (modProj_touches s p _)
  Told.ite (Told.refl s) (Told.ite ((h.thenRaise _).trans (Told.reportYield _)) h)

theorem oweFailover_told (p : Slot) (s : State) : Told s (oweFailover p s) :=
  have h : Told s (s.setFailover p (s.proj p).claimCount) := Told.of_touches (modProj_touches s p _)
  Told.ite (h.thenRaise _) h

theorem freeClaim_told (p : Slot) (n : Nat) (s : State) : Told s (freeClaim p n s) :=
  ((Told.of_touches (modNode_touches s n _)).trans (Told.of_touches (countFreed_touches p _))).trans
    (lowerFailover_told p _)

theorem emptyIfDone_told (p : Slot) (s : State) : Told s (emptyIfDone p s) :=
  have h : Told s ((recomputeGains (turnOff p (s.modProj p Projector.emptied))).raise (.fadeDone p true)) :=
    (((Told.of_touches (modProj_touches s p _)).trans (Told.of_touches (turnOff_touches p _))).trans
      (recomputeGains_told _)).thenRaise _
  Told.ite (Told.ite (h.trans (Told.reportYield _)) h) (Told.refl s)

theorem withdrawAt_told (p : Slot) (s : State) (n : Nat) : Told s (withdrawAt p s n) := by
  unfold withdrawAt
  split
  · exact Told.refl s
  · exact Told.ite (freeClaim_told p n s) (Told.of_touches (modNode_touches s n _))

theorem enterRetiring_told (p : Slot) (s : State) : Told s (enterRetiring p s) := by
  have hwithdrawn : Told s ((s.claimNodes p).foldl (withdrawAt p) (s.modProj p Projector.retired)) :=
    (Told.of_touches (modProj_touches s p _)).trans (Told.foldl (withdrawAt_told p) _ _)
  have hinvalid := hwithdrawn.trans (Told.of_touches (invalidateAll_touches .urgent (s.claimNodes p) _))
  exact (Told.ite (c := (s.proj p).state.contributing = true) (hinvalid.trans (recomputeGains_told _)) hinvalid).trans
    (emptyIfDone_told p _)

theorem enterFailed_told (p : Slot) (cause : FailCause) (s : State) : Told s (enterFailed p cause s) := by
  have h : Told s ((s.modProj p fun r => r.failedWith cause).raise (.projFault p cause)) :=
    (Told.of_touches (modProj_touches s p _)).thenRaise _
  exact Told.ite (((h.trans (oweFailover_told p _)).trans (Told.of_touches (invalidateClaimed_touches p _))).trans
    (recomputeGains_told _)) h

theorem failContributing_told (p : Slot) (cause : FailCause) (s : State) : Told s (failContributing p cause s) :=
  Told.ite (((oweFailover_told p s).thenRaise _).trans (enterRetiring_told p _)) (enterFailed_told p cause s)

theorem replaceCause_told (p : Slot) (cause : FailCause) (s : State) : Told s (replaceCause p cause s) :=
  (Told.of_touches (modProj_touches s p _)).thenRaise _

theorem takeFaultStart_told (p : Slot) (s : State) : Told s (takeFaultStart p s) := by
  unfold takeFaultStart
  split
  · exact Told.refl s
  · exact Told.ite (enterFailed_told p _ s) (Told.raise s _)
  · exact Told.ite (failContributing_told p _ s) (Told.raise s _)
  · exact Told.ite (failContributing_told p _ s) (Told.raise s _)
  · exact Told.ite (failContributing_told p _ s) (Told.raise s _)
  · exact replaceCause_told p _ s
  · exact Told.raise s _

theorem takeLockFault_told (p : Slot) (cause : FailCause) (s : State) : Told s (takeLockFault p cause s) := by
  unfold takeLockFault
  split
  · exact Told.refl s
  · exact enterFailed_told p cause s
  · exact failContributing_told p cause s
  · exact failContributing_told p cause s
  · exact failContributing_told p cause s
  · exact replaceCause_told p cause s
  · exact Told.raise s _

theorem recoveryCheck_told (p : Slot) (s : State) : Told s (recoveryCheck p s) :=
  Told.ite ((Told.of_touches (modProj_touches s p _)).thenRaise _) (Told.refl s)

theorem startFade_told (p : Slot) (st : ProjState) (f : Fade) (s : State) : Told s (startFade p st f s) := by
  have h : Told s (refreshClaimed p (s.modProj p fun r => { r with state := st, fade := some f })) :=
    (Told.of_touches (modProj_touches s p _)).trans (Told.of_touches (refreshClaimed_touches p _))
  exact Told.ite (h.trans (recomputeGains_told _)) h

theorem cutIn_told (p : Slot) (s : State) : Told s (cutIn p s) := by
  have h : Told s (refreshClaimed p (s.modProj p fun r => { r with state := .live, phi := 256, fade := none })) :=
    (Told.of_touches (modProj_touches s p _)).trans (Told.of_touches (refreshClaimed_touches p _))
  exact Told.ite (h.trans (recomputeGains_told _)) h

theorem cutOut_told (p : Slot) (s : State) : Told s (cutOut p s) :=
  ((Told.of_touches (modProj_touches s p _)).trans (Told.of_touches (invalidateClaimed_touches p _))).trans
    (recomputeGains_told _)

theorem completeFade_told (p : Slot) (f : Fade) (s : State) : Told s (completeFade p f s) := by
  have h : Told s ((s.modProj p fun r => { r with fade := none }).raise (.fadeDone p false)) :=
    (Told.of_touches (modProj_touches s p _)).thenRaise _
  exact Told.ite (h.trans (Told.of_touches (modProj_touches _ p _)))
    (Told.ite (h.trans (enterRetiring_told p _))
      ((h.trans (Told.of_touches (modProj_touches _ p _))).trans (recomputeGains_told _)))

theorem startSolve_told (s : State) : Told s (startSolve s) := Told.of_touches (startSolve_touches s)

theorem fadeStepSlot_told (s : State) (p : Slot) : Told s (fadeStepSlot s p) := by
  refine Told.trans (t := fadeStepOf p s) ?_ (startSolve_told _)
  unfold fadeStepOf
  split
  · exact Told.refl s
  · next f _ =>
    have h : Told s (refreshClaimed p (s.modProj p fun r =>
        { r with fade := some { f with elapsed := f.elapsed + 1 }, phi := { f with elapsed := f.elapsed + 1 }.phi })) :=
      (Told.of_touches (modProj_touches s p _)).trans (Told.of_touches (refreshClaimed_touches p _))
    exact Told.ite (h.trans (completeFade_told p _ _)) h

/-- FADE PROJECTOR IN by the φ from which it starts a fade, when it starts one (R78). -/
theorem fadeIn_eq (p : Slot) (n : Nat) (s : State) :
    fadeIn p n s = if (s.proj p).state = .live then some s else
      (fadeInFrom s p).map fun start => if n = 0 then cutIn p s else startFadeIn p start n s := by
  unfold fadeIn fadeInFrom
  cases (s.proj p).state <;> dsimp only <;> try rfl
  case parked => split <;> rfl
  case fadingOut => split <;> rfl

/-- FADE PROJECTOR OUT by the φ from which it starts a fade, when it starts one; a retire-fade stays one (R79). -/
theorem fadeOut_eq (p : Slot) (n : Nat) (s : State) :
    fadeOut p n s = if (s.proj p).state = .parked then some s else
      (fadeOutFrom s p).map fun start => if (s.proj p).state = .fadingOut ∧ s.retireFade p = true then
          (if n = 0 then enterRetiring p s else startFadeOut p start n true s)
        else if n = 0 then cutOut p s else startFadeOut p start n false s := by
  unfold fadeOut fadeOutFrom
  cases (s.proj p).state <;> dsimp only <;> try rfl
  case fadingOut => by_cases hr : s.retireFade p = true <;> simp [hr]

theorem fadeIn_told {p : Slot} {n : Nat} {s t : State} (h : fadeIn p n s = some t) : Told s t := by
  rw [fadeIn_eq] at h
  split at h
  · exact Option.some.inj h ▸ Told.refl s
  · obtain ⟨start, -, rfl⟩ := Option.map_eq_some_iff.mp h
    exact Told.ite (cutIn_told p s) (startFade_told p _ _ s)

theorem fadeOut_told {p : Slot} {n : Nat} {s t : State} (h : fadeOut p n s = some t) : Told s t := by
  rw [fadeOut_eq] at h
  split at h
  · exact Option.some.inj h ▸ Told.refl s
  · obtain ⟨start, -, rfl⟩ := Option.map_eq_some_iff.mp h
    exact Told.ite (Told.ite (enterRetiring_told p s) (startFade_told p _ _ s))
      (Told.ite (cutOut_told p s) (startFade_told p _ _ s))

theorem retire_told (p : Slot) (n : Nat) (s : State) : Told s (retire p n s) := by
  unfold retire
  split
  · exact enterRetiring_told p s
  · exact enterRetiring_told p s
  · exact Told.ite (enterRetiring_told p s) (startFade_told p _ _ s)
  · exact Told.ite (enterRetiring_told p s) (startFade_told p _ _ s)
  · exact Told.of_touches (modProj_touches s p _)
  · exact Told.refl s
  · exact Told.refl s

/-! ### Edit Control, the swap and the channels -/

theorem removeClaim_told (n : Nat) (p : Slot) (c : Claim) (s : State) : Told s (removeClaim n p c s).1 := by
  unfold removeClaim
  split
  · exact (freeClaim_told p n s).trans (Told.of_touches (openNode_touches n _))
  · exact (Told.of_touches (modNode_touches s n _)).trans (Told.of_touches (openNode_touches n _))

theorem editDropClaim_told (node : Option Nat) (slot : Nat) (s : State) : Told s (editDropClaim node slot s).1 := by
  unfold editDropClaim
  repeat' split
  all_goals first
    | exact removeClaim_told _ _ _ s
    | exact Told.refl s

theorem discardNode_told (s : State) (n : Nat) : Told s (discardNode s n) :=
  (Told.foldl (fun u p => freeClaim_told p n u) (s.node n).newSlots s).trans (Told.of_touches (modNode_touches _ n _))

theorem discardEdits_told (s : State) : Told s (discardEdits s) := Told.foldl discardNode_told s.openSet s

theorem setFloor_told (k : Nat) (s : State) : Told s (setFloor k s) := by
  unfold setFloor
  exact ((Told.of_touches (setGain_touches s { s.gain with floor := k })).trans
    (Told.of_touches (mapProj_touches _ _))).trans (recomputeGains_told _)

theorem reportSwap_told (n : Nat) (old new : Node) (leaves : Claim → Bool) (s : State) :
    Told s (reportSwap n old new leaves s) := by
  have hdark : Told s (if new.condition = .dark ∧ old.condition ≠ .dark then s.raise (.darkNode n) else s) :=
    Told.ite (Told.raise s _) (Told.refl s)
  exact (hdark.trans (Told.foldl (fun v p => lowerFailover_told p v) _ _)).trans
    (Told.foldl (fun u p => (Told.of_touches (countFreed_touches p u)).trans (emptyIfDone_told p _)) _ _)

theorem swapNode_told (ready : Bool) (s : State) (n : Nat) : Told s (swapNode ready s n) := by
  have hput (r : Node) (leaves : Claim → Bool) : Told s (reportSwap n (s.node n) r leaves (s.putNode n r)) :=
    (Told.of_touches (putNode_touches s n r)).trans (reportSwap_told _ _ _ _ _)
  exact Told.ite (Told.ite (hput _ _) (Told.refl s)) (Told.ite (hput _ _) (Told.refl s))

theorem finishGroup_told (members : Nat) (s : State) : Told s (finishGroup members s) :=
  ((Told.of_touches (dissolveGroup_touches s)).thenRaise _).trans (Told.of_touches (takeApplyWaiting_touches _))

theorem swapAll_told (s : State) : Told s (swapAll s) := by
  have h (ns : List Nat) : Told s (ns.foldl (swapNode (s.edit.groupState == .ready)) s) :=
    Told.foldl (swapNode_told _) ns s
  have hall := h nodeIndices
  unfold swapAll
  dsimp only
  generalize nodeIndices.foldl (swapNode (s.edit.groupState == .ready)) s = t at hall ⊢
  exact Told.ite ((hall.trans (finishGroup_told _ t)).trans (startSolve_told _)) hall

theorem clearMap_told (s : State) : Told s (clearMap s) := by
  have h : Told s (slots.foldl (fun u p => emptyIfDone p u) (emptyMap s)) :=
    (Told.of_touches (emptyMap_touches s)).trans (Told.foldl (fun u p => emptyIfDone_told p u) _ _)
  exact Told.ite (h.trans (Told.reportYield _)) h

theorem lockLoss_told (p : Slot) (s : State) : Told s (lockLoss p s) :=
  Told.ite (takeLockFault_told p _ s)
    (((takeLockFault_told p _ s).trans (Told.of_touches (stopStream_touches p _))).trans
      (Told.of_touches (beginSequence_touches p _)))

theorem attemptFails_told (p : Slot) (s : State) : Told s (attemptFails p s) :=
  Told.ite (Told.of_touches (modChan_touches s p _))
    (((Told.of_touches (modChan_touches s p _)).trans (takeLockFault_told p _ _)).thenRaise _)

theorem takeFall_told (p : Slot) (s : State) : Told s (takeFall p s) := by
  unfold takeFall
  split
  · exact (attemptFails_told p s).trans (startSolve_told _)
  · exact (lockLoss_told p s).trans (startSolve_told _)
  all_goals exact Told.refl s

theorem takeLevel_told (p : Slot) (level : ReadyLevel) (s : State) : Told s (takeLevel p level s) := by
  have h (f : Channel → Channel) : Told s (s.modChan p f) := Told.of_touches (modChan_touches s p f)
  unfold takeLevel
  dsimp only
  split
  · split
    · exact (h _).trans (takeFaultStart_told p _)
    · exact (h _).trans (recoveryCheck_told p _)
  · exact h _

theorem restartOutput_told {p : Slot} {s t : State} (h : restartOutput p s = some t) : Told s t := by
  unfold restartOutput at h
  split at h
  · exact Option.some.inj h ▸ Told.of_touches (beginSequence_touches p s)
  · exact Option.some.inj h ▸ lockLoss_told p s
  all_goals exact absurd h (by simp)

theorem finishSolve_told (f : Flight) (s : State) : Told s (finishSolve f s) := by
  have h (g : Node → Node) : Told s ((s.setSolver { s.solver with flight := none }).modNode f.node g) :=
    (Told.of_touches (setSolver_touches s _)).trans (Told.of_touches (modNode_touches _ _ g))
  have hgained : Told s (if (s.node f.node).groupMark && !(s.node f.node).nextValid then
      memberGained ((s.setSolver { s.solver with flight := none }).modNode f.node (Node.stored f))
      else (s.setSolver { s.solver with flight := none }).modNode f.node (Node.stored f)) :=
    Told.ite ((h _).trans (Told.of_touches (memberGained_touches _))) (h _)
  exact Told.ite (h _) (Told.ite (hgained.thenRaise _) hgained)

theorem correctClaim_told (n : Nat) (p : Slot) (c : Claim) (du dv : Int) (s : State) :
    Told s (correctClaim n p c du dv s) := by
  have h : Told s (hardInvalidate .normal n
      (s.modNode n fun r => r.modClaim p fun d => { d with nextTrim := some (c.drifted du dv) })) :=
    (Told.of_touches (modNode_touches s n _)).trans (Told.of_touches (hardInvalidate_touches _ _ _))
  exact (Told.ite (c := c.driftSaturates du dv = true) (h.thenRaise (.trimLimit n)) h).trans (startSolve_told _)

theorem takeDiscard_told (flags : ErrorSet) (s : State) : Told s (takeDiscard flags s) := by
  unfold takeDiscard
  split <;> exact (Told.of_touches (setAlign_touches s _)).thenRaise _

theorem offerReport_told (r : Report) (s : State) : Told s (offerReport r s) :=
  Told.ite (Told.of_touches (setAlign_touches s _)) (takeDiscard_told _ s)

theorem advanceReport_told (r : PartialReport) (s : State) : Told s (advanceReport r s) :=
  Told.ite (Told.of_touches (setAlign_touches s _)) (Told.ite (takeDiscard_told _ s) (offerReport_told _ s))

theorem assemble_told (e : FifoEntry) (s : State) : Told s (assemble e s) := by
  unfold assemble
  split
  · exact Told.ite (Told.of_touches (setAlign_touches s _)) (takeDiscard_told _ s)
  · refine Told.ite (takeDiscard_told _ s) ?_
    split
    · exact advanceReport_told _ s
    · exact takeDiscard_told _ s
  · exact advanceReport_told _ s

theorem runReport_told {apply : Report → State → Option (State × ReportOutcome)}
    (h : ∀ r t u o, apply r t = some (u, o) → Told t u) (s : State) : Told s (runReport apply s) := by
  have halign (t : State) (a : AlignPort) : Told t (t.setAlign a) := Told.of_touches (setAlign_touches t a)
  unfold runReport
  split
  · exact Told.refl s
  · split
    · exact Told.refl s
    · next e => exact ((halign s _).trans (h _ _ _ _ e)).trans (halign _ _)

/-! ### The commands -/

/-- The run of a request that concerns neither the loader nor the Attention Unit itself. -/
theorem withSlot_told (b : Nat) (s : State) {run : Slot → State × Answer} (h : ∀ p, Told s (run p).1) :
    Told s (withSlot b s run).1 := by
  unfold withSlot
  split
  · exact Told.refl s
  · exact h _

/-- The requests of the Mesh Loader and of the Attention Unit. -/
def ownsLoaderOrEvents : Instr → Bool
  | .loadMesh | .stopLoad | .resumeLoad | .resetLoader | .clearEvents | .setEventMask => true
  | _ => false

theorem requestOf_told {c : Instr} {code : Nat} {run : Request → State → State × Answer}
    (h : requestOf c = some (code, run)) (hc : ownsLoaderOrEvents c = false) (r : Request) (s : State) :
    Told s (run r s).1 := by
  have hframe := requestOf_touches h r s
  cases c <;> cases h
  case clearMap.refl => unfold clearMapRequest; dsimp only; exact clearMap_told s
  case dropClaim.refl =>
    have hdrop := editDropClaim_told (resolveNode (byteAt r.fields 0) (byteAt r.fields 1)) (byteAt r.fields 2) s
    unfold dropClaimRequest
    split <;> (next e => rw [e] at hdrop; exact hdrop)
  case discardEdits.refl => unfold discardEditsRequest; dsimp only; exact discardEdits_told s
  case fadeProjector.refl =>
    refine withSlot_told _ s fun p => ?_
    dsimp only
    split
    · exact Told.refl s
    split
    · exact Told.refl s
    · next e =>
      split at e
      · exact (fadeIn_told e).trans (startSolve_told _)
      · exact (fadeOut_told e).trans (startSolve_told _)
  case retireProjector.refl =>
    exact withSlot_told _ s fun p => by
      split
      · exact Told.refl s
      · exact (retire_told p _ s).trans (startSolve_told _)
  case setGainFloor.refl =>
    unfold setGainFloorRequest; dsimp only
    exact setFloor_told _ s
  case restartOutput.refl =>
    exact withSlot_told _ s fun p => by
      split
      · exact Told.refl s
      split
      · exact Told.refl s
      · next e => exact (restartOutput_told e).trans (startSolve_told _)
  all_goals first
    | exact Told.of_touches hframe
    | exact absurd hc (by decide)

/-- A step of the Request Executor is what its request's run is, told of. -/
theorem runRequest_told {code : Nat} {run : Request → State → State × Answer} (h : ∀ r t, Told t (run r t).1) (s : State) :
    Told s (runRequest code run s) := by
  have hport (t : State) (p : ControlPort) : Told t (t.setPort p) := Told.of_touches (setPort_touches t p)
  unfold runRequest
  split
  · exact Told.refl s
  · next e =>
    have htaken := takeRequest_keeps (P := Told s) (fun _ _ ht => ht.trans (hport _ _)) e (Told.refl s)
    repeat' split
    · exact Told.refl s
    · exact (htaken.trans (h _ _)).trans (hport _ _)
    · exact htaken.trans (hport _ _)
    · exact Told.refl s

/-- The commands that change the loader or the Attention Unit otherwise than by the yield report and by raisings. -/
def beyondTold : Instr → Bool
  | .resetLine | .resetDevice | .quotaRenewal | .stepReport | .fetchCompletion _ _ => true
  | c => ownsLoaderOrEvents c

/-- Every other command reaches them by the yield report and by raisings alone. -/
theorem exec_told {c : Instr} (hc : beyondTold c = false) {s t : State} (e : exec c s = .next t) : Told s t := by
  by_cases hreq : ∃ k, requestOf c = some k
  · obtain ⟨⟨code, run⟩, hk⟩ := hreq
    have hown : ownsLoaderOrEvents c = false := by cases c <;> first | rfl | exact absurd hc (by decide)
    rcases exec_of_requestOf hk s with hs | hs <;> obtain rfl := Host.Outcome.next.inj (hs.symm.trans e)
    · exact runRequest_told (requestOf_told hk hown) s
    · exact Told.refl s
  have hport (u : State) (p : ControlPort) : Told u (u.setPort p) := Told.of_touches (setPort_touches u p)
  have hframe := exec_touches c s t e
  cases c
  case unitHeader =>
    obtain rfl := Host.Outcome.next.inj e
    refine Told.ite ?_ (Told.of_touches (disregardedByte_touches s))
    unfold takeHeader
    exact Told.ite (hport s _) (Told.ite (hport s _) (Told.ite (hport s _)
      (((hport s _).trans (hport _ _)).thenRaise _)))
  case requestLength =>
    obtain rfl := Host.Outcome.next.inj e
    split
    · exact Told.ite (hport s _) (((hport s _).trans (hport _ _)).thenRaise _)
    · exact Told.of_touches (disregardedByte_touches s)
  case requestPayloadByte =>
    obtain rfl := Host.Outcome.next.inj e
    split
    · unfold takePayload
      refine Told.ite (hport s _) ?_
      split
      · exact (hport s _).trans (Told.ite (hport _ _) (Told.raise _ _))
      · exact hport s _
    · exact Told.of_touches (disregardedByte_touches s)
  case selectRelease =>
    change execSelectRelease s = _ at e
    unfold execSelectRelease at e
    obtain rfl := Host.Outcome.next.inj e
    have hreleased := hport s { s.port with txn := .noSelect, partialReq := none, fetch := none, statusByte := none }
    split
    · exact Told.refl s
    · exact hreleased.thenRaise _
    · exact hreleased.thenRaise _
    all_goals exact hreleased
  case genlockPulse =>
    have htimer (u : FrameTimer) : Told s (s.setTimer u) := Told.of_touches (setTimer_touches s u)
    have hsearch (now : Nat) : Told s (searchPulse now s) := by
      unfold searchPulse
      split
      · exact htimer _
      · exact Told.ite (htimer _) (htimer _)
      · exact Told.ite (Told.ite (((htimer _).trans (Told.of_touches (boundary_touches _))).thenRaise _) (htimer _))
          (htimer _)
    obtain rfl := Host.Outcome.next.inj e
    split
    · exact Told.of_touches (followPulse_touches _ s)
    · exact hsearch _
    · exact hsearch _
  case lossWatchdogExpiry =>
    obtain rfl := Host.Outcome.next.inj e
    split
    · exact Told.refl s
    · exact ((Told.of_touches (setTimer_touches s _)).trans (Told.of_touches (boundary_touches _))).thenRaise _
  case swap =>
    obtain rfl := Host.Outcome.next.inj e
    split
    · exact Told.refl s
    · exact (Told.of_touches (setOwed_touches s _)).trans (swapAll_told _)
  case fadeStep =>
    obtain rfl := Host.Outcome.next.inj e
    split
    · exact Told.refl s
    · exact (Told.of_touches (setOwed_touches s _)).trans (Told.foldl fadeStepSlot_told _ _)
  case solveCompletion =>
    obtain rfl := Host.Outcome.next.inj e
    split
    · exact Told.refl s
    · exact (finishSolve_told _ s).trans (startSolve_told _)
  case lockIndicationFall =>
    obtain rfl := Host.Outcome.next.inj e
    exact Told.ite (takeFall_told _ s) (Told.refl s)
  case lockTimeout =>
    obtain rfl := Host.Outcome.next.inj e
    exact Told.ite ((attemptFails_told _ s).trans (startSolve_told _)) (Told.refl s)
  case windowCompletion =>
    obtain rfl := Host.Outcome.next.inj e
    have hchan (p : Slot) (u : State) (f : Channel → Channel) : Told u (u.modChan p f) :=
      Told.of_touches (modChan_touches u p f)
    refine Told.ite (Told.ite ?_ ?_) (Told.refl s)
    · exact ((hchan _ _ _).trans (hchan _ _ _)).trans (recoveryCheck_told _ _)
    · exact ((hchan _ _ _).trans (attemptFails_told _ _)).trans (startSolve_told _)
  case debounceExpiry =>
    obtain rfl := Host.Outcome.next.inj e
    split
    · exact Told.refl s
    · exact (takeLevel_told _ _ s).trans (startSolve_told _)
  case byteCompletion =>
    have halign (a : AlignPort) : Told s (s.setAlign a) := Told.of_touches (setAlign_touches s a)
    change execByteCompletion _ _ _ s = _ at e
    unfold execByteCompletion at e
    obtain rfl := Host.Outcome.next.inj e
    split
    · refine Told.ite (Told.ite (takeDiscard_told _ s) (Told.ite (halign _) ?_)) (Told.refl s)
      unfold loseByte
      dsimp only
      split <;> exact (halign _).thenRaise _
    · exact halign _
    all_goals exact Told.refl s
  case lineIdle =>
    have halign (a : AlignPort) : Told s (s.setAlign a) := Told.of_touches (setAlign_touches s a)
    obtain rfl := Host.Outcome.next.inj e
    split
    · exact halign _
    · exact (halign _).thenRaise _
    all_goals exact Told.refl s
  case lineBreak =>
    have halign (a : AlignPort) : Told s (s.setAlign a) := Told.of_touches (setAlign_touches s a)
    obtain rfl := Host.Outcome.next.inj e
    split
    · exact (halign _).thenRaise _
    · exact (halign _).thenRaise _
    all_goals exact Told.refl s
  case assemblerTake =>
    obtain rfl := Host.Outcome.next.inj e
    split
    · exact (Told.of_touches (setAlign_touches s _)).trans (assemble_told _ _)
    all_goals exact Told.refl s
  case driftReport =>
    obtain rfl := Host.Outcome.next.inj e
    refine runReport_told (fun r t u o e => ?_) s
    cases r <;> simp only [Option.some.injEq, reduceCtorEq] at e
    have hfst := congrArg Prod.fst e
    dsimp only at hfst
    rw [← hfst]
    unfold applyDrift
    split
    · exact Told.refl t
    · exact correctClaim_told _ _ _ _ _ t
  case lumaReport =>
    obtain rfl := Host.Outcome.next.inj e
    refine runReport_told (fun r t u o e => ?_) s
    cases r <;> simp only [Option.some.injEq, reduceCtorEq] at e
    have hfst := congrArg Prod.fst e
    dsimp only at hfst
    rw [← hfst]
    exact applyLuma_told _ _ t
  all_goals first
    | exact Told.of_touches hframe
    | exact absurd ⟨_, rfl⟩ hreq
    | cases hc

/-! ### The Frame Timer (R141) -/

namespace FrameTimer.Agrees

variable {t : FrameTimer}

/-- The pulse run and the counters are free while the timer counts out frames by itself. -/
theorem counting (hlow : 8000 ≤ t.period) (hhigh : t.period ≤ 50000) (hstate : t.state ≠ .genlocked)
    (hexpiry : t.expiry.isSome = true) (hmeasured : t.measured = none) (hpulse : t.lastPulse = none)
    (hwatchdog : t.watchdog = none) (hrun : t.run.length ≤ 2) : t.Agrees := by
  refine ⟨hlow, hhigh, ?_⟩
  cases hs : t.state
  case genlocked => exact absurd hs hstate
  all_goals exact ⟨hexpiry, hmeasured, hpulse, hwatchdog, hrun⟩

theorem of_counting (h : t.Agrees) (hstate : t.state ≠ .genlocked) :
    8000 ≤ t.period ∧ t.period ≤ 50000 ∧ t.expiry.isSome = true ∧ t.measured = none ∧ t.lastPulse = none ∧
      t.watchdog = none ∧ t.run.length ≤ 2 := by
  obtain ⟨hlow, hhigh, hparts⟩ := h
  cases hs : t.state
  case genlocked => exact absurd hs hstate
  all_goals rw [hs] at hparts; exact ⟨hlow, hhigh, hparts⟩

/-- The parts of a genlocked timer, with the watchdog where the last pulse and the measured period put it. -/
theorem genlocked (hlow : 8000 ≤ t.period) (hhigh : t.period ≤ 50000) (hstate : t.state = .genlocked)
    (hexpiry : t.expiry = none) (hrun : t.run = []) {now measured : Nat} (hm : t.measured = some measured)
    (hm8 : 8000 ≤ measured) (hm50 : measured ≤ 50000) (hpulse : t.lastPulse = some now)
    (hwatchdog : t.watchdog = some (watchdogAt now measured)) : t.Agrees := by
  refine ⟨hlow, hhigh, ?_⟩
  rw [hstate]
  exact ⟨hexpiry, hrun, measured, now, hm, hm8, hm50, hpulse, hwatchdog⟩

theorem of_genlocked (h : t.Agrees) (hstate : t.state = .genlocked) :
    8000 ≤ t.period ∧ t.period ≤ 50000 ∧ t.expiry = none ∧ t.run = [] := by
  obtain ⟨hlow, hhigh, hparts⟩ := h
  rw [hstate] at hparts
  exact ⟨hlow, hhigh, hparts.1, hparts.2.1⟩

end FrameTimer.Agrees

theorem searchPulse_agrees {s : State} (h : s.timer.Agrees) (hstate : s.timer.state ≠ .genlocked) (now : Nat) :
    (searchPulse now s).timer.Agrees := by
  obtain ⟨hlow, hhigh, hexpiry, hmeasured, hpulse, hwatchdog, -⟩ := h.of_counting hstate
  have hrun (run : List Nat) (hlen : run.length ≤ 2) : (s.setRun run).timer.Agrees :=
    FrameTimer.Agrees.counting (t := { s.timer with run := run }) hlow hhigh hstate hexpiry hmeasured hpulse hwatchdog hlen
  unfold searchPulse
  split
  · exact hrun _ (by simp)
  · split <;> exact hrun _ (by simp)
  · split
    · next hfits =>
      split
      · have hspacing := of_decide_eq_true hfits
        exact FrameTimer.Agrees.genlocked (t := { s.timer.acquired now _ with counter := _ }) hlow hhigh rfl rfl rfl rfl
          hspacing.1 hspacing.2 rfl rfl
      · exact hrun _ (by simp)
    · exact hrun _ (by simp)

theorem followPulse_agrees {s : State} (h : s.timer.Agrees) (hstate : s.timer.state = .genlocked) (now : Nat) :
    (followPulse now s).timer.Agrees := by
  obtain ⟨hlow, hhigh, hexpiry, hrun⟩ := h.of_genlocked hstate
  unfold followPulse
  dsimp only
  split
  · exact h
  · next hspacing =>
    simp only [Config.minPeriod, Nat.not_lt] at hspacing
    exact FrameTimer.Agrees.genlocked (t := { s.timer.followed now _ with counter := _ }) hlow hhigh hstate hexpiry hrun rfl
      (by simp only [Config.maxPeriod]; omega) (by simp only [Config.maxPeriod]; omega) rfl rfl

theorem exec_timer_agrees (c : Instr) {s t : State} (h : s.timer.Agrees) (e : exec c s = .next t) : t.timer.Agrees := by
  have hreset : State.reset.timer.Agrees := FrameTimer.Agrees.counting (by decide) (by decide) (by decide) rfl rfl rfl rfl
    (Nat.zero_le _)
  have hframe := exec_touches c s t e
  cases c
  case resetLine => obtain rfl := Host.Outcome.next.inj e; exact hreset
  case resetDevice =>
    obtain rfl := Host.Outcome.next.inj e
    exact resetDevice_keeps (P := fun s => s.timer.Agrees) (fun _ _ h => h) h hreset
  case setFramePeriod =>
    obtain rfl := Host.Outcome.next.inj e
    refine runRequest_keeps (P := fun s => s.timer.Agrees) (fun _ _ h => h) (fun r t ht => ?_) h
    obtain ⟨-, -, hparts⟩ := ht
    exact ⟨by simp [setFramePeriodRequest, clamp, Config.minPeriod],
      by simp [setFramePeriodRequest, clamp, Config.minPeriod, Config.maxPeriod], hparts⟩
  case periodTimerExpiry =>
    obtain rfl := Host.Outcome.next.inj e
    split
    · exact h
    · next hexpiry =>
      have hstate : s.timer.state ≠ .genlocked := fun hs => by
        obtain ⟨-, -, hnone, -⟩ := h.of_genlocked hs
        rw [hnone] at hexpiry; cases hexpiry
      obtain ⟨hlow, hhigh, -, hparts⟩ := h.of_counting hstate
      obtain ⟨hmeasured, hpulse, hwatchdog, hrun⟩ := hparts
      exact FrameTimer.Agrees.counting (t := { s.timer with expiry := some _, counter := _ }) hlow hhigh hstate rfl hmeasured
        hpulse hwatchdog hrun
  case genlockPulse =>
    obtain rfl := Host.Outcome.next.inj e
    split
    · next hs => exact followPulse_agrees h hs _
    · next hs => exact searchPulse_agrees h (by simp [hs]) _
    · next hs => exact searchPulse_agrees h (by simp [hs]) _
  case lossWatchdogExpiry =>
    obtain rfl := Host.Outcome.next.inj e
    split
    · exact h
    · obtain ⟨hlow, hhigh, -⟩ := h
      exact FrameTimer.Agrees.counting (t := { s.timer.lost _ with counter := _ }) hlow hhigh (by simp [FrameTimer.lost]) rfl
        rfl rfl rfl (Nat.zero_le _)
  case rasterFrameStart =>
    obtain rfl := Host.Outcome.next.inj e
    split
    · exact h
    · exact h
  all_goals exact hframe.timer ▸ h

/-! ### The Attention Unit (R192) -/

/-- A raising keeps every class's detail with its status. -/
theorem raise_attentionAgrees {s : State} (h : s.AttentionAgrees) (e : Event) : (s.raise e).AttentionAgrees := by
  intro k
  obtain ⟨hdetail, hoverflow, hcls⟩ := h k
  rw [eventRecord_raise]
  split
  · next hk =>
    cases hs : (s.eventRecord k).status
    · rw [take_of_clear hs]
      exact ⟨by simp, by simp, fun e' he' => Option.some.inj he' ▸ hk.symm⟩
    · rw [take_of_set hs]
      exact ⟨hdetail, fun _ => hs, hcls⟩
  · exact ⟨hdetail, hoverflow, hcls⟩

theorem attentionAgrees_congr {s t : State} (e : t.attention = s.attention) (h : s.AttentionAgrees) :
    t.AttentionAgrees := fun k => by
  have hk : t.eventRecord k = s.eventRecord k := by rw [State.eventRecord, e]; rfl
  rw [hk]; exact h k

theorem Told.attentionAgrees {s t : State} (e : Told s t) (h : s.AttentionAgrees) : t.AttentionAgrees :=
  e.keeps (fun _ _ _ ha => attentionAgrees_congr ha) (fun _ e hs => raise_attentionAgrees hs e)
    (fun s => attentionAgrees_congr (reportYield_touches s).attention) h

/-- A change of class records that keeps each detail with its status. -/
theorem mapEvents_attentionAgrees {s : State} (h : s.AttentionAgrees) (f : Nat → EventRecord → EventRecord)
    (hf : ∀ n r, f n r = { r with mask := (f n r).mask } ∨ f n r = r.cleared) : (s.mapEvents f).AttentionAgrees := by
  intro k
  rw [eventRecord_mapEvents]
  rcases hf k.val (s.eventRecord k) with hk | hk <;> rw [hk]
  · exact h k
  · exact ⟨by simp [EventRecord.cleared], by simp [EventRecord.cleared], by simp [EventRecord.cleared]⟩

/-- The end of a fetch reaches the Attention Unit by raisings (R177, R178). -/
theorem completeFetch_attentionAgrees (d : Descriptor) (result : FetchResult) {s : State} (h : s.AttentionAgrees) :
    (completeFetch d result s).AttentionAgrees := by
  have hfault (o : LoadOutcome) (r : FaultReason) : (endFaulted o r s).AttentionAgrees := raise_attentionAgrees h _
  have hdone (o : LoadOutcome) {u : State} (hu : u.AttentionAgrees) : (endDone o u).AttentionAgrees := by
    refine raise_attentionAgrees ?_ _
    split
    · exact attentionAgrees_congr (applyAtEnd_touches _).attention hu
    · exact hu
  have hstored {u : State} (hu : u.AttentionAgrees) : (recordStored d u).AttentionAgrees := by
    unfold recordStored
    dsimp only
    split
    · exact hdone _ hu
    · exact hu
  unfold completeFetch takeRecord
  split
  · split
    · next slot ring sector q pin _ =>
      have hset := editSetClaim_touches (resolveNode ring sector) slot q pin s
      split
      · next e => rw [e] at hset; exact hstored (attentionAgrees_congr hset.attention h)
      · exact hfault _ _
    · next slot ring sector _ =>
      have hdrop := editDropClaim_told (resolveNode ring sector) slot s
      split
      · next e => rw [e] at hdrop; exact hstored (hdrop.attentionAgrees h)
      · exact hfault _ _
    · split
      · exact hdone _ h
      · exact hstored h
    · exact hfault _ _
  · exact hfault _ _
  · exact hfault _ _

theorem exec_attentionAgrees (c : Instr) {s t : State} (h : s.AttentionAgrees) (e : exec c s = .next t) :
    t.AttentionAgrees := by
  have hreset (u : State) : (afterReset u).AttentionAgrees := fun k => by
    have hk : (afterReset u).eventRecord k = EventRecord.initial := by
      simp [State.eventRecord, afterReset, State.reset, Vector.get_eq_getElem]
    rw [hk]
    exact ⟨by simp [EventRecord.initial], by simp [EventRecord.initial], by simp [EventRecord.initial]⟩
  have hframe := exec_touches c s t e
  cases hc : beyondTold c
  · exact (exec_told hc e).attentionAgrees h
  cases c
  case resetLine => obtain rfl := Host.Outcome.next.inj e; exact hreset s
  case resetDevice =>
    obtain rfl := Host.Outcome.next.inj e
    exact resetDevice_keeps (P := State.AttentionAgrees) (fun _ _ h => h) h (hreset s)
  case clearEvents =>
    obtain rfl := Host.Outcome.next.inj e
    refine runRequest_keeps (P := State.AttentionAgrees) (fun _ _ h => h) (fun r t ht => ?_) h
    refine mapEvents_attentionAgrees ht _ fun n r => ?_
    split
    · exact Or.inr rfl
    · exact Or.inl rfl
  case setEventMask =>
    obtain rfl := Host.Outcome.next.inj e
    exact runRequest_keeps (P := State.AttentionAgrees) (fun _ _ h => h)
      (fun r t ht => mapEvents_attentionAgrees ht _ fun n r => Or.inl rfl) h
  case fetchCompletion =>
    obtain rfl := Host.Outcome.next.inj e
    split
    · split
      · exact attentionAgrees_congr (startSolve_touches _).attention (completeFetch_attentionAgrees _ _ h)
      · exact h
    · exact h
  all_goals first
    | exact attentionAgrees_congr hframe.attention h
    | cases hc

/-! ### The Mesh Loader (R168) -/

namespace Loader

variable {l : Loader}

/-- A loader RUNNING between two fetches: what a fetch decision is made of (R170). -/
def Ready (l : Loader) : Prop :=
  l.state = .running ∧ l.reason = none ∧ l.fetch = none ∧ l.descriptor.isSome = true ∧ l.outcome = .none ∧
    l.fault = none ∧ l.quotaUsed ≤ 4095 ∧ l.nextAddress < 16777216

theorem waiting_of_waitsFor {r : WaitReason} (h : l.waitsFor r = true) : l.state = .waiting := by
  simp only [waitsFor, Bool.and_eq_true, beq_iff_eq] at h
  exact h.1

/-- A load that has no outcome yet has no fault record, and in HELD and WAITING no fetch is in flight (R168). -/
theorem Agrees.resumed_ready (h : l.Agrees) (hstate : l.state = .held ∨ l.state = .waiting) : l.resumed.Ready := by
  obtain ⟨hfetch, -, -, hload, hfault, hquota, haddress⟩ := h
  have hidle : l.state ≠ .idle := by rcases hstate with e | e <;> simp [e]
  have hrunning : l.state ≠ .running := by rcases hstate with e | e <;> simp [e]
  obtain ⟨hdescriptor, houtcome⟩ := hload hidle
  refine ⟨rfl, rfl, ?_, hdescriptor, houtcome, ?_, hquota, haddress⟩
  · simpa [resumed, hrunning] using hfetch
  · simpa [resumed, houtcome] using hfault

/-- Between two fetches of a load whose fetch has just been answered. -/
theorem Agrees.counted_ready (h : l.Agrees) (hstate : l.state = .running) (size : Nat) : (l.counted size).Ready := by
  obtain ⟨-, -, hreason, hload, hfault, hquota, -⟩ := h
  obtain ⟨hdescriptor, houtcome⟩ := hload (by simp [hstate])
  refine ⟨hstate, ?_, rfl, hdescriptor, houtcome, ?_, hquota, Nat.mod_lt _ (by decide)⟩
  · simpa [counted, hstate] using hreason
  · simpa [counted, houtcome] using hfault

/-- Whatever a fetch decision decides, the parts fit the state (R170). -/
theorem Ready.decide_agrees (h : l.Ready) (credit owed : Bool) : (l.decide credit owed).Agrees := by
  obtain ⟨hstate, hreason, hfetch, hdescriptor, houtcome, hfault, hquota, haddress⟩ := h
  have hwait (r : WaitReason) (hpending : l.stopPending = false) : (l.wait r).Agrees := by
    simp [Agrees, wait, hfetch, hpending, hdescriptor, houtcome, hfault, hquota, haddress]
  unfold decide
  split
  · next hd => simp [hd] at hdescriptor
  · next d hd =>
    by_cases hstop : l.stopPending = true
    · rw [if_pos hstop]
      simp [Agrees, hfetch, hd, houtcome, hfault, hquota, haddress]
    · have hclear : l.stopPending = false := by simpa using hstop
      rw [if_neg hstop]
      split
      · exact hwait .yield hclear
      split
      · exact hwait .quota hclear
      split
      · exact hwait .step hclear
      simp [Agrees, beginFetch, hclear, hd, houtcome, hfault, haddress, Config.quotaMax]

/-- An ended load, whose outcome is a fault exactly when it has a fault record (R177, R178). -/
theorem ended_agrees (hquota : l.quotaUsed ≤ 4095) (haddress : l.nextAddress < 16777216) {o : LoadOutcome}
    {fault : Option (Nat × FaultReason)} (ho : fault.isSome = true ↔ o = .faultFetch ∨ o = .faultStore) :
    Agrees { l.ended o with fault := fault } := by
  simp [Agrees, ended, hquota, haddress, ho]

end Loader

theorem releaseLoader_agrees {s : State} (h : s.loader.Agrees) (hstate : s.loader.state = .held ∨ s.loader.state = .waiting)
    (credit : Bool) : (releaseLoader credit s).loader.Agrees :=
  (h.resumed_ready hstate).decide_agrees _ _

theorem reportYield_loaderAgrees {s : State} (h : s.loader.Agrees) : (reportYield s).loader.Agrees := by
  unfold reportYield
  split
  · next hyield => exact releaseLoader_agrees h (Or.inr (Loader.waiting_of_waitsFor hyield.2)) _
  · exact h

theorem Told.loaderAgrees {s t : State} (e : Told s t) (h : s.loader.Agrees) : t.loader.Agrees :=
  e.keeps (P := fun s => s.loader.Agrees) (fun _ _ hl _ hs => hl ▸ hs) (fun _ _ hs => hs)
    (fun _ hs => reportYield_loaderAgrees hs) h

/-- The yield report ignores a RUNNING loader (R173). -/
theorem Told.loader_of_running {s t : State} (e : Told s t) (h : s.loader.state = .running) : t.loader = s.loader :=
  e.keeps (P := fun u => u.loader = s.loader) (fun _ _ hl _ hu => hl.trans hu) (fun _ _ hu => hu)
    (fun u hu => by
      have hw : u.loader.waitsFor .yield = false := by simp [hu, Loader.waitsFor, h]
      rw [Machine.reportYield, if_neg (by simp [hw])]; exact hu) rfl

theorem applyAtEnd_loaderAgrees {s : State} (h : s.loader.Agrees) : (applyAtEnd s).loader.Agrees := by
  have hloader := (applyEdits_touches s).loader
  unfold applyAtEnd
  split <;> next e => rw [e] at hloader; exact (hloader ▸ h : Loader.Agrees _)

theorem endDone_loaderAgrees {s : State} (hquota : s.loader.quotaUsed ≤ 4095) (haddress : s.loader.nextAddress < 16777216)
    (hfault : s.loader.fault = none) {o : LoadOutcome} (ho : o ≠ .faultFetch ∧ o ≠ .faultStore) :
    (endDone o s).loader.Agrees := by
  have hended : (s.loader.ended o).Agrees :=
    Loader.ended_agrees (l := s.loader) (fault := s.loader.fault) hquota haddress (by simp [hfault, ho])
  unfold endDone
  dsimp only
  rw [State.raise_loader]
  split
  · exact applyAtEnd_loaderAgrees hended
  · exact hended

theorem recordStored_loaderAgrees {s : State} (h : s.loader.Agrees) (hstate : s.loader.state = .running)
    (d : Descriptor) : (recordStored d s).loader.Agrees := by
  have hready := h.counted_ready hstate d.format.size
  unfold recordStored
  dsimp only
  split
  · obtain ⟨-, -, -, -, -, hfault, hquota, haddress⟩ := hready
    exact endDone_loaderAgrees (s := s.setLoader (s.loader.counted d.format.size)) hquota haddress hfault (by simp)
  · exact hready.decide_agrees _ _

theorem completeFetch_loaderAgrees {s : State} (h : s.loader.Agrees) (hstate : s.loader.state = .running)
    (d : Descriptor) (result : FetchResult) : (completeFetch d result s).loader.Agrees := by
  obtain ⟨-, -, -, hload, hfaulted, hquota, haddress⟩ := id h
  have hfault (o : LoadOutcome) (ho : o = .faultFetch ∨ o = .faultStore) (r : FaultReason) :
      (endFaulted o r s).loader.Agrees :=
    Loader.ended_agrees (l := s.loader) (fault := some (s.loader.stored, r)) hquota haddress (by simp [ho])
  have hstored {u : State} (hu : u.loader = s.loader) : (recordStored d u).loader.Agrees :=
    recordStored_loaderAgrees (hu ▸ h) (hu ▸ hstate) d
  unfold completeFetch takeRecord
  split
  · split
    · next slot ring sector q pin _ =>
      have hset := editSetClaim_touches (resolveNode ring sector) slot q pin s
      split
      · next e => rw [e] at hset; exact hstored hset.loader
      · exact hfault _ (by simp) _
    · next slot ring sector _ =>
      have hdrop := editDropClaim_told (resolveNode ring sector) slot s
      split
      · next e => rw [e] at hdrop; exact hstored (hdrop.loader_of_running hstate)
      · exact hfault _ (by simp) _
    · split
      · exact endDone_loaderAgrees hquota haddress (by simpa [(hload (by simp [hstate])).2] using hfaulted) (by simp)
      · exact hstored rfl
    · exact hfault _ (by simp) _
  · exact hfault _ (by simp) _
  · exact hfault _ (by simp) _

theorem tripleAt_lt (bs : List Byte) (i : Nat) : tripleAt bs i < 16777216 := by
  simp only [tripleAt, byteAt]
  omega

theorem loadMeshRequest_loaderAgrees (r : Request) {s : State} (h : s.loader.Agrees) :
    (loadMeshRequest r s).1.loader.Agrees := by
  unfold loadMeshRequest
  split
  · next hidle =>
    have hfetch : s.loader.fetch = none := by simpa [hidle] using h.1
    refine Loader.Ready.decide_agrees ?_ _ _
    exact ⟨rfl, rfl, hfetch, rfl, rfl, rfl, Nat.zero_le _, tripleAt_lt _ _⟩
  · exact h

theorem stopLoadRequest_loaderAgrees (r : Request) {s : State} (h : s.loader.Agrees) :
    (stopLoadRequest r s).1.loader.Agrees := by
  obtain ⟨hfetch, hstop, hreason, hload, hrest⟩ := id h
  unfold stopLoadRequest Loader.stop
  cases hs : s.loader.state
  case idle => exact h
  case running => simp_all [Loader.Agrees]
  case held => exact h
  case waiting => simp_all [Loader.Agrees]

theorem resumeLoadRequest_loaderAgrees (r : Request) {s : State} (h : s.loader.Agrees) :
    (resumeLoadRequest r s).1.loader.Agrees := by
  obtain ⟨hfetch, hstop, hrest⟩ := id h
  unfold resumeLoadRequest resumeLoad
  cases hs : s.loader.state
  case idle => exact h
  case running => exact ⟨hfetch, fun hp => absurd hp (by simp), hrest⟩
  case held => exact releaseLoader_agrees h (Or.inl hs) _
  case waiting => exact h

theorem renewQuota_loaderAgrees {s : State} (h : s.loader.Agrees) : (renewQuota s).loader.Agrees := by
  obtain ⟨hfetch, hstop, hreason, hload, hfault, -, haddress⟩ := h
  have hrenewed : ({ s.loader with quotaUsed := 0 } : Loader).Agrees :=
    ⟨hfetch, hstop, hreason, hload, hfault, Nat.zero_le _, haddress⟩
  unfold renewQuota
  dsimp only
  split
  · next hw =>
    exact releaseLoader_agrees (s := s.setLoader { s.loader with quotaUsed := 0 }) hrenewed
      (Or.inr (Loader.waiting_of_waitsFor hw)) _
  · exact hrenewed

theorem applyStep_loaderAgrees {s : State} (h : s.loader.Agrees) : (applyStep s).1.loader.Agrees := by
  unfold applyStep
  split
  · next hw => exact releaseLoader_agrees h (Or.inr (Loader.waiting_of_waitsFor hw)) _
  · exact h

theorem exec_loader_agrees (c : Instr) {s t : State} (h : s.loader.Agrees) (e : exec c s = .next t) :
    t.loader.Agrees := by
  have hreset (u : State) : (afterReset u).loader.Agrees := by
    simp [afterReset, Loader.afterReset, Loader.Agrees]
  have hport (u : State) (p : ControlPort) (hu : u.loader.Agrees) : (u.setPort p).loader.Agrees := hu
  have hframe := exec_touches c s t e
  cases hc : beyondTold c
  · exact (exec_told hc e).loaderAgrees h
  have hstands (hl : t.loader = s.loader) : t.loader.Agrees := by rw [hl]; exact h
  cases c
  case clearEvents => exact hstands hframe.loader
  case setEventMask => exact hstands hframe.loader
  case resetLine => obtain rfl := Host.Outcome.next.inj e; exact hreset s
  case resetDevice =>
    obtain rfl := Host.Outcome.next.inj e
    exact resetDevice_keeps (P := fun u => u.loader.Agrees) hport h (hreset s)
  case loadMesh =>
    obtain rfl := Host.Outcome.next.inj e
    exact runRequest_keeps (P := fun u => u.loader.Agrees) hport (fun r _ => loadMeshRequest_loaderAgrees r) h
  case stopLoad =>
    obtain rfl := Host.Outcome.next.inj e
    exact runRequest_keeps (P := fun u => u.loader.Agrees) hport (fun r _ => stopLoadRequest_loaderAgrees r) h
  case resumeLoad =>
    obtain rfl := Host.Outcome.next.inj e
    exact runRequest_keeps (P := fun u => u.loader.Agrees) hport (fun r _ => resumeLoadRequest_loaderAgrees r) h
  case resetLoader =>
    obtain rfl := Host.Outcome.next.inj e
    refine runRequest_keeps (P := fun u => u.loader.Agrees) hport (fun r t ht => ?_) h
    obtain ⟨-, -, -, -, -, hquota, haddress⟩ := ht
    exact Loader.ended_agrees (l := t.loader) (fault := none) hquota haddress (by simp)
  case quotaRenewal =>
    obtain rfl := Host.Outcome.next.inj e
    split
    · exact h
    · exact renewQuota_loaderAgrees h
  case stepReport =>
    obtain rfl := Host.Outcome.next.inj e
    unfold runReport
    split
    · exact h
    · next report rest _ =>
      cases report
      case step => exact applyStep_loaderAgrees h
      all_goals exact h
  case fetchCompletion =>
    obtain rfl := Host.Outcome.next.inj e
    split
    · next hf _ =>
      have hrunning : s.loader.state = .running := h.1.1 (by simp [hf])
      split
      · rw [(startSolve_touches _).loader]
        exact completeFetch_loaderAgrees h hrunning _ _
      · exact h
    · exact h
  all_goals exact nomatch hc

/-- Settles O59: the timer by its states, the loader by its fetch decisions, and the Attention Unit by its raisings. -/
theorem stepKeepsTimerLoaderAttention : Obligations.StepKeepsTimerLoaderAttention := by
  unfold Obligations.StepKeepsTimerLoaderAttention
  exact ⟨KeptByStep.of_exec (fun _ _ h => h) fun c _ _ => exec_timer_agrees c,
    KeptByStep.of_exec (fun _ _ h => h) fun c _ _ => exec_loader_agrees c,
    KeptByStep.of_exec (fun _ _ h => h) fun c _ _ => exec_attentionAgrees c⟩

end Sys2Proof.Machine
end

section
/-! PROOF. The rules of the node records: what each operation of the Weight Solver, of Edit Control, of the Projector Table
and of the swap makes of every node record, and that it leaves the cursor alone and the node store canonical. -/

namespace Sys2Proof.Machine

open Sys2Proof Sys2Proof.Stating

set_option Elab.async false

/-! ### Reading a node after a change elsewhere -/

theorem Touches.node {fs : List Field} {s t : State} (h : Touches fs s t) (n : Nat)
    (hf : fs.contains Field.dome = false := by rfl) : t.node n = s.node n := by
  rw [State.node, h.dome hf]; rfl

theorem mem_nodeIndices {n : Nat} : n ∈ nodeIndices ↔ n < 2049 := List.mem_range

/-- A fold of one change of a node record over a list of nodes, when the change made twice is the change made once. -/
theorem node_foldl {g : State → Nat → State} {change : Node → Node}
    (hg : ∀ s n m, (g s n).node m = if m = n then change (s.node n) else s.node m)
    (hchange : ∀ r, change (change r) = change r) (ns : List Nat) (s : State) (m : Nat) :
    (ns.foldl g s).node m = if m ∈ ns then change (s.node m) else s.node m := by
  induction ns generalizing s with
  | nil => rfl
  | cons n ns ih =>
    rw [List.foldl_cons, ih, hg]
    by_cases hmn : m = n
    · subst hmn
      simp [hchange]
    · simp [hmn]

/-! ### The Weight Solver -/

/-- The queued field after a request to queue the node in a class (R29). -/
def queuedAs (cls : QueueClass) (q : Option QueueClass) : Option QueueClass :=
  match cls with
  | .urgent => some .urgent
  | .normal => some (q.getD .normal)

@[simp] theorem queuedAs_queuedAs (cls : QueueClass) (q : Option QueueClass) :
    queuedAs cls (queuedAs cls q) = queuedAs cls q := by
  cases cls <;> rfl

/-- A node hard-invalidated in a class (R31). -/
def Node.hardened (cls : QueueClass) (r : Node) : Node := { r.invalidated with queued := queuedAs cls r.queued }

/-- A node soft-refreshed (R33). -/
def Node.softened (r : Node) : Node := { r with queued := queuedAs .normal r.queued }

theorem Node.hardened_hardened (cls : QueueClass) (r : Node) : (r.hardened cls).hardened cls = r.hardened cls := by
  simp [hardened, invalidated]

theorem Node.softened_softened (r : Node) : r.softened.softened = r.softened := by
  simp [softened]

theorem node_queueNode (cls : QueueClass) (n : Nat) (s : State) (m : Nat) :
    (queueNode cls n s).node m = if m = n then { s.node n with queued := queuedAs cls (s.node n).queued } else s.node m := by
  have hsame (q : QueueClass) (hq : (s.node n).queued = some q) :
      s.node m = if m = n then { s.node n with queued := some q } else s.node m := by
    rw [← hq]
    split
    · next hm => rw [hm]
    · rfl
  unfold queueNode
  cases hq : (s.node n).queued <;> cases cls
  case none.normal => simp [queuedAs]
  case none.urgent => simp [queuedAs]
  case some.normal q => cases q <;> exact hsame _ hq
  case some.urgent q =>
    cases q
    case normal => simp [queuedAs]
    case urgent => exact hsame _ hq

theorem node_hardInvalidate (cls : QueueClass) (n : Nat) (s : State) (m : Nat) :
    (hardInvalidate cls n s).node m = if m = n then (s.node n).hardened cls else s.node m := by
  have hqueued : (queueNode cls n (s.modNode n Node.invalidated)).node m
      = if m = n then (s.node n).hardened cls else s.node m := by
    rw [node_queueNode]
    by_cases hm : m = n <;> simp [hm, Node.hardened, Node.invalidated]
  unfold hardInvalidate
  dsimp only
  split
  · rw [memberLost, node_setEdit, hqueued]
  · exact hqueued

theorem node_softRefresh (n : Nat) (s : State) (m : Nat) :
    (softRefresh n s).node m = if m = n then (s.node n).softened else s.node m := node_queueNode .normal n s m

theorem node_invalidateAll (cls : QueueClass) (ns : List Nat) (s : State) (m : Nat) :
    (invalidateAll cls ns s).node m = if m ∈ ns then (s.node m).hardened cls else s.node m :=
  node_foldl (fun s n m => node_hardInvalidate cls n s m) (Node.hardened_hardened cls) ns s m

theorem node_refreshAll (ns : List Nat) (s : State) (m : Nat) :
    (refreshAll ns s).node m = if m ∈ ns then (s.node m).softened else s.node m :=
  node_foldl (fun s n m => node_softRefresh n s m) Node.softened_softened ns s m

/-! ### Claims -/

@[simp] theorem node_countFreed (p : Slot) (s : State) (m : Nat) : (countFreed p s).node m = s.node m := rfl

@[simp] theorem node_lowerFailover (p : Slot) (s : State) (m : Nat) : (lowerFailover p s).node m = s.node m :=
  (lowerFailover_touches p s).node m

theorem node_freeClaim (p : Slot) (n : Nat) (s : State) (m : Nat) :
    (freeClaim p n s).node m = if m = n then (s.node n).dropClaim p else s.node m := by
  simp [freeClaim]

/-- A retiring projector's claim on a node: dropped when it is pending-new, else marked withdrawn (R86). -/
def Node.withdrawnBy (p : Slot) (r : Node) : Node :=
  match claimBy r.claims p with
  | none => r
  | some c => if c.pendingNew then r.dropClaim p else r.modClaim p fun d => { d with withdrawn := true }

theorem node_withdrawAt (p : Slot) (s : State) (n m : Nat) :
    (withdrawAt p s n).node m = if m = n then (s.node n).withdrawnBy p else s.node m := by
  unfold withdrawAt Node.withdrawnBy
  cases hc : claimBy (s.node n).claims p
  case none =>
    dsimp only
    split
    · next hm => rw [hm]
    · rfl
  case some c =>
    dsimp only
    by_cases hn : c.pendingNew = true
    · rw [if_pos hn, if_pos hn, node_freeClaim]
    · rw [if_neg hn, if_neg hn, node_modNode]

theorem claimBy_eq_none_iff {cs : List Claim} {p : Slot} : claimBy cs p = none ↔ ∀ c ∈ cs, c.projector ≠ p := by
  simp [claimBy]

theorem claimBy_dropClaim (p : Slot) (r : Node) : claimBy (r.dropClaim p).claims p = none := by
  simp [claimBy_eq_none_iff, Node.dropClaim]

theorem claimBy_modClaim {p : Slot} {f : Claim → Claim} (hf : ∀ c, (f c).projector = c.projector) (r : Node) :
    claimBy (r.modClaim p f).claims p = (claimBy r.claims p).map f := by
  unfold claimBy Node.modClaim
  rw [List.find?_map]
  have hsame : ((fun c : Claim => c.projector == p) ∘ fun c => if c.projector == p then f c else c)
      = fun c => c.projector == p := by
    funext c
    by_cases hc : c.projector = p <;> simp [hc, hf]
  rw [hsame]
  cases hfind : r.claims.find? fun c => c.projector == p
  case none => rfl
  case some c =>
    have hp : c.projector = p := by simpa using List.find?_some hfind
    simp [hp]

theorem Node.withdrawnBy_withdrawnBy (p : Slot) (r : Node) : (r.withdrawnBy p).withdrawnBy p = r.withdrawnBy p := by
  cases hc : claimBy r.claims p
  case none => simp [withdrawnBy, hc]
  case some c =>
    by_cases hn : c.pendingNew = true
    · have hdrop : r.withdrawnBy p = r.dropClaim p := by simp [withdrawnBy, hc, hn]
      rw [hdrop, withdrawnBy, claimBy_dropClaim]
    · have hmark : r.withdrawnBy p = r.modClaim p fun d => { d with withdrawn := true } := by
        simp [withdrawnBy, hc, hn]
      have hmarked := claimBy_modClaim (p := p) (f := fun d => { d with withdrawn := true }) (fun _ => rfl) r
      rw [hmark, withdrawnBy, hmarked, hc]
      simp only [Option.map_some, hn, Bool.false_eq_true, if_false, modClaim, Node.mk.injEq, and_self, and_true, List.map_map]
      refine List.map_congr_left fun d _ => ?_
      by_cases hd : d.projector = p <;> simp [hd]

theorem node_withdrawAll (p : Slot) (ns : List Nat) (s : State) (m : Nat) :
    (ns.foldl (withdrawAt p) s).node m = if m ∈ ns then (s.node m).withdrawnBy p else s.node m :=
  node_foldl (node_withdrawAt p) (Node.withdrawnBy_withdrawnBy p) ns s m

/-! ### Edit Control -/

/-- A node sealed into the group (R60). -/
def Node.sealed (r : Node) : Node := { r with openMark := false, groupMark := true }.hardened .normal

/-- A member of the group returned to the open set (R63). -/
def Node.reopened (r : Node) : Node := { r with openMark := true, groupMark := false }.invalidated

/-- A node of the open set discarded (R64). -/
def Node.unedited (r : Node) : Node :=
  { r with claims := (r.claims.filter fun c => !r.newSlots.contains c.projector).map Claim.unedited, openMark := false }

theorem node_sealNode (s : State) (n m : Nat) :
    (sealNode s n).node m = if m = n then (s.node n).sealed else s.node m := by
  rw [sealNode, node_hardInvalidate]
  by_cases hm : m = n <;> simp [hm, Node.sealed]

theorem node_withdrawNode (s : State) (n m : Nat) :
    (withdrawNode s n).node m = if m = n then (s.node n).reopened else s.node m := by
  rw [withdrawNode, invalidateUnqueued]
  by_cases hm : m = n <;> simp [hm, Node.reopened]

theorem Node.sealed_sealed (r : Node) : r.sealed.sealed = r.sealed := by
  simp [sealed, hardened, invalidated]

theorem Node.reopened_reopened (r : Node) : r.reopened.reopened = r.reopened := by
  simp [reopened, invalidated]

theorem node_sealAll (ns : List Nat) (s : State) (m : Nat) :
    (ns.foldl sealNode s).node m = if m ∈ ns then (s.node m).sealed else s.node m :=
  node_foldl node_sealNode Node.sealed_sealed ns s m

theorem node_withdrawNodes (ns : List Nat) (s : State) (m : Nat) :
    (ns.foldl withdrawNode s).node m = if m ∈ ns then (s.node m).reopened else s.node m :=
  node_foldl node_withdrawNode Node.reopened_reopened ns s m

theorem node_freeClaims (ps : List Slot) (n : Nat) (s : State) (m : Nat) :
    (ps.foldl (fun u p => freeClaim p n u) s).node m = if m = n then
      { s.node n with claims := (s.node n).claims.filter fun c => !ps.contains c.projector } else s.node m := by
  induction ps generalizing s with
  | nil => by_cases hm : m = n <;> simp [hm]
  | cons p ps ih =>
    rw [List.foldl_cons, ih, node_freeClaim, node_freeClaim]
    by_cases hm : m = n
    · subst hm
      simp only [if_true, Node.dropClaim, List.filter_filter, List.contains_cons, Bool.not_or, Node.mk.injEq, and_self,
        and_true]
      exact List.filter_congr fun c _ => by rw [Bool.and_comm]; rfl
    · simp [hm]

theorem node_discardNode (s : State) (n m : Nat) :
    (discardNode s n).node m = if m = n then (s.node n).unedited else s.node m := by
  unfold discardNode
  dsimp only
  rw [node_modNode, node_freeClaims, node_freeClaims]
  by_cases hm : m = n <;> simp [hm, Node.unedited]

theorem Node.unedited_unedited (r : Node) : r.unedited.unedited = r.unedited := by
  have hnone : r.unedited.newSlots = [] := by
    rw [newSlots, List.map_eq_nil_iff, List.filter_eq_nil_iff]
    intro c hc
    simp only [unedited, List.mem_map, List.mem_filter] at hc
    obtain ⟨d, ⟨hd, hnot⟩, rfl⟩ := hc
    intro hnew
    have hmem : d.projector ∈ r.newSlots := by
      rw [newSlots]
      exact List.mem_map_of_mem (List.mem_filter.2 ⟨hd, hnew⟩)
    simp [hmem] at hnot
  rw [unedited, hnone]
  simp [unedited, Claim.unedited]

theorem node_discardNodes (ns : List Nat) (s : State) (m : Nat) :
    (ns.foldl discardNode s).node m = if m ∈ ns then (s.node m).unedited else s.node m :=
  node_foldl node_discardNode Node.unedited_unedited ns s m

/-! ### The swap -/

/-- A node as the swap leaves it (R66). -/
def Node.visited (groupReady : Bool) (r : Node) : Node :=
  if r.groupMark then (if groupReady then r.groupSwapped else r) else if r.nextValid then r.singleSwapped else r

@[simp] theorem node_emptyIfDone (p : Slot) (s : State) (m : Nat) : (emptyIfDone p s).node m = s.node m :=
  (emptyIfDone_touches p s).node m

@[simp] theorem node_freeAtSwap (s : State) (p : Slot) (m : Nat) : (freeAtSwap s p).node m = s.node m := by
  rw [freeAtSwap, node_emptyIfDone, node_countFreed]

/-- A fold of changes that no node record sees. -/
theorem node_foldl_same {α : Type} {g : State → α → State} (m : Nat) (hg : ∀ s a, (g s a).node m = s.node m)
    (l : List α) (s : State) : (l.foldl g s).node m = s.node m :=
  foldl_keeps (fun t => t.node m = s.node m) g (fun t a ht => (hg t a).trans ht) l s rfl

@[simp] theorem node_reportSwap (n : Nat) (old new : Node) (leaves : Claim → Bool) (s : State) (m : Nat) :
    (reportSwap n old new leaves s).node m = s.node m := by
  unfold reportSwap
  dsimp only
  rw [node_foldl_same m (fun s p => node_freeAtSwap s p m), node_foldl_same m (fun s p => node_lowerFailover p s m)]
  split <;> rfl

theorem node_swapNode (ready : Bool) (s : State) (n m : Nat) :
    (swapNode ready s n).node m = if m = n then (s.node n).visited ready else s.node m := by
  unfold swapNode Node.visited
  dsimp only
  split
  · split
    · rw [groupSwap, node_reportSwap, node_putNode]
    · split <;> simp_all
  · split
    · rw [singleSwap, node_reportSwap, node_putNode]
    · split <;> simp_all

theorem Node.visited_visited (ready : Bool) (r : Node) : (r.visited ready).visited ready = r.visited ready := by
  unfold visited
  cases hg : r.groupMark <;> cases hn : r.nextValid <;> cases ready <;>
    simp [hg, hn, groupSwapped, singleSwapped, swapTo]

theorem node_swapNodes (ready : Bool) (ns : List Nat) (s : State) (m : Nat) :
    (ns.foldl (swapNode ready) s).node m = if m ∈ ns then (s.node m).visited ready else s.node m :=
  node_foldl (node_swapNode ready) (Node.visited_visited ready) ns s m

/-! ### The cursor and the form of the store -/

/-- The cursor stands, and the node store is rewritten in its canonical form. -/
structure Rewrites (s t : State) : Prop where
  canonical : s.NodesCanonical → t.NodesCanonical
  cursor : t.dome.cursor = s.dome.cursor
  remembered : t.dome.remembered = s.dome.remembered
  walk : t.dome.walk = s.dome.walk

namespace Rewrites

variable {s t u : State}

theorem refl (s : State) : Rewrites s s := ⟨id, rfl, rfl, rfl⟩

theorem trans (h : Rewrites s t) (h' : Rewrites t u) : Rewrites s u :=
  ⟨fun hs => h'.canonical (h.canonical hs), h'.cursor.trans h.cursor, h'.remembered.trans h.remembered,
    h'.walk.trans h.walk⟩

theorem of_touches {fs : List Field} (h : Touches fs s t) (hf : fs.contains Field.dome = false := by rfl) :
    Rewrites s t := by
  have hdome := h.dome hf
  exact ⟨fun hs => by rw [State.NodesCanonical, hdome]; exact hs, by rw [hdome], by rw [hdome], by rw [hdome]⟩

theorem ite {c : Prop} [Decidable c] (ht : Rewrites s t) (hu : Rewrites s u) : Rewrites s (if c then t else u) := by
  split <;> assumption

theorem foldl {α : Type} {g : State → α → State} (h : ∀ s a, Rewrites s (g s a)) (l : List α) (s : State) :
    Rewrites s (l.foldl g s) :=
  foldl_keeps (Rewrites s) g (fun _ a ht => ht.trans (h _ a)) l s (refl s)

theorem putNode (s : State) (n : Nat) (r : Node) : Rewrites s (s.putNode n r) :=
  ⟨Sparse.wf_put _ _ _ _, rfl, rfl, rfl⟩

theorem modNode (s : State) (n : Nat) (f : Node → Node) : Rewrites s (s.modNode n f) := putNode s n _

theorem setFree (s : State) (k : Nat) : Rewrites s (s.setFree k) := ⟨id, rfl, rfl, rfl⟩

end Rewrites

theorem queueNode_rewrites (cls : QueueClass) (n : Nat) (s : State) : Rewrites s (queueNode cls n s) := by
  have hqueued (v : Solver) (f : Node → Node) : Rewrites s ((s.setSolver v).modNode n f) :=
    (Rewrites.of_touches (setSolver_touches s v)).trans (Rewrites.modNode _ n f)
  unfold queueNode
  split
  · exact hqueued _ _
  · exact hqueued _ _
  · exact hqueued _ _
  · exact Rewrites.refl s
  · exact Rewrites.refl s

theorem hardInvalidate_rewrites (cls : QueueClass) (n : Nat) (s : State) : Rewrites s (hardInvalidate cls n s) := by
  have hqueued : Rewrites s (queueNode cls n (s.modNode n Node.invalidated)) :=
    (Rewrites.modNode s n _).trans (queueNode_rewrites cls n _)
  exact Rewrites.ite (hqueued.trans (Rewrites.of_touches (memberLost_touches _))) hqueued

theorem startSolve_rewrites (s : State) : Rewrites s (startSolve s) := by
  have htaken (v : Solver) (n : Nat) (f : Node → Node) : Rewrites s ((s.setSolver v).modNode n f) :=
    (Rewrites.of_touches (setSolver_touches s v)).trans (Rewrites.modNode _ n f)
  unfold startSolve
  split
  · exact Rewrites.refl s
  · exact htaken _ _ _
  · exact htaken _ _ _
  · exact Rewrites.refl s

theorem finishSolve_rewrites (f : Flight) (s : State) : Rewrites s (finishSolve f s) := by
  have hended (g : Node → Node) : Rewrites s ((s.setSolver { s.solver with flight := none }).modNode f.node g) :=
    (Rewrites.of_touches (setSolver_touches s _)).trans (Rewrites.modNode _ _ g)
  have hstored : Rewrites s
      (if (s.node f.node).groupMark && !(s.node f.node).nextValid then
        memberGained ((s.setSolver { s.solver with flight := none }).modNode f.node (Node.stored f))
      else (s.setSolver { s.solver with flight := none }).modNode f.node (Node.stored f)) :=
    Rewrites.ite ((hended _).trans (Rewrites.of_touches (memberGained_touches _))) (hended _)
  exact Rewrites.ite (hended _) (Rewrites.ite (hstored.trans (Rewrites.of_touches (raise_touches _ _))) hstored)

theorem countFreed_rewrites (p : Slot) (s : State) : Rewrites s (countFreed p s) :=
  (Rewrites.setFree s _).trans (Rewrites.of_touches (modProj_touches _ p _))

theorem freeClaim_rewrites (p : Slot) (n : Nat) (s : State) : Rewrites s (freeClaim p n s) :=
  ((Rewrites.modNode s n _).trans (countFreed_rewrites p _)).trans (Rewrites.of_touches (lowerFailover_touches p _))

theorem allocateClaim_rewrites (c : Claim) (n : Nat) (s : State) : Rewrites s (allocateClaim c n s) :=
  ((Rewrites.modNode s n _).trans (Rewrites.setFree _ _)).trans (Rewrites.of_touches (modProj_touches _ _ _))

theorem withdrawAt_rewrites (p : Slot) (s : State) (n : Nat) : Rewrites s (withdrawAt p s n) := by
  unfold withdrawAt
  split
  · exact Rewrites.refl s
  · exact Rewrites.ite (freeClaim_rewrites p n s) (Rewrites.modNode s n _)

theorem enterRetiring_rewrites (p : Slot) (s : State) : Rewrites s (enterRetiring p s) := by
  have hwithdrawn : Rewrites s ((s.claimNodes p).foldl (withdrawAt p) (s.modProj p Projector.retired)) :=
    (Rewrites.of_touches (modProj_touches s p _)).trans (Rewrites.foldl (withdrawAt_rewrites p) _ _)
  have hinvalidated := hwithdrawn.trans
    (Rewrites.foldl (fun t n => hardInvalidate_rewrites .urgent n t) (s.claimNodes p) _)
  unfold enterRetiring
  dsimp only
  refine Rewrites.trans (Rewrites.ite ?_ hinvalidated) (Rewrites.of_touches (emptyIfDone_touches p _))
  exact hinvalidated.trans (Rewrites.of_touches (recomputeGains_touches _))

theorem discardNode_rewrites (s : State) (n : Nat) : Rewrites s (discardNode s n) := by
  unfold discardNode
  exact (Rewrites.foldl (fun u p => freeClaim_rewrites p n u) _ s).trans (Rewrites.modNode _ n _)

theorem sealOpenSet_rewrites (s : State) : Rewrites s (sealOpenSet s) :=
  (Rewrites.foldl (fun t n => (Rewrites.modNode t n _).trans (hardInvalidate_rewrites .normal n _)) s.openSet s).trans
    (Rewrites.of_touches (setEdit_touches _ _))

theorem withdrawNode_rewrites (s : State) (n : Nat) : Rewrites s (withdrawNode s n) :=
  (Rewrites.modNode s n _).trans (Rewrites.modNode _ n _)

theorem freeAtSwap_rewrites (s : State) (p : Slot) : Rewrites s (freeAtSwap s p) :=
  (countFreed_rewrites p s).trans (Rewrites.of_touches (emptyIfDone_touches p _))

theorem reportSwap_rewrites (n : Nat) (old new : Node) (leaves : Claim → Bool) (s : State) :
    Rewrites s (reportSwap n old new leaves s) := by
  have hdark : Rewrites s (if new.condition = .dark ∧ old.condition ≠ .dark then s.raise (.darkNode n) else s) :=
    Rewrites.ite (Rewrites.of_touches (raise_touches s _)) (Rewrites.refl s)
  unfold reportSwap
  exact (hdark.trans (Rewrites.foldl (fun v p => Rewrites.of_touches (lowerFailover_touches p v)) _ _)).trans
    (Rewrites.foldl freeAtSwap_rewrites _ _)

theorem swapNode_rewrites (ready : Bool) (s : State) (n : Nat) : Rewrites s (swapNode ready s n) := by
  have hput (r : Node) (leaves : Claim → Bool) : Rewrites s (reportSwap n (s.node n) r leaves (s.putNode n r)) :=
    (Rewrites.putNode s n r).trans (reportSwap_rewrites n _ r leaves _)
  exact Rewrites.ite (Rewrites.ite (hput _ _) (Rewrites.refl s)) (Rewrites.ite (hput _ _) (Rewrites.refl s))

end Sys2Proof.Machine
end

section
/-! PROOF. What a step can do to the Dome Map, the solver, Edit Control and the claim counts, said once: `Mapped` lists the
changes, and `exec_mapped` finds each command among them. -/

namespace Sys2Proof.Machine

open Sys2Proof Sys2Proof.Stating

set_option Elab.async false

/-! ### The projector records after a recomputation and after the emptying of a slot -/

theorem proj_recomputeGains (s : State) (q : Slot) :
    (recomputeGains s).proj q = (s.proj q).retargeted s.gain.floor s.reference := by
  unfold recomputeGains
  rw [proj_congr (raiseLimits_touches slots _).projectors, proj_mapProj]

theorem proj_reportYield (s : State) (q : Slot) : (reportYield s).proj q = s.proj q :=
  proj_congr (reportYield_touches s).projectors q

theorem proj_lowerFailover (p : Slot) (s : State) (q : Slot) :
    (lowerFailover p s).proj q = if q = p then { s.proj p with failover := (s.proj p).failover - 1 } else s.proj q := by
  unfold lowerFailover
  dsimp only
  split
  · next h0 =>
    split
    · next hq => subst hq; rw [h0, Nat.zero_sub]; exact congrArg (fun k => { s.proj q with failover := k }) h0
    · rfl
  · split
    · rw [proj_reportYield, proj_raise, proj_setFailover]
    · rw [proj_setFailover]

theorem proj_emptySlot (p : Slot) (s : State) (q : Slot) :
    (emptySlot p s).proj q = (if q = p then (s.proj p).emptied else s.proj q).retargeted s.gain.floor
      (s.modProj p Projector.emptied).reference := by
  have hrecomputed : ((recomputeGains (turnOff p (s.modProj p Projector.emptied))).raise (.fadeDone p true)).proj q
      = (if q = p then (s.proj p).emptied else s.proj q).retargeted s.gain.floor
        (s.modProj p Projector.emptied).reference := by
    rw [proj_raise, proj_recomputeGains]
    exact congrArg (fun r : Projector => r.retargeted _ _) (proj_modProj s p q Projector.emptied)
  unfold emptySlot
  dsimp only
  split
  · rw [proj_reportYield, hrecomputed]
  · exact hrecomputed

/-! ### The changes -/

/-- The claim count stands, or is that of a slot just enrolled; no slot becomes VACANT or RETIRING (R75, R77). -/
def Projector.CountStands (r q : Projector) : Prop :=
  (q.claimCount = r.claimCount ∨ r.state = .vacant ∧ q.claimCount = 0) ∧ (q.state = .vacant → r.state = .vacant) ∧
    (q.state = .retiring → r.state = .retiring)

/-- Neither the nodes, the pool, the solver nor Edit Control change, and the claim counts stand. -/
structure Stands (s t : State) : Prop where
  nodes : t.dome.nodes = s.dome.nodes
  free : t.dome.freeCount = s.dome.freeCount
  cursor : s.CursorPlaced → t.CursorPlaced
  solver : t.solver = s.solver
  edit : t.edit = s.edit
  counts : ∀ p, (s.proj p).CountStands (t.proj p)

/-- The map, the solver and Edit Control are emptied, and no projector has a claim (R24, R26). -/
structure Emptied (s t : State) : Prop where
  nodes : t.dome.nodes = []
  free : t.dome.freeCount = 6144
  cursor : s.CursorPlaced → t.CursorPlaced
  solver : t.solver = { urgent := [], normal := [], flight := none }
  edit : t.edit = { groupState := .none, members := 0, readyCount := 0, applyWaiting := false }
  counts : ∀ p, (t.proj p).claimCount = 0 ∧ (t.proj p).state ≠ .retiring

/-- A node index, or the place of the cursor, which is one. -/
def State.Addressable (s : State) (n : Nat) : Prop := n < 2049 ∨ n = s.dome.cursor

/-- A change of a claim that leaves its projector, its weights, and its pending-new and withdrawn marks. -/
def Claim.SameWeights (f : Claim → Claim) : Prop :=
  ∀ c, (f c).projector = c.projector ∧ (f c).pendingNew = c.pendingNew ∧ (f c).withdrawn = c.withdrawn ∧
    (f c).liveWeight = c.liveWeight ∧ (f c).nextWeight = c.nextWeight

/-- The group dissolved, and no apply waiting (R63, R69). -/
def disbanded (s : State) : State :=
  s.setEdit { groupState := .none, members := 0, readyCount := 0, applyWaiting := false }

/-- The second state comes from the first by the changes that the part makes to the map, each with what is known where it
is made. -/
inductive Mapped : State → State → Prop
  | stands {s t : State} : Stands s t → Mapped s t
  | emptied {s t : State} : Emptied s t → Mapped s t
  | invalidate (cls : QueueClass) {n : Nat} (s : State) : n < 2049 → Mapped s (hardInvalidate cls n s)
  | refresh {n : Nat} (s : State) : n < 2049 → Mapped s (softRefresh n s)
  | begin (s : State) : Mapped s (startSolve s)
  | finish {f : Flight} {s : State} : s.solver.flight = some f → Mapped s (finishSolve f s)
  | retire (p : Slot) (s : State) : Mapped s (enterRetiring p s)
  | edit {n : Nat} (p : Slot) {f : Claim → Claim} {s : State} : s.Addressable n → Claim.SameWeights f →
      ((∀ c, (f c).pendingRemoval = c.pendingRemoval) ∨ (s.node n).groupMark = false) →
      Mapped s (s.modNode n fun r => r.modClaim p f)
  | opened {n : Nat} {s : State} : s.Addressable n → (s.node n).groupMark = false → Mapped s (openNode n s)
  | create {n : Nat} {p : Slot} (q : Pos) (pin : PinField) {s : State} : s.Addressable n →
      (s.node n).groupMark = false → claimBy (s.node n).claims p = none → (s.node n).claims.length < 4 →
      s.dome.freeCount ≠ 0 → (s.proj p).state ≠ .vacant → (s.proj p).state ≠ .retiring →
      Mapped s (allocateClaim (newClaim p q pin) n s)
  | free {n : Nat} {p : Slot} {c : Claim} {s : State} : n < 2049 → (s.node n).groupMark = false →
      claimBy (s.node n).claims p = some c → c.pendingNew = true → Mapped s (freeClaim p n s)
  | discard {n : Nat} {s : State} : n < 2049 → (s.node n).openMark = true → Mapped s (discardNode s n)
  | sealed {s : State} : s.edit.groupState = .none → s.openSet ≠ [] → Mapped s (sealOpenSet s)
  | waits {s : State} : s.edit.groupState ≠ .none → Mapped s (s.setEdit { s.edit with applyWaiting := true })
  | withdrawn {s : State} : s.edit.groupState ≠ .none → Mapped s (disbanded (s.group.foldl withdrawNode s))
  | single {n : Nat} {s : State} : n < 2049 → (s.node n).groupMark = false → (s.node n).nextValid = true →
      Mapped s (singleSwap n s)
  | swapped {s : State} : s.edit.groupState = .ready → Mapped s (disbanded (nodeIndices.foldl (swapNode true) s))
  | trans {s t u : State} : Mapped s t → Mapped t u → Mapped s u

theorem Projector.CountStands.refl (r : Projector) : r.CountStands r := ⟨Or.inl rfl, id, id⟩

theorem Stands.of_eq {s t : State} (hdome : t.dome = s.dome) (hsolver : t.solver = s.solver) (hedit : t.edit = s.edit)
    (hcounts : ∀ p, (s.proj p).CountStands (t.proj p)) : Stands s t :=
  ⟨by rw [hdome], by rw [hdome], fun h => by rw [State.CursorPlaced, hdome]; exact h, hsolver, hedit, hcounts⟩

namespace Mapped

variable {s t u : State}

theorem refl (s : State) : Mapped s s := stands (Stands.of_eq rfl rfl rfl fun _ => Projector.CountStands.refl _)

/-- A change that touches neither the map nor the projectors. -/
theorem of_touches {fs : List Field} (h : Touches fs s t)
    (hfs : Field.sub fs [.pending, .gain, .raster, .content, .channels, .timer, .owed, .align, .loader, .port, .attention]
      = true := by rfl) : Mapped s t := by
  have h' := h.mono hfs
  exact stands (Stands.of_eq h'.dome h'.solver h'.edit fun p => by
    rw [proj_congr h'.projectors]; exact Projector.CountStands.refl _)

theorem modProj (s : State) (p : Slot) (f : Projector → Projector) (hf : (s.proj p).CountStands (f (s.proj p))) :
    Mapped s (s.modProj p f) :=
  stands (Stands.of_eq rfl rfl rfl fun q => by
    rw [proj_modProj]
    split
    · next hq => exact hq ▸ hf
    · exact Projector.CountStands.refl _)

theorem mapProj (s : State) (f : Projector → Projector) (hf : ∀ r : Projector, r.CountStands (f r)) : Mapped s (s.mapProj f) :=
  stands (Stands.of_eq rfl rfl rfl fun q => by rw [proj_mapProj]; exact hf _)

theorem ite {c : Prop} [Decidable c] (ht : c → Mapped s t) (hu : ¬c → Mapped s u) : Mapped s (if c then t else u) := by
  split
  · next h => exact ht h
  · next h => exact hu h

theorem foldl {α : Type} {g : State → α → State} (l : List α) (h : ∀ s, ∀ a ∈ l, Mapped s (g s a)) (s : State) :
    Mapped s (l.foldl g s) :=
  foldl_keeps_mem (Mapped s) g l (fun _ a ha ht => ht.trans (h _ a ha)) s (refl s)

theorem thenRaise (h : Mapped s t) (e : Event) : Mapped s (t.raise e) := h.trans (of_touches (raise_touches t e))

theorem thenBegin (h : Mapped s t) : Mapped s (startSolve t) := h.trans (begin t)

end Mapped

/-! ### The Weight Solver and the gains -/

theorem mem_claimNodes {s : State} {p : Slot} {n : Nat} :
    n ∈ s.claimNodes p ↔ n < 2049 ∧ (s.node n).claimedBy p = true := by
  rw [State.claimNodes, List.mem_filter, mem_nodeIndices]

theorem invalidateClaimed_mapped (p : Slot) (s : State) : Mapped s (invalidateClaimed p s) := by
  unfold invalidateClaimed invalidateAll
  exact Mapped.foldl _ (fun t _ hn => Mapped.invalidate .urgent t (mem_claimNodes.1 hn).1) s

theorem refreshClaimed_mapped (p : Slot) (s : State) : Mapped s (refreshClaimed p s) := by
  unfold refreshClaimed refreshAll
  exact Mapped.foldl _ (fun t _ hn => Mapped.refresh t (mem_claimNodes.1 hn).1) s

theorem recomputeGains_mapped (s : State) : Mapped s (recomputeGains s) := by
  unfold recomputeGains
  exact (Mapped.mapProj s (fun r => r.retargeted s.gain.floor s.reference) fun r => ⟨Or.inl rfl, id, id⟩).trans
    (Mapped.of_touches (raiseLimits_touches slots _))

/-! ### The Projector Table -/

theorem oweFailover_mapped (p : Slot) (s : State) : Mapped s (oweFailover p s) := by
  have howed : Mapped s (s.setFailover p (s.proj p).claimCount) := Mapped.modProj s p _ ⟨Or.inl rfl, id, id⟩
  exact Mapped.ite (fun _ => howed.thenRaise _) fun _ => howed

theorem enterFailed_mapped (p : Slot) (cause : FailCause) (s : State) : Mapped s (enterFailed p cause s) := by
  have hfailed : Mapped s ((s.modProj p fun r => r.failedWith cause).raise (.projFault p cause)) :=
    (Mapped.modProj s p (fun r => r.failedWith cause) ⟨Or.inl rfl, nofun, nofun⟩).thenRaise _
  exact Mapped.ite (fun _ => ((hfailed.trans (oweFailover_mapped p _)).trans (invalidateClaimed_mapped p _)).trans
    (recomputeGains_mapped _)) fun _ => hfailed

theorem failContributing_mapped (p : Slot) (cause : FailCause) (s : State) : Mapped s (failContributing p cause s) :=
  Mapped.ite (fun _ => ((oweFailover_mapped p s).thenRaise _).trans (Mapped.retire p _))
    fun _ => enterFailed_mapped p cause s

theorem replaceCause_mapped (p : Slot) (cause : FailCause) (s : State) : Mapped s (replaceCause p cause s) :=
  (Mapped.modProj s p (fun r => { r with failCause := some cause }) ⟨Or.inl rfl, id, id⟩).thenRaise _

theorem takeFaultStart_mapped (p : Slot) (s : State) : Mapped s (takeFaultStart p s) := by
  have hraised : Mapped s (s.raise (.projFault p .line)) := (Mapped.refl s).thenRaise _
  unfold takeFaultStart
  split
  · exact Mapped.refl s
  · exact Mapped.ite (fun _ => enterFailed_mapped p _ s) fun _ => hraised
  · exact Mapped.ite (fun _ => failContributing_mapped p _ s) fun _ => hraised
  · exact Mapped.ite (fun _ => failContributing_mapped p _ s) fun _ => hraised
  · exact Mapped.ite (fun _ => failContributing_mapped p _ s) fun _ => hraised
  · exact replaceCause_mapped p _ s
  · exact hraised

theorem takeLockFault_mapped (p : Slot) (cause : FailCause) (s : State) : Mapped s (takeLockFault p cause s) := by
  unfold takeLockFault
  split
  · exact Mapped.refl s
  · exact enterFailed_mapped p cause s
  · exact failContributing_mapped p cause s
  · exact failContributing_mapped p cause s
  · exact failContributing_mapped p cause s
  · exact replaceCause_mapped p cause s
  · exact (Mapped.refl s).thenRaise _

theorem recoveryCheck_mapped (p : Slot) (s : State) : Mapped s (recoveryCheck p s) :=
  Mapped.ite (fun _ => (Mapped.modProj s p (fun r => { r with state := .parked, failCause := none })
    ⟨Or.inl rfl, nofun, nofun⟩).thenRaise _) fun _ => Mapped.refl s

theorem startFade_mapped (p : Slot) {st : ProjState} (hv : st ≠ .vacant) (hr : st ≠ .retiring) (f : Fade) (s : State) :
    Mapped s (startFade p st f s) := by
  have hstarted : Mapped s (refreshClaimed p (s.modProj p fun r => { r with state := st, fade := some f })) :=
    (Mapped.modProj s p (fun r => { r with state := st, fade := some f })
      ⟨Or.inl rfl, fun h => absurd h hv, fun h => absurd h hr⟩).trans (refreshClaimed_mapped p _)
  exact Mapped.ite (fun _ => hstarted.trans (recomputeGains_mapped _)) fun _ => hstarted

theorem startFadeIn_mapped (p : Slot) (start n : Nat) (s : State) : Mapped s (startFadeIn p start n s) := by
  unfold startFadeIn
  exact startFade_mapped p (by decide) (by decide) _ s

theorem startFadeOut_mapped (p : Slot) (start n : Nat) (retireAfter : Bool) (s : State) :
    Mapped s (startFadeOut p start n retireAfter s) := by
  unfold startFadeOut
  exact startFade_mapped p (by decide) (by decide) _ s

theorem cutIn_mapped (p : Slot) (s : State) : Mapped s (cutIn p s) := by
  have hcut : Mapped s (refreshClaimed p (s.modProj p fun r => { r with state := .live, phi := 256, fade := none })) :=
    (Mapped.modProj s p (fun r => { r with state := .live, phi := 256, fade := none })
      ⟨Or.inl rfl, nofun, nofun⟩).trans (refreshClaimed_mapped p _)
  exact Mapped.ite (fun _ => hcut.trans (recomputeGains_mapped _)) fun _ => hcut

theorem cutOut_mapped (p : Slot) (s : State) : Mapped s (cutOut p s) :=
  ((Mapped.modProj s p (fun r => { r with state := .parked, phi := 0, fade := none })
    ⟨Or.inl rfl, nofun, nofun⟩).trans (invalidateClaimed_mapped p _)).trans (recomputeGains_mapped _)

theorem completeFade_mapped (p : Slot) (f : Fade) (s : State) : Mapped s (completeFade p f s) := by
  have hdone : Mapped s ((s.modProj p fun r => { r with fade := none }).raise (.fadeDone p false)) :=
    (Mapped.modProj s p (fun r => { r with fade := none }) ⟨Or.inl rfl, id, id⟩).thenRaise _
  exact Mapped.ite
    (fun _ => hdone.trans (Mapped.modProj _ p (fun r => { r with state := .live }) ⟨Or.inl rfl, nofun, nofun⟩))
    fun _ => Mapped.ite (fun _ => hdone.trans (Mapped.retire p _)) fun _ =>
      (hdone.trans (Mapped.modProj _ p (fun r => { r with state := .parked }) ⟨Or.inl rfl, nofun, nofun⟩)).trans
        (recomputeGains_mapped _)

theorem fadeStepSlot_mapped (s : State) (p : Slot) : Mapped s (fadeStepSlot s p) := by
  unfold fadeStepSlot
  refine Mapped.thenBegin ?_
  unfold fadeStepOf
  split
  · exact Mapped.refl s
  · next f _ =>
    have hstepped : Mapped s (refreshClaimed p (s.modProj p fun r =>
        { r with fade := some { f with elapsed := f.elapsed + 1 }, phi := { f with elapsed := f.elapsed + 1 }.phi })) := by
      refine Mapped.trans ?_ (refreshClaimed_mapped p _)
      exact Mapped.modProj s p _ ⟨Or.inl rfl, id, id⟩
    dsimp only
    refine Mapped.ite (fun _ => ?_) fun _ => hstepped
    exact Mapped.trans hstepped (completeFade_mapped p _ _)

theorem fadeIn_mapped {p : Slot} {n : Nat} {s t : State} (h : fadeIn p n s = some t) : Mapped s t := by
  rw [fadeIn_eq] at h
  split at h
  · exact Option.some.inj h ▸ Mapped.refl s
  · obtain ⟨start, -, rfl⟩ := Option.map_eq_some_iff.mp h
    exact Mapped.ite (fun _ => cutIn_mapped p s) fun _ => startFadeIn_mapped p _ _ s

theorem fadeOut_mapped {p : Slot} {n : Nat} {s t : State} (h : fadeOut p n s = some t) : Mapped s t := by
  rw [fadeOut_eq] at h
  split at h
  · exact Option.some.inj h ▸ Mapped.refl s
  · obtain ⟨start, -, rfl⟩ := Option.map_eq_some_iff.mp h
    exact Mapped.ite
      (fun _ => Mapped.ite (fun _ => Mapped.retire p s) fun _ => startFadeOut_mapped p _ _ _ s)
      fun _ => Mapped.ite (fun _ => cutOut_mapped p s) fun _ => startFadeOut_mapped p _ _ _ s

theorem retire_mapped (p : Slot) (n : Nat) (s : State) : Mapped s (retire p n s) := by
  unfold retire
  split
  · exact Mapped.retire p s
  · exact Mapped.retire p s
  · exact Mapped.ite (fun _ => Mapped.retire p s) fun _ => startFadeOut_mapped p _ _ _ s
  · exact Mapped.ite (fun _ => Mapped.retire p s) fun _ => startFadeOut_mapped p _ _ _ s
  · exact Mapped.modProj s p _ ⟨Or.inl rfl, id, id⟩
  · exact Mapped.refl s
  · exact Mapped.refl s

/-! ### Edit Control -/

theorem resolveNode_lt {ring sector n : Nat} (h : resolveNode ring sector = some n) : n < 2049 := by
  simp only [resolveNode, nodeIndex, Config.zenith] at h
  split at h
  · obtain rfl := Option.some.inj h; omega
  · split at h
    · obtain rfl := Option.some.inj h; omega
    · exact absurd h (by simp)

theorem addressedNode_addressable {s : State} {mode ring sector n : Nat} (h : addressedNode s mode ring sector = some n) :
    s.Addressable n := by
  unfold addressedNode at h
  split at h
  · exact Or.inl (resolveNode_lt h)
  · exact Or.inr (Option.some.inj h).symm

theorem claimsUpdated (q : Pos) (pin : PinField) : Claim.SameWeights fun c => c.updated q pin :=
  fun _ => ⟨rfl, rfl, rfl, rfl, rfl⟩

theorem claimsMarked : Claim.SameWeights fun c => { c with pendingRemoval := true } :=
  fun _ => ⟨rfl, rfl, rfl, rfl, rfl⟩

theorem claimsTrimmed (t : Trim) : Claim.SameWeights fun c => { c with nextTrim := some t } :=
  fun _ => ⟨rfl, rfl, rfl, rfl, rfl⟩

theorem placeClaim_mapped {n : Nat} (p : Slot) (q : Pos) (pin : PinField) {s : State} (hn : s.Addressable n)
    (hg : (s.node n).groupMark = false) (hv : (s.proj p).state ≠ .vacant) (hr : (s.proj p).state ≠ .retiring) :
    Mapped s (placeClaim n p q pin s).1 := by
  unfold placeClaim
  split
  · refine (Mapped.edit p hn (claimsUpdated q pin) (Or.inr hg)).trans (Mapped.opened hn ?_)
    simpa [Node.modClaim] using hg
  · next hnone =>
    split
    · exact Mapped.refl s
    split
    · exact Mapped.refl s
    · next hroom hfree =>
      refine (Mapped.create q pin hn hg hnone (not_le.1 hroom) hfree hv hr).trans (Mapped.opened hn ?_)
      simpa [allocateClaim] using hg

theorem editSetClaim_mapped {node : Option Nat} (slot : Nat) (q : Pos) (pin : PinField) {s : State}
    (hn : ∀ n, node = some n → s.Addressable n) : Mapped s (editSetClaim node slot q pin s).1 := by
  unfold editSetClaim
  cases node
  case none => exact Mapped.refl s
  case some n =>
    cases slotOf slot
    case none => exact Mapped.refl s
    case some p =>
      dsimp only
      split
      · exact Mapped.refl s
      split
      · exact Mapped.refl s
      split
      · exact Mapped.refl s
      · next hv hr hg => exact placeClaim_mapped p q pin (hn n rfl) (by simpa using hg) hv hr

theorem removeClaim_mapped {n : Nat} {p : Slot} {c : Claim} {s : State} (hn : n < 2049)
    (hg : (s.node n).groupMark = false) (hc : claimBy (s.node n).claims p = some c) :
    Mapped s (removeClaim n p c s).1 := by
  unfold removeClaim
  split
  · next hnew =>
    refine (Mapped.free hn hg hc hnew).trans (Mapped.opened (Or.inl hn) ?_)
    simpa [node_freeClaim, Node.dropClaim] using hg
  · refine (Mapped.edit p (Or.inl hn) claimsMarked (Or.inr hg)).trans (Mapped.opened (Or.inl hn) ?_)
    simpa [Node.modClaim] using hg

theorem editDropClaim_mapped {node : Option Nat} (slot : Nat) {s : State} (hn : ∀ n, node = some n → n < 2049) :
    Mapped s (editDropClaim node slot s).1 := by
  unfold editDropClaim
  cases node
  case none => exact Mapped.refl s
  case some n =>
    cases slotOf slot
    case none => exact Mapped.refl s
    case some p =>
      dsimp only
      split
      · exact Mapped.refl s
      · next hg =>
        split
        · exact Mapped.refl s
        · next hc => exact removeClaim_mapped (hn n rfl) (by simpa using hg) hc

theorem applyEdits_mapped (s : State) : Mapped s (applyEdits s).1 := by
  unfold applyEdits
  split
  · next hnone =>
    split
    · exact Mapped.refl s
    · next hopen => exact Mapped.sealed hnone (by simpa using hopen)
  · exact Mapped.refl s

theorem disbanded_eq (s : State) (hw : s.edit.applyWaiting = false) : dissolveGroup s = disbanded s := by
  simp only [dissolveGroup, disbanded, hw]

/-- The end of a group: it is dissolved, and a waiting apply is taken (R63, R65, R69). -/
theorem takeApplyWaiting_dissolveGroup (s : State) :
    (takeApplyWaiting (dissolveGroup s)).1
      = if s.edit.applyWaiting = true then (applyEdits (disbanded s)).1 else disbanded s := by
  unfold takeApplyWaiting
  have hwaiting : (dissolveGroup s).edit.applyWaiting = s.edit.applyWaiting := rfl
  have hcleared : (dissolveGroup s).setEdit { (dissolveGroup s).edit with applyWaiting := false } = disbanded s := rfl
  rw [hwaiting, hcleared]
  split
  · split <;> next e => rw [e]
  · next hw => exact disbanded_eq s (by simpa using hw)

theorem groupEnd_mapped {s t : State} (h : Mapped s (disbanded t)) :
    Mapped s (takeApplyWaiting (dissolveGroup t)).1 := by
  rw [takeApplyWaiting_dissolveGroup]
  exact Mapped.ite (fun _ => h.trans (applyEdits_mapped _)) fun _ => h

theorem withdrawGroup_mapped {s : State} (h : s.edit.groupState ≠ .none) : Mapped s (withdrawGroup s).1 := by
  unfold withdrawGroup
  dsimp only
  exact groupEnd_mapped (Mapped.withdrawn h)

theorem discardNodes_mapped (ns : List Nat) (hns : ns.Nodup) (hlt : ∀ n ∈ ns, n < 2049) (s : State)
    (ho : ∀ n ∈ ns, (s.node n).openMark = true) : Mapped s (ns.foldl discardNode s) := by
  induction ns generalizing s with
  | nil => exact Mapped.refl s
  | cons n ns ih =>
    obtain ⟨hn, hns⟩ := List.nodup_cons.1 hns
    refine (Mapped.discard (hlt n (by simp)) (ho n (by simp))).trans
      (ih hns (fun m hm => hlt m (by simp [hm])) _ fun m hm => ?_)
    have hne : m ≠ n := fun e => hn (e ▸ hm)
    rw [node_discardNode, if_neg hne]
    exact ho m (by simp [hm])

theorem discardEdits_mapped (s : State) : Mapped s (discardEdits s) := by
  refine discardNodes_mapped _ (List.Nodup.filter _ List.nodup_range) (fun n hn => ?_) s fun n hn => ?_
  · exact mem_nodeIndices.1 (List.mem_filter.1 hn).1
  · exact (List.mem_filter.1 hn).2

/-! ### The swap -/

theorem swapSingles_mapped (ns : List Nat) (hlt : ∀ n ∈ ns, n < 2049) (s : State) :
    Mapped s (ns.foldl (swapNode false) s) := by
  refine Mapped.foldl ns (fun t n hn => ?_) s
  unfold swapNode
  exact Mapped.ite (fun _ => Mapped.ite (fun h => absurd h (by simp)) fun _ => Mapped.refl t) fun hg =>
    Mapped.ite (fun hv => Mapped.single (hlt n hn) (by simpa using hg) hv) fun _ => Mapped.refl t

theorem finishGroup_mapped {s t : State} (members : Nat) (h : Mapped s (disbanded t)) :
    Mapped s (finishGroup members t) := by
  have hraised : (dissolveGroup t).raise (.swapDone members) = dissolveGroup (t.raise (.swapDone members)) := rfl
  unfold finishGroup
  rw [hraised]
  exact groupEnd_mapped (h.thenRaise (.swapDone members))

theorem swapAll_of_not_ready {s : State} (h : s.edit.groupState ≠ .ready) :
    swapAll s = nodeIndices.foldl (swapNode false) s := by
  have hready : (s.edit.groupState == .ready) = false := by simpa using h
  simp only [swapAll, hready, Bool.false_eq_true, if_false]

theorem swapAll_of_ready {s : State} (h : s.edit.groupState = .ready) :
    swapAll s = startSolve (finishGroup s.edit.members (nodeIndices.foldl (swapNode true) s)) := by
  have hready : (s.edit.groupState == .ready) = true := by simpa using h
  simp only [swapAll, hready, if_true]

theorem swapAll_mapped (s : State) : Mapped s (swapAll s) := by
  by_cases h : s.edit.groupState = .ready
  · rw [swapAll_of_ready h]
    exact (finishGroup_mapped _ (Mapped.swapped h)).thenBegin
  · rw [swapAll_of_not_ready h]
    exact swapSingles_mapped nodeIndices (fun _ => mem_nodeIndices.1) s

/-! ### CLEAR MAP -/

/-- The emptying of the slots of a list, on a map without claims (R25, R87). -/
theorem proj_emptySlots (ps : List Slot) (s : State) (q : Slot) (h0 : ∀ p, (s.proj p).claimCount = 0) :
    ((ps.foldl (fun u p => emptyIfDone p u) s).proj q).claimCount = 0 ∧
      (((ps.foldl (fun u p => emptyIfDone p u) s).proj q).state = .retiring → (s.proj q).state = .retiring ∧ q ∉ ps) := by
  induction ps generalizing s with
  | nil => exact ⟨h0 q, fun h => ⟨h, by simp⟩⟩
  | cons p ps ih =>
    have hstep (x : Slot) : ((emptyIfDone p s).proj x).claimCount = 0 ∧
        (((emptyIfDone p s).proj x).state = .retiring → (s.proj x).state = .retiring ∧ x ≠ p) := by
      unfold emptyIfDone
      split
      · rw [proj_emptySlot]
        by_cases hx : x = p
        · subst hx; simp [Projector.retargeted, Projector.emptied, h0]
        · simp [hx, Projector.retargeted, h0]
      · next hnot => exact ⟨h0 x, fun hr => ⟨hr, fun hx => hnot ⟨hx ▸ hr, h0 p⟩⟩⟩
    obtain ⟨hcount, hstate⟩ := ih (emptyIfDone p s) fun x => (hstep x).1
    refine ⟨hcount, fun hr => ?_⟩
    obtain ⟨hr', hq⟩ := hstate hr
    obtain ⟨hr'', hp⟩ := (hstep q).2 hr'
    exact ⟨hr'', by simp [hp, hq]⟩

theorem clearMap_mapped (s : State) : Mapped s (clearMap s) := by
  have h0 (p : Slot) : ((emptyMap s).proj p).claimCount = 0 := by
    rw [emptyMap, proj_mapProj]
  have hslots (q : Slot) := proj_emptySlots slots (emptyMap s) q h0
  have hfold : Touches [.projectors, .raster, .channels, .loader, .attention] (emptyMap s)
      (slots.foldl (fun u p => emptyIfDone p u) (emptyMap s)) :=
    Touches.foldl (fun u p => emptyIfDone p u) (fun u p => emptyIfDone_touches p u) slots (emptyMap s)
  have hemptied : Mapped s (slots.foldl (fun u p => emptyIfDone p u) (emptyMap s)) := by
    refine Mapped.emptied ⟨by rw [hfold.dome]; rfl, by rw [hfold.dome]; rfl, fun h => ?_, hfold.solver, hfold.edit,
      fun q => ⟨(hslots q).1, fun hr => ((hslots q).2 hr).2 (mem_slots q)⟩⟩
    rw [State.CursorPlaced, hfold.dome]
    exact h
  exact Mapped.ite (fun _ => hemptied.trans (Mapped.of_touches (reportYield_touches _))) fun _ => hemptied

/-! ### The channels, the loader and the reports -/

theorem lockLoss_mapped (p : Slot) (s : State) : Mapped s (lockLoss p s) :=
  Mapped.ite (fun _ => takeLockFault_mapped p _ s) fun _ =>
    ((takeLockFault_mapped p _ s).trans (Mapped.of_touches (stopStream_touches p _))).trans
      (Mapped.of_touches (beginSequence_touches p _))

theorem attemptFails_mapped (p : Slot) (s : State) : Mapped s (attemptFails p s) :=
  Mapped.ite (fun _ => Mapped.of_touches (modChan_touches s p _)) fun _ =>
    ((Mapped.of_touches (modChan_touches s p _)).trans (takeLockFault_mapped p _ _)).thenRaise _

theorem takeFall_mapped (p : Slot) (s : State) : Mapped s (takeFall p s) := by
  unfold takeFall
  split
  · exact (attemptFails_mapped p s).thenBegin
  · exact (lockLoss_mapped p s).thenBegin
  all_goals exact Mapped.refl s

theorem takeLevel_mapped (p : Slot) (level : ReadyLevel) (s : State) : Mapped s (takeLevel p level s) := by
  have hchan (f : Channel → Channel) : Mapped s (s.modChan p f) := Mapped.of_touches (modChan_touches s p f)
  unfold takeLevel
  dsimp only
  split
  · split
    · exact (hchan _).trans (takeFaultStart_mapped p _)
    · exact (hchan _).trans (recoveryCheck_mapped p _)
  · exact hchan _

theorem restartOutput_mapped {p : Slot} {s t : State} (h : restartOutput p s = some t) : Mapped s t := by
  unfold restartOutput at h
  split at h
  · exact Option.some.inj h ▸ Mapped.of_touches (beginSequence_touches p s)
  · exact Option.some.inj h ▸ lockLoss_mapped p s
  all_goals exact absurd h (by simp)

theorem setLoader_mapped (s : State) (l : Loader) : Mapped s (s.setLoader l) := Mapped.of_touches (setLoader_touches s l)

theorem applyAtEnd_mapped (s : State) : Mapped s (applyAtEnd s) := by
  have happlied := applyEdits_mapped s
  unfold applyAtEnd
  split
  · next e => rw [e] at happlied; exact happlied.trans (setLoader_mapped _ _)
  · next e => rw [e] at happlied; exact happlied.trans (setLoader_mapped _ _)
  · next t e =>
    have hbusy : s.edit.groupState ≠ .none ∧ t = s := by
      unfold applyEdits at e
      split at e
      · split at e <;> simp at e
      · next hgroup => exact ⟨hgroup, (Prod.mk.inj e).1.symm⟩
    obtain ⟨hgroup, rfl⟩ := hbusy
    exact (Mapped.waits hgroup).trans (setLoader_mapped _ _)

theorem endDone_mapped (o : LoadOutcome) (s : State) : Mapped s (endDone o s) := by
  have hended := setLoader_mapped s (s.loader.ended o)
  unfold endDone
  exact Mapped.thenRaise (Mapped.ite (fun _ => hended.trans (applyAtEnd_mapped _)) fun _ => hended) _

theorem recordStored_mapped (d : Descriptor) (s : State) : Mapped s (recordStored d s) :=
  (setLoader_mapped s _).trans (Mapped.ite (fun _ => endDone_mapped _ _) fun _ => setLoader_mapped _ _)

theorem completeFetch_mapped (d : Descriptor) (result : FetchResult) (s : State) : Mapped s (completeFetch d result s) := by
  have hfault (o : LoadOutcome) (r : FaultReason) : Mapped s (endFaulted o r s) :=
    (setLoader_mapped s _).thenRaise _
  unfold completeFetch takeRecord
  split
  · split
    · next slot ring sector q pin _ =>
      have hset := editSetClaim_mapped (node := resolveNode ring sector) slot q pin (s := s)
        fun n hn => Or.inl (resolveNode_lt hn)
      split
      · next e => rw [e] at hset; exact hset.trans (recordStored_mapped d _)
      · exact hfault _ _
    · next slot ring sector _ =>
      have hdrop := editDropClaim_mapped (node := resolveNode ring sector) slot (s := s) fun n hn => resolveNode_lt hn
      split
      · next e => rw [e] at hdrop; exact hdrop.trans (recordStored_mapped d _)
      · exact hfault _ _
    · exact Mapped.ite (fun _ => endDone_mapped _ s) fun _ => recordStored_mapped d s
    · exact hfault _ _
  · exact hfault _ _
  · exact hfault _ _

theorem applyDrift_mapped (slot ring sector : Byte) (du dv : Int) (s : State) :
    Mapped s (applyDrift slot ring sector du dv s).1 := by
  unfold applyDrift
  split
  · exact Mapped.refl s
  · next n p c htarget =>
    have hn : n < 2049 := by
      unfold driftTarget at htarget
      split at htarget
      · next hresolved =>
        split at htarget
        · split at htarget
          · exact absurd htarget (by simp)
          · simp only [Option.some.injEq, Prod.mk.injEq] at htarget
            exact htarget.1 ▸ resolveNode_lt hresolved
        · exact absurd htarget (by simp)
      · exact absurd htarget (by simp)
    have hcorrected : Mapped s (hardInvalidate .normal n
        (s.modNode n fun r => r.modClaim p fun d => { d with nextTrim := some (c.drifted du dv) })) :=
      (Mapped.edit p (Or.inl hn) (claimsTrimmed _) (Or.inl fun _ => rfl)).trans
        (Mapped.invalidate .normal _ hn)
    unfold correctClaim
    exact Mapped.thenBegin (Mapped.ite (fun _ => hcorrected.thenRaise _) fun _ => hcorrected)

theorem applyLuma_mapped (slot : Byte) (v : Nat) (s : State) : Mapped s (applyLuma slot v s).1 := by
  have hstored (p : Slot) : Mapped s (storeLuminance p v s) := by
    unfold storeLuminance
    exact (Mapped.modProj s p (fun r => { r with luminance := if v = 0 then none else some v })
      ⟨Or.inl rfl, id, id⟩).trans (recomputeGains_mapped _)
  unfold applyLuma
  split
  · exact Mapped.refl s
  · split
    · exact Mapped.refl s
    · dsimp only
      exact hstored _

theorem runReport_mapped {apply : Report → State → Option (State × ReportOutcome)}
    (h : ∀ r t u o, apply r t = some (u, o) → Mapped t u) (s : State) : Mapped s (runReport apply s) := by
  have halign (t : State) (a : AlignPort) : Mapped t (t.setAlign a) := Mapped.of_touches (setAlign_touches t a)
  unfold runReport
  split
  · exact Mapped.refl s
  · split
    · exact Mapped.refl s
    · next e => exact ((halign s _).trans (h _ _ _ _ e)).trans (halign _ _)

/-! ### The cursor -/

theorem advanceCursor_placed (walk : Walk) {cursor remembered : Nat} (hcursor : cursor ≤ 2048) (hremembered : remembered < 64) :
    (advanceCursor walk cursor remembered).1 ≤ 2048 ∧ (advanceCursor walk cursor remembered).2 < 64 ∧
      ((advanceCursor walk cursor remembered).1 < 2048 →
        (advanceCursor walk cursor remembered).2 = sectorOf (advanceCursor walk cursor remembered).1) := by
  unfold advanceCursor
  split
  · next hz =>
    simp only [Config.zenith] at hz
    cases walk
    case east => simp only [ringOf, sectorOf, nodeIndex]; omega
    case west => simp only [ringOf, sectorOf, nodeIndex]; omega
    case north => dsimp only; split <;> simp only [ringOf, sectorOf, nodeIndex, Config.zenith] at * <;> omega
    case south => dsimp only; split <;> simp only [ringOf, sectorOf, nodeIndex] at * <;> omega
  · cases walk
    case south => simp only [sectorOf, nodeIndex]; omega
    all_goals simp only [sectorOf, Config.zenith]; omega

theorem advance_placed {s : State} (h : s.CursorPlaced) : s.advance.CursorPlaced := by
  obtain ⟨hcursor, hremembered, -⟩ := h
  exact advanceCursor_placed s.dome.walk hcursor hremembered

theorem setDome_mapped {s : State} {d : DomeMap} (hnodes : d.nodes = s.dome.nodes) (hfree : d.freeCount = s.dome.freeCount)
    (hcursor : s.CursorPlaced → { s with dome := d }.CursorPlaced) : Mapped s { s with dome := d } :=
  Mapped.stands ⟨hnodes, hfree, hcursor, rfl, rfl, fun _ => Projector.CountStands.refl _⟩

theorem advance_mapped (s : State) : Mapped s s.advance := setDome_mapped rfl rfl advance_placed

theorem placeCursor_mapped {n : Nat} (hn : n < 2049) (s : State) : Mapped s (s.placeCursor n) := by
  refine setDome_mapped rfl rfl fun ⟨_, hremembered, _⟩ => ⟨Nat.le_of_lt_succ hn, ?_, fun hz => ?_⟩
  · dsimp only
    split
    · exact Nat.mod_lt _ (by decide)
    · exact hremembered
  · exact if_pos hz

/-! ### The commands -/

theorem withSlot_mapped (b : Nat) (s : State) {run : Slot → State × Answer} (h : ∀ p, Mapped s (run p).1) :
    Mapped s (withSlot b s run).1 := by
  unfold withSlot
  split
  · exact Mapped.refl s
  · exact h _

theorem setClaimRequest_mapped (r : Request) (s : State) : Mapped s (setClaimRequest r s).1 := by
  have hset := editSetClaim_mapped (byteAt r.fields 3) ⟨wordAt r.fields 4, wordAt r.fields 6⟩
    (pinFieldOf (byteAt r.fields 8) (wordAt r.fields 9)) (s := s)
    fun n hn => addressedNode_addressable (mode := byteAt r.fields 0) (ring := byteAt r.fields 1)
      (sector := byteAt r.fields 2) hn
  exact Mapped.ite (fun _ => hset) fun _ => hset.trans (advance_mapped _)

theorem enrol_mapped (p : Slot) (w h ramp clock : Nat) (auto : Bool) {s : State} (hv : (s.proj p).state = .vacant) :
    Mapped s (enrol p w h ramp clock auto s) :=
  ((Mapped.modProj s p (fun r => r.enrolled w h ramp clock auto) ⟨Or.inr ⟨hv, rfl⟩, nofun, nofun⟩).trans (Mapped.of_touches (beginSequence_touches p _))).trans
    (Mapped.of_touches (modChan_touches _ p _))

theorem setFloor_mapped (k : Nat) (s : State) : Mapped s (setFloor k s) := by
  unfold setFloor
  exact ((Mapped.of_touches (setGain_touches s { s.gain with floor := k })).trans
    (Mapped.mapProj _ (fun r => { r with gainLive := max k r.gainLive }) fun r => ⟨Or.inl rfl, id, id⟩)).trans
    (recomputeGains_mapped _)

theorem setRamp_mapped (p : Slot) (ramp : Nat) (s : State) : Mapped s (setRamp p ramp s) :=
  (Mapped.modProj s p (fun r => { r with ramp := ramp }) ⟨Or.inl rfl, id, id⟩).trans (refreshClaimed_mapped p _)

theorem requestOf_mapped {c : Instr} {code : Nat} {run : Request → State → State × Answer}
    (h : requestOf c = some (code, run)) (r : Request) (s : State) : Mapped s (run r s).1 := by
  have hframe := requestOf_touches h r s
  cases c <;> cases h
  case readNode.refl =>
    have hmoved : Mapped s (if byteAt r.fields 0 = 0 then s else s.advance) :=
      Mapped.ite (fun _ => Mapped.refl s) fun _ => advance_mapped s
    unfold readNodeRequest
    dsimp only
    split <;> exact hmoved
  case placeCursor.refl =>
    unfold placeCursorRequest
    split
    · exact Mapped.refl s
    · next hn => exact placeCursor_mapped (resolveNode_lt hn) s
  case setWalk.refl => exact setDome_mapped rfl rfl id
  case clearMap.refl => unfold clearMapRequest; dsimp only; exact clearMap_mapped s
  case setClaim.refl => exact setClaimRequest_mapped r s
  case dropClaim.refl =>
    have hdrop := editDropClaim_mapped (byteAt r.fields 2) (s := s)
      fun n hn => resolveNode_lt (ring := byteAt r.fields 0) (sector := byteAt r.fields 1) hn
    unfold dropClaimRequest
    split <;> (next e => rw [e] at hdrop; exact hdrop)
  case applyEdits.refl =>
    have happly := applyEdits_mapped s
    unfold applyEditsRequest
    split
    · next e => rw [e] at happly; exact happly.thenBegin
    · next e => rw [e] at happly; exact happly
  case withdrawEdits.refl =>
    unfold withdrawEditsRequest
    split
    · exact Mapped.refl s
    · next hgroup => dsimp only; exact (withdrawGroup_mapped hgroup).thenBegin
  case discardEdits.refl => unfold discardEditsRequest; dsimp only; exact discardEdits_mapped s
  case enrolProjector.refl =>
    refine withSlot_mapped _ s fun p => ?_
    split
    · next hv => exact enrol_mapped p _ _ _ _ _ hv
    · exact Mapped.refl s
  case fadeProjector.refl =>
    refine withSlot_mapped _ s fun p => ?_
    dsimp only
    split
    · exact Mapped.refl s
    split
    · exact Mapped.refl s
    · next e =>
      split at e
      · exact (fadeIn_mapped e).thenBegin
      · exact (fadeOut_mapped e).thenBegin
  case retireProjector.refl =>
    refine withSlot_mapped _ s fun p => ?_
    split
    · exact Mapped.refl s
    · exact (retire_mapped p _ s).thenBegin
  case setRamp.refl =>
    refine withSlot_mapped _ s fun p => ?_
    split
    · exact Mapped.refl s
    · dsimp only; exact (setRamp_mapped p _ s).thenBegin
  case setGainFloor.refl => unfold setGainFloorRequest; dsimp only; exact setFloor_mapped _ s
  case restartOutput.refl =>
    refine withSlot_mapped _ s fun p => ?_
    split
    · exact Mapped.refl s
    split
    · exact Mapped.refl s
    · next e => exact (restartOutput_mapped e).thenBegin
  all_goals exact Mapped.of_touches hframe

theorem runRequest_mapped {code : Nat} {run : Request → State → State × Answer} (h : ∀ r t, Mapped t (run r t).1)
    (s : State) : Mapped s (runRequest code run s) :=
  runRequest_keeps (P := Mapped s) (fun t p ht => ht.trans (Mapped.of_touches (setPort_touches t p)))
    (fun r t ht => ht.trans (h r t)) (Mapped.refl s)

theorem afterReset_mapped (s : State) : Mapped s (afterReset s) :=
  Mapped.emptied ⟨rfl, rfl, fun _ => ⟨Nat.zero_le _, (by decide : 0 < 64), fun _ => rfl⟩, rfl, rfl, fun p => by
    simp [State.proj, afterReset, State.reset, Vector.get_eq_getElem, Projector.initial]⟩

/-- Every command changes the map by the listed changes. -/
theorem exec_mapped (c : Instr) {s t : State} (e : exec c s = .next t) : Mapped s t := by
  by_cases hreq : ∃ k, requestOf c = some k
  · obtain ⟨⟨code, run⟩, hk⟩ := hreq
    rcases exec_of_requestOf hk s with hs | hs <;> obtain rfl := Host.Outcome.next.inj (hs.symm.trans e)
    · exact runRequest_mapped (requestOf_mapped hk) s
    · exact Mapped.refl s
  have hframe := exec_touches c s t e
  cases c
  case resetLine => obtain rfl := Host.Outcome.next.inj e; exact afterReset_mapped s
  case resetDevice =>
    obtain rfl := Host.Outcome.next.inj e
    exact resetDevice_keeps (P := Mapped s) (fun t p ht => ht.trans (Mapped.of_touches (setPort_touches t p)))
      (Mapped.refl s) (afterReset_mapped s)
  case swap =>
    obtain rfl := Host.Outcome.next.inj e
    exact Mapped.ite (fun _ => Mapped.refl s) fun _ =>
      (Mapped.of_touches (setOwed_touches s { s.owed with swap := s.owed.swap - 1 })).trans (swapAll_mapped _)
  case fadeStep =>
    obtain rfl := Host.Outcome.next.inj e
    exact Mapped.ite (fun _ => Mapped.refl s) fun _ =>
      (Mapped.of_touches (setOwed_touches s { s.owed with fade := s.owed.fade - 1 })).trans
        (Mapped.foldl slots (fun t p _ => fadeStepSlot_mapped t p) _)
  case gainSlew =>
    obtain rfl := Host.Outcome.next.inj e
    exact Mapped.ite (fun _ => Mapped.refl s) fun _ =>
      (Mapped.mapProj s (fun r => { r with gainLive := slewed r.gainLive r.gainTarget s.gain.slew })
        fun r => ⟨Or.inl rfl, id, id⟩).trans
        (Mapped.of_touches (setOwed_touches (slewGains s) { s.owed with slew := s.owed.slew - 1 }))
  case solveCompletion =>
    obtain rfl := Host.Outcome.next.inj e
    split
    · exact Mapped.refl s
    · next hf => exact (Mapped.finish hf).thenBegin
  case lockIndicationFall =>
    obtain rfl := Host.Outcome.next.inj e
    exact Mapped.ite (fun _ => takeFall_mapped _ s) fun _ => Mapped.refl s
  case lockTimeout =>
    obtain rfl := Host.Outcome.next.inj e
    exact Mapped.ite (fun _ => (attemptFails_mapped _ s).thenBegin) fun _ => Mapped.refl s
  case windowCompletion p count =>
    have hcounted (k : Nat) : Mapped s (s.modChan p fun c => { c with lastCount := some k }) :=
      Mapped.of_touches (modChan_touches s p _)
    obtain rfl := Host.Outcome.next.inj e
    refine Mapped.ite (fun _ => Mapped.ite (fun _ => ?_) fun _ => ?_) fun _ => Mapped.refl s
    · exact ((hcounted _).trans (Mapped.of_touches (modChan_touches _ p _))).trans (recoveryCheck_mapped p _)
    · exact ((hcounted _).trans (attemptFails_mapped p _)).thenBegin
  case debounceExpiry =>
    obtain rfl := Host.Outcome.next.inj e
    split
    · exact Mapped.refl s
    · exact (takeLevel_mapped _ _ s).thenBegin
  case driftReport =>
    obtain rfl := Host.Outcome.next.inj e
    refine runReport_mapped (fun r t u o e => ?_) s
    cases r <;> simp only [Option.some.injEq, reduceCtorEq] at e
    have hfst := congrArg Prod.fst e
    dsimp only at hfst
    exact hfst ▸ applyDrift_mapped _ _ _ _ _ t
  case lumaReport =>
    obtain rfl := Host.Outcome.next.inj e
    refine runReport_mapped (fun r t u o e => ?_) s
    cases r <;> simp only [Option.some.injEq, reduceCtorEq] at e
    have hfst := congrArg Prod.fst e
    dsimp only at hfst
    exact hfst ▸ applyLuma_mapped _ _ t
  case fetchCompletion =>
    obtain rfl := Host.Outcome.next.inj e
    split
    · exact Mapped.ite (fun _ => (completeFetch_mapped _ _ s).thenBegin) fun _ => Mapped.refl s
    · exact Mapped.refl s
  all_goals first
    | exact Mapped.of_touches hframe
    | exact absurd ⟨_, rfl⟩ hreq

end Sys2Proof.Machine
end

section
/-! PROOF. The invariants of the Dome Map and of the Solve Queue (O53, O54): the form of the node store, the marks, the claim
lists, the conditions and the cursor; the queue, the queued fields and the solve in flight. -/

namespace Sys2Proof.Machine

open Sys2Proof Sys2Proof.Stating

set_option Elab.async false

/-! ### What every change of the map keeps -/

/-- The node store stays canonical and the cursor on its node. -/
theorem Mapped.form {s t : State} (h : Mapped s t) :
    (s.NodesCanonical → t.NodesCanonical) ∧ (s.CursorPlaced → t.CursorPlaced) := by
  have hrewrites {s t : State} (h : Rewrites s t) :
      (s.NodesCanonical → t.NodesCanonical) ∧ (s.CursorPlaced → t.CursorPlaced) :=
    ⟨h.canonical, fun hc => by rw [State.CursorPlaced, h.cursor, h.remembered]; exact hc⟩
  have hdisbanded {s t : State} (h : Rewrites s t) : Rewrites s (disbanded t) :=
    h.trans (Rewrites.of_touches (setEdit_touches t _))
  induction h with
  | stands h => exact ⟨fun hs => by rw [State.NodesCanonical, h.nodes]; exact hs, h.cursor⟩
  | emptied h => exact ⟨fun _ => by rw [State.NodesCanonical, h.nodes]; rfl, h.cursor⟩
  | invalidate cls s _ => exact hrewrites (hardInvalidate_rewrites cls _ s)
  | refresh s _ => exact hrewrites (queueNode_rewrites _ _ s)
  | begin s => exact hrewrites (startSolve_rewrites s)
  | finish _ => exact hrewrites (finishSolve_rewrites _ _)
  | retire p s => exact hrewrites (enterRetiring_rewrites p s)
  | edit p _ _ _ => exact hrewrites (Rewrites.modNode _ _ _)
  | opened _ _ => exact hrewrites (Rewrites.modNode _ _ _)
  | create q pin _ _ _ _ _ _ _ => exact hrewrites (allocateClaim_rewrites _ _ _)
  | free _ _ _ _ => exact hrewrites (freeClaim_rewrites _ _ _)
  | discard _ _ => exact hrewrites (discardNode_rewrites _ _)
  | sealed _ _ => exact hrewrites (sealOpenSet_rewrites _)
  | waits _ => exact hrewrites (Rewrites.of_touches (setEdit_touches _ _))
  | withdrawn _ => exact hrewrites (hdisbanded (Rewrites.foldl withdrawNode_rewrites _ _))
  | single _ _ _ => exact hrewrites ((Rewrites.putNode _ _ _).trans (reportSwap_rewrites _ _ _ _ _))
  | swapped _ => exact hrewrites (hdisbanded (Rewrites.foldl (swapNode_rewrites true) _ _))
  | trans _ _ ih ih' => exact ⟨fun hs => ih'.1 (ih.1 hs), fun hs => ih'.2 (ih.2 hs)⟩

/-! ### The node records after each change -/

theorem node_disbanded (s : State) (m : Nat) : (disbanded s).node m = s.node m := rfl

theorem mem_openSet {s : State} {n : Nat} : n ∈ s.openSet ↔ n < 2049 ∧ (s.node n).openMark = true := by
  rw [State.openSet, List.mem_filter, mem_nodeIndices]

theorem mem_group {s : State} {n : Nat} : n ∈ s.group ↔ n < 2049 ∧ (s.node n).groupMark = true := by
  rw [State.group, List.mem_filter, mem_nodeIndices]

theorem node_sealOpenSet (s : State) (m : Nat) :
    (sealOpenSet s).node m = if m ∈ s.openSet then (s.node m).sealed else s.node m := by
  unfold sealOpenSet
  dsimp only
  rw [node_setEdit, node_sealAll]

/-- A node as the entry of its projector into RETIRING leaves it (R86). -/
def Node.retiredBy (p : Slot) (r : Node) : Node := (r.withdrawnBy p).hardened .urgent

theorem node_enterRetiring (p : Slot) (s : State) (m : Nat) :
    (enterRetiring p s).node m = if m ∈ s.claimNodes p then (s.node m).retiredBy p else s.node m := by
  have hnode (u : State) : (recomputeGains u).node m = u.node m := (recomputeGains_touches u).node m
  have hinvalidated : (invalidateAll .urgent (s.claimNodes p)
      ((s.claimNodes p).foldl (withdrawAt p) (s.modProj p Projector.retired))).node m
      = if m ∈ s.claimNodes p then (s.node m).retiredBy p else s.node m := by
    rw [node_invalidateAll, node_withdrawAll, node_modProj]
    split <;> rfl
  unfold enterRetiring
  dsimp only
  rw [node_emptyIfDone]
  split
  · rw [hnode, hinvalidated]
  · exact hinvalidated

theorem node_startSolve (s : State) (m : Nat) :
    (startSolve s).node m = s.node m ∨ s.solver.flight = none ∧ (startSolve s).node m = (s.node m).taken := by
  have htaken (v : Solver) (n : Nat) (hf : s.solver.flight = none) :
      ((s.setSolver v).modNode n Node.taken).node m = s.node m ∨
        s.solver.flight = none ∧ ((s.setSolver v).modNode n Node.taken).node m = (s.node m).taken := by
    rw [node_modNode]
    by_cases hm : m = n
    · subst hm; exact Or.inr ⟨hf, if_pos rfl⟩
    · exact Or.inl (if_neg hm)
  unfold startSolve
  split
  · exact Or.inl rfl
  · next hf _ => exact htaken _ _ hf
  · next hf _ _ => exact htaken _ _ hf
  · exact Or.inl rfl

theorem node_finishSolve (f : Flight) (s : State) (m : Nat) :
    (finishSolve f s).node m = if m = f.node then
      (if (s.node f.node).dirty = true then (s.node f.node).discarded else (s.node f.node).stored f) else s.node m := by
  have hended (g : Node → Node) : ((s.setSolver { s.solver with flight := none }).modNode f.node g).node m
      = if m = f.node then g (s.node f.node) else s.node m := by rw [node_modNode]; rfl
  unfold finishSolve
  dsimp only
  split
  · exact hended _
  · have hgained : (if (s.node f.node).groupMark && !(s.node f.node).nextValid then
        memberGained ((s.setSolver { s.solver with flight := none }).modNode f.node (Node.stored f))
        else (s.setSolver { s.solver with flight := none }).modNode f.node (Node.stored f)).node m
        = if m = f.node then (s.node f.node).stored f else s.node m := by
      split
      · rw [memberGained, node_setEdit, hended]
      · exact hended _
    split
    · rw [node_raise, hgained]
    · exact hgained

theorem node_allocateClaim (c : Claim) (n : Nat) (s : State) (m : Nat) :
    (allocateClaim c n s).node m
      = if m = n then { s.node n with claims := insertClaim c (s.node n).claims } else s.node m := by
  unfold allocateClaim
  rw [node_setClaimCount, node_setFree, node_modNode]

theorem node_singleSwap (n : Nat) (s : State) (m : Nat) :
    (singleSwap n s).node m = if m = n then (s.node n).singleSwapped else s.node m := by
  unfold singleSwap
  dsimp only
  rw [node_reportSwap, node_putNode]

theorem node_swapAllNodes (s : State) (m : Nat) :
    (disbanded (nodeIndices.foldl (swapNode true) s)).node m
      = if m < 2049 then (s.node m).visited true else s.node m := by
  rw [node_disbanded, node_swapNodes]
  simp only [mem_nodeIndices]

theorem node_withdrawGroup (s : State) (m : Nat) :
    (disbanded (s.group.foldl withdrawNode s)).node m
      = if m ∈ s.group then (s.node m).reopened else s.node m := by
  rw [node_disbanded, node_withdrawNodes]

/-! ### The marks (R52) -/

theorem Node.openMark_withdrawnBy (p : Slot) (r : Node) : (r.withdrawnBy p).openMark = r.openMark := by
  unfold withdrawnBy; split
  · rfl
  · split <;> rfl

theorem Node.groupMark_withdrawnBy (p : Slot) (r : Node) : (r.withdrawnBy p).groupMark = r.groupMark := by
  unfold withdrawnBy; split
  · rfl
  · split <;> rfl

/-- A node as it stands, but for marks that are apart. -/
theorem Mapped.marksApart {s t : State} (h : Mapped s t) : s.MarksApart → t.MarksApart := by
  have hpointwise {s t : State} (h : ∀ m, (t.node m).openMark = (s.node m).openMark ∧
      (t.node m).groupMark = (s.node m).groupMark ∨ (t.node m).openMark = false ∨ (t.node m).groupMark = false)
      (hs : s.MarksApart) : t.MarksApart := fun m hm => by
    rcases h m with ⟨ho, hg⟩ | ho | hg
    · rw [ho, hg] at hm; exact hs m hm
    · rw [ho] at hm; exact absurd hm.1 (by simp)
    · rw [hg] at hm; exact absurd hm.2 (by simp)
  have hsame {s t : State} {c : Nat → Prop} [∀ m, Decidable (c m)] {g : Nat → Node → Node}
      (h : ∀ m, t.node m = if c m then g m (s.node m) else s.node m)
      (hg : ∀ m, c m → (g m (s.node m)).openMark = (s.node m).openMark ∧ (g m (s.node m)).groupMark = (s.node m).groupMark ∨
        (g m (s.node m)).openMark = false ∨ (g m (s.node m)).groupMark = false) : s.MarksApart → t.MarksApart :=
    hpointwise fun m => by
      rw [h m]
      split
      · next hc => exact hg m hc
      · exact Or.inl ⟨rfl, rfl⟩
  induction h with
  | stands h => exact hpointwise fun m => Or.inl (by rw [node_congr h.nodes]; exact ⟨rfl, rfl⟩)
  | emptied h => exact fun _ m hm => absurd hm.1 (by simp [State.node, h.nodes, Sparse.get, Node.initial])
  | @invalidate cls n s _ =>
    exact hsame (c := (· = n)) (g := fun _ r => r.hardened cls)
      (fun m => by rw [node_hardInvalidate]; split <;> simp_all) fun m _ => Or.inl ⟨rfl, rfl⟩
  | @refresh n s _ =>
    exact hsame (c := (· = n)) (g := fun _ r => r.softened)
      (fun m => by rw [node_softRefresh]; split <;> simp_all) fun m _ => Or.inl ⟨rfl, rfl⟩
  | begin s =>
    exact hpointwise fun m => Or.inl (by rcases node_startSolve s m with e | ⟨-, e⟩ <;> rw [e] <;> exact ⟨rfl, rfl⟩)
  | @finish f s _ =>
    exact hsame (c := (· = f.node)) (g := fun _ r => if r.dirty = true then r.discarded else r.stored f)
      (fun m => by rw [node_finishSolve]; split <;> simp_all)
      fun m _ => Or.inl (by split <;> exact ⟨rfl, rfl⟩)
  | retire p s =>
    exact hsame (c := (· ∈ s.claimNodes p)) (g := fun _ r => r.retiredBy p) (node_enterRetiring p s)
      fun m _ => Or.inl ⟨Node.openMark_withdrawnBy p _, Node.groupMark_withdrawnBy p _⟩
  | @edit n p f s _ _ _ =>
    exact hsame (c := (· = n)) (g := fun _ r => r.modClaim p f)
      (fun m => by rw [node_modNode]; split <;> simp_all) fun m _ => Or.inl ⟨rfl, rfl⟩
  | @opened n s _ hg =>
    exact hsame (c := (· = n)) (g := fun _ r => { r with openMark := true })
      (fun m => by rw [openNode, node_modNode]; split <;> simp_all) fun m hm => Or.inr (Or.inr (by subst hm; exact hg))
  | @create n p q pin s _ _ _ _ _ _ _ =>
    exact hsame (c := (· = n)) (g := fun _ r => { r with claims := insertClaim (newClaim p q pin) r.claims })
      (fun m => by rw [node_allocateClaim]; split <;> simp_all) fun m _ => Or.inl ⟨rfl, rfl⟩
  | @free n p c s _ _ _ _ =>
    exact hsame (c := (· = n)) (g := fun _ r => r.dropClaim p)
      (fun m => by rw [node_freeClaim]; split <;> simp_all) fun m _ => Or.inl ⟨rfl, rfl⟩
  | @discard n s _ _ =>
    exact hsame (c := (· = n)) (g := fun _ r => r.unedited)
      (fun m => by rw [node_discardNode]; split <;> simp_all) fun m _ => Or.inr (Or.inl rfl)
  | @sealed s _ _ =>
    exact hsame (c := (· ∈ s.openSet)) (g := fun _ r => r.sealed) (node_sealOpenSet s) fun m _ => Or.inr (Or.inl rfl)
  | waits _ => exact id
  | @withdrawn s _ =>
    exact hsame (c := (· ∈ s.group)) (g := fun _ r => r.reopened) (node_withdrawGroup s) fun m _ => Or.inr (Or.inr rfl)
  | @single n s _ _ _ =>
    exact hsame (c := (· = n)) (g := fun _ r => r.singleSwapped)
      (fun m => by rw [node_singleSwap]; split <;> simp_all) fun m _ => Or.inl ⟨rfl, rfl⟩
  | @swapped s _ =>
    refine hsame (c := (· < 2049)) (g := fun _ r => r.visited true) (node_swapAllNodes s) fun m _ => ?_
    unfold Node.visited
    split
    · exact Or.inr (Or.inr rfl)
    · split
      · exact Or.inl ⟨rfl, rfl⟩
      · exact Or.inl ⟨rfl, rfl⟩
  | trans _ _ ih ih' => exact fun hs => ih' (ih hs)

/-! ### Properties of node records that every change keeps -/

theorem Claim.SameWeights.sameLive {f : Claim → Claim} (h : Claim.SameWeights f) : Claim.SameLive f := fun c => by
  obtain ⟨hp, hn, -, hw, -⟩ := h c
  exact ⟨hp, hn, hw⟩

theorem Mapped.nodes {Q : Node → Prop} (hQ : NodeClosed Q) {s t : State} (h : Mapped s t) : AllNodes Q s → AllNodes Q t := by
  have hpointwise {s t : State} {c : Nat → Prop} [∀ m, Decidable (c m)] {g : Node → Node}
      (h : ∀ m, t.node m = if c m then g (s.node m) else s.node m) (hg : ∀ r, Q r → Q (g r)) (hs : AllNodes Q s) :
      AllNodes Q t := fun m => by
    rw [h m]
    split
    · exact hg _ (hs m)
    · exact hs m
  induction h with
  | stands h => exact fun hs => hs.congr h.nodes
  | emptied h => exact fun _ m => by rw [State.node, h.nodes]; exact hQ.initial
  | invalidate cls s _ => exact hardInvalidate_nodes hQ cls _
  | refresh s _ => exact softRefresh_nodes hQ _
  | begin s => exact startSolve_nodes hQ
  | finish _ => exact finishSolve_nodes hQ _
  | retire p s => exact enterRetiring_nodes hQ p
  | edit p _ hf _ => exact fun hs => hs.modNode _ _ (hQ.claim _ p _ hf.sameLive)
  | opened _ hg => exact fun hs => openNode_nodes hQ _ hs hg
  | @create n p q pin s _ _ hnone hlen _ _ _ =>
    refine fun hs m => ?_
    rw [node_allocateClaim]
    split
    · exact hQ.insert _ _ rfl hlen hnone (hs n)
    · exact hs m
  | @free n p c s _ _ hc hnew =>
    exact fun hs => freeClaim_nodes hQ p n hs (pendingNew_of_claimBy (hQ.ordered _ (hs n)) hc hnew)
  | discard _ _ => exact discardNode_nodes hQ _
  | @sealed s _ _ => exact hpointwise (node_sealOpenSet s) fun r hr => hQ.queued _ _ (hQ.invalidated _ (hQ.sealed r hr))
  | waits _ => exact id
  | @withdrawn s _ => exact hpointwise (node_withdrawGroup s) fun r hr => hQ.invalidated _ (hQ.withdrawn r hr)
  | @single n s _ _ _ =>
    refine fun hs m => ?_
    rw [node_singleSwap]
    split
    · exact hQ.single _ (hs n)
    · exact hs m
  | @swapped s _ =>
    refine hpointwise (node_swapAllNodes s) fun r hr => ?_
    unfold Node.visited
    split
    · exact hQ.group r hr
    · split
      · exact hQ.single r hr
      · exact hr
  | trans _ _ ih ih' => exact fun hs => ih' (ih hs)

/-! ### The claim lists (R5, R11) -/

/-- A claim list of at most four claims in ascending slot order. -/
def Node.Ordered (r : Node) : Prop := r.claims.length ≤ 4 ∧ r.claims.Pairwise fun c d => c.projector < d.projector

theorem ordered_map {f : Claim → Claim} (hf : ∀ c, (f c).projector = c.projector) {cs : List Claim}
    (h : cs.length ≤ 4 ∧ cs.Pairwise fun c d => c.projector < d.projector) :
    (cs.map f).length ≤ 4 ∧ (cs.map f).Pairwise fun c d => c.projector < d.projector :=
  ⟨by rw [List.length_map]; exact h.1, by simpa [List.pairwise_map, hf] using h.2⟩

theorem ordered_filter (keeps : Claim → Bool) {cs : List Claim}
    (h : cs.length ≤ 4 ∧ cs.Pairwise fun c d => c.projector < d.projector) :
    (cs.filter keeps).length ≤ 4 ∧ (cs.filter keeps).Pairwise fun c d => c.projector < d.projector :=
  ⟨(List.length_filter_le _ _).trans h.1, h.2.filter _⟩

theorem insertClaim_perm (c : Claim) (cs : List Claim) : (insertClaim c cs).Perm (c :: cs) := by
  induction cs with
  | nil => exact List.Perm.refl _
  | cons d cs ih =>
    unfold insertClaim
    split
    · exact List.Perm.refl _
    · exact (ih.cons d).trans (List.Perm.swap c d cs)

theorem insertClaim_ordered {c : Claim} {cs : List Claim} (h : cs.Pairwise fun c d => c.projector < d.projector)
    (hc : ∀ d ∈ cs, d.projector ≠ c.projector) : (insertClaim c cs).Pairwise fun c d => c.projector < d.projector := by
  induction cs with
  | nil => simp [insertClaim]
  | cons d cs ih =>
    obtain ⟨hd, hcs⟩ := List.pairwise_cons.1 h
    unfold insertClaim
    split
    · next hlt =>
      refine List.pairwise_cons.2 ⟨fun e he => ?_, h⟩
      rcases List.mem_cons.1 he with rfl | he
      · exact hlt
      · exact hlt.trans (hd e he)
    · next hlt =>
      refine List.pairwise_cons.2 ⟨fun e he => ?_, ih hcs fun e he => hc e (by simp [he])⟩
      rcases List.mem_cons.1 ((insertClaim_perm c cs).mem_iff.1 he) with rfl | he
      · exact lt_of_le_of_ne (not_lt.1 hlt) (hc d (by simp))
      · exact hd e he

theorem ordered_nodeClosed : NodeClosed Node.Ordered where
  initial := ⟨by decide, List.Pairwise.nil⟩
  ordered _ h := h.2
  queued _ _ h := h
  invalidated _ h := h
  taken _ h := h
  stored _ f h := ordered_map (f := fun c => { c with nextWeight := f.weightFor c.projector }) (fun _ => rfl) h
  discarded _ h := h
  claim r p f hf h := ordered_map (fun c => by split; exact (hf c).1; rfl) h
  drop _ _ _ h := ordered_filter _ h
  insert r c _ hlen hnone h := by
    refine ⟨?_, insertClaim_ordered h.2 (claimBy_eq_none_iff.1 hnone)⟩
    rw [(insertClaim_perm c r.claims).length_eq]
    exact hlen
  opened _ _ h := h
  sealed _ h := h
  withdrawn _ h := h
  unedited _ h := ordered_map (f := Claim.unedited) (fun _ => rfl) h
  single _ h := ordered_map (f := Claim.swapped) (fun _ => rfl) (ordered_filter (fun c => !c.leavesAtSingle) h)
  group _ h := ordered_map (f := fun c => c.promoted.swapped) (fun _ => rfl) (ordered_filter (fun c => !c.leavesAtGroup) h)

theorem listsOrdered_iff (s : State) : s.ListsOrdered ↔ AllNodes Node.Ordered s := Iff.rfl

/-! ### The conditions (R6) -/

/-- A condition is read from the weights of the live claims alone. -/
theorem conditionOf_congr {cs ds : List Claim}
    (h : (cs.filter Claim.live).map Claim.liveWeight = (ds.filter Claim.live).map Claim.liveWeight) :
    conditionOf cs = conditionOf ds := by
  have hempty (es : List Claim) : es.isEmpty = (es.map Claim.liveWeight).isEmpty := by cases es <;> rfl
  have hall (es : List Claim) : es.all (fun c => c.liveWeight == 0) = (es.map Claim.liveWeight).all (· == 0) := by
    rw [List.all_map]; rfl
  unfold conditionOf
  dsimp only
  rw [hempty, hall, h, ← hempty, ← hall]

theorem conditionOf_map {f : Claim → Claim}
    (hf : ∀ c, (f c).pendingNew = c.pendingNew ∧ (f c).liveWeight = c.liveWeight) (cs : List Claim) :
    conditionOf (cs.map f) = conditionOf cs := by
  refine conditionOf_congr ?_
  have hlive : Claim.live ∘ f = Claim.live := funext fun c => congrArg (!·) (hf c).1
  have hweight : Claim.liveWeight ∘ f = Claim.liveWeight := funext fun c => (hf c).2
  rw [List.filter_map, hlive, List.map_map, hweight]

theorem conditionOf_filter {keeps : Claim → Bool} {cs : List Claim} (hkeeps : ∀ c ∈ cs, keeps c = false → c.pendingNew = true) :
    conditionOf (cs.filter keeps) = conditionOf cs := by
  refine conditionOf_congr (congrArg _ ?_)
  rw [List.filter_filter]
  refine List.filter_congr fun c hc => ?_
  cases hk : keeps c
  · simp [Claim.live, hkeeps c hc hk]
  · simp

theorem conditionOf_insertClaim {c : Claim} (hc : c.pendingNew = true) (cs : List Claim) :
    conditionOf (insertClaim c cs) = conditionOf cs := by
  refine conditionOf_congr (congrArg _ ?_)
  have hlive : c.live = false := by simp [Claim.live, hc]
  induction cs with
  | nil => simp [insertClaim, hlive]
  | cons d cs ih =>
    unfold insertClaim
    split
    · rw [List.filter_cons_of_neg (by simp [hlive])]
    · rw [List.filter_cons, List.filter_cons, ih]

/-- An ordered list, with the condition that its live claims give. -/
def Node.ConditionFits (r : Node) : Prop := r.Ordered ∧ r.condition = conditionOf r.claims

theorem conditionFits_nodeClosed : NodeClosed Node.ConditionFits where
  initial := ⟨ordered_nodeClosed.initial, rfl⟩
  ordered _ h := h.1.2
  queued _ _ h := h
  invalidated _ h := h
  taken _ h := h
  stored r f h := ⟨ordered_nodeClosed.stored r f h.1, h.2.trans
    (conditionOf_map (f := fun c => { c with nextWeight := f.weightFor c.projector }) (fun _ => ⟨rfl, rfl⟩) _).symm⟩
  discarded _ h := h
  claim r p f hf h := by
    refine ⟨ordered_nodeClosed.claim r p f hf h.1, h.2.trans (conditionOf_map (fun c => ?_) _).symm⟩
    split
    · exact (hf c).2
    · exact ⟨rfl, rfl⟩
  drop r p hp h := by
    refine ⟨ordered_nodeClosed.drop r p hp h.1, h.2.trans (conditionOf_filter fun c hc hk => hp c hc ?_).symm⟩
    simpa using hk
  insert r c hc hlen hnone h :=
    ⟨ordered_nodeClosed.insert r c hc hlen hnone h.1, h.2.trans (conditionOf_insertClaim hc _).symm⟩
  opened _ _ h := h
  sealed _ h := h
  withdrawn _ h := h
  unedited r h := ⟨ordered_nodeClosed.unedited r h.1, h.2.trans (conditionOf_map (f := Claim.unedited) (fun _ => ⟨rfl, rfl⟩) _).symm⟩
  single r h := ⟨ordered_nodeClosed.single r h.1, rfl⟩
  group r h := ⟨ordered_nodeClosed.group r h.1, rfl⟩

theorem conditionsAgree_iff (s : State) : s.ConditionsAgree ↔ AllNodes Node.ConditionFits s :=
  ⟨fun h n => ⟨h.1 n, h.2 n⟩, fun h => ⟨fun n => (h n).1, fun n => (h n).2⟩⟩

/-- What every change of the map keeps, every step keeps. -/
theorem KeptByStep.of_mapped {inv : State → Prop} (hq : ∀ s cs, inv s → inv (s.setPending cs))
    (h : ∀ s t, Mapped s t → inv s → inv t) : KeptByStep inv :=
  KeptByStep.of_exec hq fun _ _ _ hs e => h _ _ (exec_mapped _ e) hs

/-- Settles O53, change by change of the map. -/
theorem stepKeepsMapSound : Obligations.StepKeepsMapSound := by
  unfold Obligations.StepKeepsMapSound
  refine ⟨KeptByStep.of_mapped (fun _ _ h => h) fun _ _ h => h.form.1,
    KeptByStep.of_mapped (fun _ _ h => h) fun _ _ h => h.marksApart,
    KeptByStep.of_mapped (fun _ _ h => h) fun _ _ h => h.nodes ordered_nodeClosed,
    KeptByStep.of_mapped (fun _ _ h => h) fun s t h hs => ?_,
    KeptByStep.of_mapped (fun _ _ h => h) fun _ _ h => h.form.2⟩
  rw [conditionsAgree_iff] at hs ⊢
  exact h.nodes conditionFits_nodeClosed hs

/-! ### The Solve Queue (R27 to R31) -/

/-- The queue stands, and the flags of every node with it; a node in flight may turn dirty. -/
theorem State.QueueAgrees.congr {s t : State} (hsolver : t.solver = s.solver)
    (h : ∀ n, (t.node n).queued = (s.node n).queued ∧ (t.node n).inFlight = (s.node n).inFlight ∧
      ((t.node n).dirty = true → (s.node n).dirty = true ∨ (s.node n).inFlight = true)) (hs : s.QueueAgrees) :
    t.QueueAgrees := by
  obtain ⟨hurgent, hnormal, hnodes⟩ := hs
  refine ⟨hsolver ▸ hurgent, hsolver ▸ hnormal, fun n => ?_⟩
  obtain ⟨hq, hi, hd⟩ := h n
  obtain ⟨hu, hn, hf, hdirty⟩ := hnodes n
  rw [hq, hi, hsolver]
  exact ⟨hu, hn, hf, fun ht => (hd ht).elim hdirty id⟩

theorem State.QueueAgrees.modNode {s : State} (hs : s.QueueAgrees) (n : Nat) (f : Node → Node)
    (hf : ∀ r, (f r).queued = r.queued ∧ (f r).inFlight = r.inFlight ∧
      ((f r).dirty = true → r.dirty = true ∨ r.inFlight = true)) : (s.modNode n f).QueueAgrees := by
  refine State.QueueAgrees.congr (s := s) rfl (fun m => ?_) hs
  rw [node_modNode]
  split
  · next hm => exact hm ▸ hf _
  · exact ⟨rfl, rfl, Or.inl⟩

theorem State.QueueAgrees.queueNode {s : State} (hs : s.QueueAgrees) (cls : QueueClass) (n : Nat) :
    (Machine.queueNode cls n s).QueueAgrees := by
  obtain ⟨hurgent, hnormal, hnodes⟩ := hs
  have hother (v : Solver) (q : Option QueueClass) (hu : v.urgent.Nodup) (hn : v.normal.Nodup)
      (hflight : v.flight = s.solver.flight) (hmu : ∀ m, m ≠ n → (m ∈ v.urgent ↔ m ∈ s.solver.urgent))
      (hmn : ∀ m, m ≠ n → (m ∈ v.normal ↔ m ∈ s.solver.normal)) (hnu : q = some .urgent ↔ n ∈ v.urgent)
      (hnn : q = some .normal ↔ n ∈ v.normal) :
      ((s.setSolver v).modNode n fun r => { r with queued := q }).QueueAgrees := by
    refine ⟨hu, hn, fun m => ?_⟩
    obtain ⟨hmurgent, hmnormal, hmflight, hmdirty⟩ := hnodes m
    rw [node_modNode, State.modNode_solver, State.setSolver_solver, hflight]
    by_cases hm : m = n
    · subst hm
      rw [if_pos rfl]
      exact ⟨hnu, hnn, hmflight, hmdirty⟩
    · rw [if_neg hm]
      exact ⟨hmurgent.trans (hmu m hm).symm, hmnormal.trans (hmn m hm).symm, hmflight, hmdirty⟩
  obtain ⟨hnurgent, hnnormal, -, -⟩ := hnodes n
  have happend {l : List Nat} (h : l.Nodup) (hn : n ∉ l) : (l ++ [n]).Nodup := by
    rw [List.nodup_append]
    exact ⟨h, by simp, by simpa using fun a ha (e : a = n) => hn (e ▸ ha)⟩
  unfold Machine.queueNode
  split
  · next hq =>
    refine hother _ _ hurgent (happend hnormal ?_) rfl (fun _ _ => Iff.rfl) (fun m hm => by simp [hm]) ?_ (by simp)
    · rw [← hnnormal, hq]; simp
    · rw [← hnurgent, hq]; simp
  · next hq =>
    refine hother _ _ (happend hurgent ?_) hnormal rfl (fun m hm => by simp [hm]) (fun _ _ => Iff.rfl) (by simp) ?_
    · rw [← hnurgent, hq]; simp
    · rw [← hnnormal, hq]; simp
  · next hq =>
    refine hother _ _ (happend hurgent ?_) (hnormal.erase n) rfl (fun m hm => by simp [hm])
      (fun m hm => List.mem_erase_of_ne hm) (by simp) ?_
    · rw [← hnurgent, hq]; simp
    · simp [hnormal.not_mem_erase]
  · exact ⟨hurgent, hnormal, hnodes⟩
  · exact ⟨hurgent, hnormal, hnodes⟩

theorem State.QueueAgrees.hardInvalidate {s : State} (hs : s.QueueAgrees) (cls : QueueClass) (n : Nat) :
    (Machine.hardInvalidate cls n s).QueueAgrees := by
  have hqueued := (hs.modNode n Node.invalidated fun r => ⟨rfl, rfl, fun h => by simpa [Node.invalidated] using h⟩).queueNode
    cls n
  unfold Machine.hardInvalidate
  dsimp only
  split
  · exact hqueued
  · exact hqueued

theorem State.QueueAgrees.startSolve {s : State} (hs : s.QueueAgrees) : (Machine.startSolve s).QueueAgrees := by
  obtain ⟨hurgent, hnormal, hnodes⟩ := hs
  have htaken (n : Nat) (u v : List Nat) (f : Flight) (hf : s.solver.flight = none) (hu : u.Nodup) (hv : v.Nodup)
      (hfn : f.node = n) (hmu : ∀ m, m ≠ n → (m ∈ u ↔ m ∈ s.solver.urgent))
      (hmv : ∀ m, m ≠ n → (m ∈ v ↔ m ∈ s.solver.normal)) (hnu : n ∉ u) (hnv : n ∉ v) :
      ((s.setSolver { urgent := u, normal := v, flight := some f }).modNode n Node.taken).QueueAgrees := by
    refine ⟨hu, hv, fun m => ?_⟩
    obtain ⟨hmurgent, hmnormal, hmflight, hmdirty⟩ := hnodes m
    rw [node_modNode, State.modNode_solver, State.setSolver_solver]
    by_cases hm : m = n
    · subst hm
      rw [if_pos rfl]
      exact ⟨by simp [Node.taken, hnu], by simp [Node.taken, hnv], by simp [Node.taken, hfn], fun _ => rfl⟩
    · rw [if_neg hm]
      refine ⟨hmurgent.trans (hmu m hm).symm, hmnormal.trans (hmv m hm).symm, hmflight.trans ?_, hmdirty⟩
      simp [hf, hfn, Ne.symm hm]
  unfold Machine.startSolve
  split
  · exact ⟨hurgent, hnormal, hnodes⟩
  · next n rest hf hu =>
    rw [hu] at hurgent
    obtain ⟨hn, hrest⟩ := List.nodup_cons.1 hurgent
    have hnv : n ∉ s.solver.normal := fun hv => by
      have := (hnodes n).1.2 (by simp [hu])
      rw [(hnodes n).2.1.2 hv] at this
      exact absurd this (by simp)
    exact htaken n rest s.solver.normal (s.flightOf n .urgent) hf hrest hnormal rfl (fun m hm => by simp [hu, hm])
      (fun _ _ => Iff.rfl) hn hnv
  · next n rest hf hu hv =>
    rw [hv] at hnormal
    obtain ⟨hn, hrest⟩ := List.nodup_cons.1 hnormal
    exact htaken n s.solver.urgent rest (s.flightOf n .normal) hf hurgent hrest rfl (fun _ _ => Iff.rfl)
      (fun m hm => by simp [hv, hm]) (by simp [hu]) hn
  · exact ⟨hurgent, hnormal, hnodes⟩

theorem solver_finishSolve (f : Flight) (s : State) : (finishSolve f s).solver = { s.solver with flight := none } := by
  unfold finishSolve
  dsimp only
  split
  · rfl
  · have hgained : (if (s.node f.node).groupMark && !(s.node f.node).nextValid then
        memberGained ((s.setSolver { s.solver with flight := none }).modNode f.node (Node.stored f))
        else (s.setSolver { s.solver with flight := none }).modNode f.node (Node.stored f)).solver
        = { s.solver with flight := none } := by split <;> rfl
    split
    · rw [State.raise_solver, hgained]
    · exact hgained

theorem State.QueueAgrees.finishSolve {s : State} (hs : s.QueueAgrees) {f : Flight} (hf : s.solver.flight = some f) :
    (Machine.finishSolve f s).QueueAgrees := by
  obtain ⟨hurgent, hnormal, hnodes⟩ := hs
  refine ⟨by rw [solver_finishSolve]; exact hurgent, by rw [solver_finishSolve]; exact hnormal, fun m => ?_⟩
  obtain ⟨hmurgent, hmnormal, hmflight, hmdirty⟩ := hnodes m
  rw [node_finishSolve, solver_finishSolve]
  by_cases hm : m = f.node
  · subst hm
    rw [if_pos rfl]
    split
    · exact ⟨hmurgent, hmnormal, by simp [Node.discarded], by simp [Node.discarded]⟩
    · next hd => exact ⟨hmurgent, hmnormal, by simp [Node.stored], fun h => absurd h hd⟩
  · rw [if_neg hm]
    refine ⟨hmurgent, hmnormal, hmflight.trans ?_, hmdirty⟩
    simp [hf, Ne.symm hm]

theorem State.QueueAgrees.invalidateAll {s : State} (hs : s.QueueAgrees) (cls : QueueClass) (ns : List Nat) :
    (Machine.invalidateAll cls ns s).QueueAgrees :=
  foldl_keeps State.QueueAgrees _ (fun _ n h => h.hardInvalidate cls n) ns s hs

theorem Node.queue_withdrawnBy (p : Slot) (r : Node) : (r.withdrawnBy p).queued = r.queued ∧
    (r.withdrawnBy p).inFlight = r.inFlight ∧ (r.withdrawnBy p).dirty = r.dirty := by
  unfold withdrawnBy
  split
  · exact ⟨rfl, rfl, rfl⟩
  · split <;> exact ⟨rfl, rfl, rfl⟩

theorem State.QueueAgrees.enterRetiring {s : State} (hs : s.QueueAgrees) (p : Slot) : (Machine.enterRetiring p s).QueueAgrees := by
  have hwithdrawn : ((s.claimNodes p).foldl (withdrawAt p) (s.modProj p Projector.retired)).QueueAgrees := by
    refine State.QueueAgrees.congr (s := s) ?_ (fun m => ?_) hs
    · exact (Touches.foldl (withdrawAt p) (withdrawAt_touches p) _ _).solver
    · rw [node_withdrawAll, node_modProj]
      split
      · obtain ⟨hq, hi, hd⟩ := Node.queue_withdrawnBy p (s.node m)
        exact ⟨hq, hi, fun h => Or.inl (hd ▸ h)⟩
      · exact ⟨rfl, rfl, Or.inl⟩
  have hinvalidated := hwithdrawn.invalidateAll .urgent (s.claimNodes p)
  have helsewhere {fs : List Field} {u v : State} (h : Touches fs u v) (hd : fs.contains Field.dome = false)
      (hv : fs.contains Field.solver = false) (hu : u.QueueAgrees) : v.QueueAgrees :=
    State.QueueAgrees.congr (h.solver hv) (fun m => by rw [h.node m hd]; exact ⟨rfl, rfl, Or.inl⟩) hu
  unfold Machine.enterRetiring
  dsimp only
  refine helsewhere (emptyIfDone_touches p _) rfl rfl ?_
  split
  · exact helsewhere (recomputeGains_touches _) rfl rfl hinvalidated
  · exact hinvalidated

theorem State.QueueAgrees.setEdit {s : State} (hs : s.QueueAgrees) (e : EditControl) : (s.setEdit e).QueueAgrees :=
  State.QueueAgrees.congr (s := s) rfl (fun _ => ⟨rfl, rfl, Or.inl⟩) hs

theorem State.QueueAgrees.sealOpenSet {s : State} (hs : s.QueueAgrees) : (Machine.sealOpenSet s).QueueAgrees := by
  have hsealed := foldl_keeps State.QueueAgrees sealNode (fun u n hu =>
    State.QueueAgrees.hardInvalidate (hu.modNode n (fun r => { r with openMark := false, groupMark := true })
      fun _ => ⟨rfl, rfl, Or.inl⟩) .normal n) s.openSet s hs
  unfold Machine.sealOpenSet
  dsimp only
  exact hsealed.setEdit _

theorem solver_withdrawGroup (s : State) : (disbanded (s.group.foldl withdrawNode s)).solver = s.solver := by
  rw [disbanded, State.setEdit_solver]
  exact (Touches.foldl withdrawNode withdrawNode_touches s.group s).solver

theorem solver_swapAllNodes (s : State) : (disbanded (nodeIndices.foldl (swapNode true) s)).solver = s.solver := by
  rw [disbanded, State.setEdit_solver]
  exact (Touches.foldl (swapNode true) (swapNode_touches true) nodeIndices s).solver

theorem Mapped.queueAgrees {s t : State} (h : Mapped s t) : s.QueueAgrees → t.QueueAgrees := by
  have hpointwise {s t : State} (hv : t.solver = s.solver) {c : Nat → Prop} [∀ m, Decidable (c m)] {g : Nat → Node}
      (h : ∀ m, t.node m = if c m then g m else s.node m) (hg : ∀ m, c m → (g m).queued = (s.node m).queued ∧
        (g m).inFlight = (s.node m).inFlight ∧
        ((g m).dirty = true → (s.node m).dirty = true ∨ (s.node m).inFlight = true)) : s.QueueAgrees → t.QueueAgrees :=
    State.QueueAgrees.congr hv fun m => by
      rw [h m]
      split
      · next hc => exact hg m hc
      · exact ⟨rfl, rfl, Or.inl⟩
  induction h with
  | stands h => exact State.QueueAgrees.congr h.solver fun m => by rw [node_congr h.nodes]; exact ⟨rfl, rfl, Or.inl⟩
  | emptied h =>
    refine fun _ => ⟨by simp [h.solver], by simp [h.solver], fun m => ?_⟩
    rw [State.node, h.nodes, h.solver]
    simp [Sparse.get, Node.initial]
  | invalidate cls s _ => exact fun hs => hs.hardInvalidate cls _
  | refresh s _ => exact fun hs => hs.queueNode .normal _
  | begin s => exact State.QueueAgrees.startSolve
  | finish hf => exact fun hs => hs.finishSolve hf
  | retire p s => exact fun hs => hs.enterRetiring p
  | edit p _ _ _ => exact fun hs => hs.modNode _ _ fun _ => ⟨rfl, rfl, Or.inl⟩
  | opened _ _ => exact fun hs => hs.modNode _ _ fun _ => ⟨rfl, rfl, Or.inl⟩
  | create q pin _ _ _ _ _ _ _ =>
    exact hpointwise (allocateClaim_touches _ _ _).solver (node_allocateClaim _ _ _) fun m hm => by
      subst hm; exact ⟨rfl, rfl, Or.inl⟩
  | free _ _ _ _ =>
    exact hpointwise (freeClaim_touches _ _ _).solver (node_freeClaim _ _ _) fun m hm => by
      subst hm; exact ⟨rfl, rfl, Or.inl⟩
  | discard _ _ =>
    exact hpointwise (discardNode_touches _ _).solver (node_discardNode _ _) fun m hm => by
      subst hm; exact ⟨rfl, rfl, Or.inl⟩
  | @sealed s _ _ => exact fun hs => hs.sealOpenSet
  | waits _ => exact id
  | @withdrawn s _ =>
    exact hpointwise (solver_withdrawGroup s) (node_withdrawGroup s) fun m _ => ⟨rfl, rfl, fun h =>
      by simpa [Node.reopened, Node.invalidated] using h⟩
  | @single n s _ _ _ =>
    exact hpointwise (singleSwap_touches n s).solver (node_singleSwap n s) fun m hm => by
      subst hm; exact ⟨rfl, rfl, Or.inl⟩
  | @swapped s _ =>
    refine hpointwise (solver_swapAllNodes s) (node_swapAllNodes s) fun m _ => ?_
    unfold Node.visited
    split
    · exact ⟨rfl, rfl, Or.inl⟩
    · split <;> exact ⟨rfl, rfl, Or.inl⟩
  | trans _ _ ih ih' => exact fun hs => ih' (ih hs)

/-- Settles O54, change by change of the map. -/
theorem stepKeepsSolveQueue : Obligations.StepKeepsSolveQueue :=
  KeptByStep.of_mapped (fun _ _ h => h) fun _ _ h => h.queueAgrees

end Sys2Proof.Machine
end

section
/-! PROOF. The sealed group (O55): no record stands beyond Z, M counts the members and the ready count the ready ones. -/

namespace Sys2Proof.Machine

open Sys2Proof Sys2Proof.Stating

set_option Elab.async false

/-! ### No record beyond Z (R1) -/

/-- What confines the map to its 2049 nodes: the indices that the part itself holds are indices of nodes. -/
def State.Confined (s : State) : Prop := s.NodesBounded ∧ s.CursorPlaced ∧ s.QueueAgrees

theorem State.Addressable.lt {s : State} {n : Nat} (h : s.Addressable n) (hs : s.CursorPlaced) : n < 2049 := by
  rcases h with h | rfl
  · exact h
  · exact Nat.lt_succ_of_le hs.1

/-- A node that carries a mark that the initial record lacks is a node of the map. -/
theorem State.NodesBounded.lt {s : State} (hs : s.NodesBounded) {n : Nat} (h : s.node n ≠ Node.initial) : n < 2049 :=
  not_le.1 fun hn => h (hs n hn)

theorem State.NodesBounded.claimed_lt {s : State} (hs : s.NodesBounded) {n : Nat} {c : Claim}
    (hc : c ∈ (s.node n).claims) : n < 2049 :=
  hs.lt fun h => by rw [h] at hc; exact absurd hc (by simp [Node.initial])

theorem State.NodesBounded.flight_lt {s : State} (hs : s.NodesBounded) (hq : s.QueueAgrees) {f : Flight}
    (hf : s.solver.flight = some f) : f.node < 2049 := by
  have hflight : (s.node f.node).inFlight = true := (hq.2.2 f.node).2.2.1.2 (by rw [hf]; rfl)
  exact hs.lt fun h => by rw [h] at hflight; exact absurd hflight (by decide)

/-- The one node that a beginning solve changes comes out of the queue. -/
theorem node_startSolve_of_unqueued {s : State} (hq : s.QueueAgrees) {m : Nat} (hm : (s.node m).queued = none) :
    (startSolve s).node m = s.node m := by
  have hne {n : Nat} (hn : n ∈ s.solver.urgent ∨ n ∈ s.solver.normal) : m ≠ n := by
    rintro rfl
    rcases hn with hn | hn
    · have := (hq.2.2 m).1.2 hn; rw [hm] at this; exact absurd this (by simp)
    · have := (hq.2.2 m).2.1.2 hn; rw [hm] at this; exact absurd this (by simp)
  unfold startSolve
  split
  · rfl
  · next hu => rw [node_modNode, if_neg (hne (Or.inl (by rw [hu]; simp)))]; rfl
  · next hn => rw [node_modNode, if_neg (hne (Or.inr (by rw [hn]; simp)))]; rfl
  · rfl

theorem Mapped.confined {s t : State} (h : Mapped s t) : s.Confined → t.Confined := by
  have hat {s t : State} {n : Nat} (hn : n < 2049) (h : ∀ m, m ≠ n → t.node m = s.node m) (hs : s.NodesBounded) :
      t.NodesBounded := fun m hm => (h m (by omega)).trans (hs m hm)
  have hwhere {s t : State} {c : Nat → Prop} [∀ m, Decidable (c m)] {g : Nat → Node} (hc : ∀ m, c m → m < 2049)
      (h : ∀ m, t.node m = if c m then g m else s.node m) (hs : s.NodesBounded) : t.NodesBounded := fun m hm => by
    rw [h m, if_neg fun hcm => absurd (hc m hcm) (not_lt.2 hm)]
    exact hs m hm
  rintro ⟨hs, hc, hq⟩
  refine ⟨?_, h.form.2 hc, h.queueAgrees hq⟩
  induction h with
  | stands h => exact fun m hm => (node_congr h.nodes m).trans (hs m hm)
  | emptied h => exact fun m _ => by rw [State.node, h.nodes]; rfl
  | invalidate cls s hn => exact hat hn (fun m hm => by rw [node_hardInvalidate, if_neg hm]) hs
  | refresh s hn => exact hat hn (fun m hm => by rw [node_softRefresh, if_neg hm]) hs
  | begin s =>
    exact fun m hm => (node_startSolve_of_unqueued hq (by rw [hs m hm]; rfl)).trans (hs m hm)
  | finish hf => exact hat (hs.flight_lt hq hf) (fun m hm => by rw [node_finishSolve, if_neg hm]) hs
  | retire p s => exact hwhere (fun m hm => (mem_claimNodes.1 hm).1) (node_enterRetiring p s) hs
  | edit p hn _ _ => exact hat (hn.lt hc) (fun m hm => by rw [node_modNode, if_neg hm]) hs
  | opened hn _ => exact hat (hn.lt hc) (fun m hm => by rw [openNode, node_modNode, if_neg hm]) hs
  | create q pin hn _ _ _ _ _ _ => exact hat (hn.lt hc) (fun m hm => by rw [node_allocateClaim, if_neg hm]) hs
  | free hn _ _ _ => exact hat hn (fun m hm => by rw [node_freeClaim, if_neg hm]) hs
  | discard hn _ => exact hat hn (fun m hm => by rw [node_discardNode, if_neg hm]) hs
  | @sealed s _ _ => exact hwhere (fun m hm => (mem_openSet.1 hm).1) (node_sealOpenSet s) hs
  | waits _ => exact hs
  | @withdrawn s _ => exact hwhere (fun m hm => (mem_group.1 hm).1) (node_withdrawGroup s) hs
  | @single n s hn _ _ => exact hat hn (fun m hm => by rw [node_singleSwap, if_neg hm]) hs
  | @swapped s _ => exact hwhere (fun _ hm => hm) (node_swapAllNodes s) hs
  | trans hst _ ih ih' =>
    exact ih' (ih hs hc hq) (hst.form.2 hc) (hst.queueAgrees hq)

/-! ### Counting nodes -/

/-- The nodes whose records have a property, counted. -/
def State.tally (s : State) (keeps : Node → Bool) : Nat := nodeIndices.countP fun n => keeps (s.node n)

theorem State.tally_eq (s : State) (keeps : Node → Bool) :
    s.tally keeps = (nodeIndices.filter fun n => keeps (s.node n)).length := List.countP_eq_length_filter

theorem tally_congr {s t : State} {keeps : Node → Bool} (h : ∀ m, keeps (t.node m) = keeps (s.node m)) :
    t.tally keeps = s.tally keeps := List.countP_congr fun m _ => by rw [h m]

theorem tally_eq_zero {s : State} {keeps : Node → Bool} (h : ∀ m, m < 2049 → keeps (s.node m) = false) :
    s.tally keeps = 0 :=
  List.countP_eq_zero.2 fun m hm => by simp [h m (mem_nodeIndices.1 hm)]

theorem eq_false_of_tally {s : State} {keeps : Node → Bool} (h : s.tally keeps = 0) {m : Nat} (hm : m < 2049) :
    keeps (s.node m) = false := by
  simpa using List.countP_eq_zero.1 h m (mem_nodeIndices.2 hm)

/-- A sum over a list changes with one entry of it as that entry does. -/
theorem sum_map_change {l : List Nat} (hl : l.Nodup) {n : Nat} (hn : n ∈ l) {f g : Nat → Nat}
    (h : ∀ m, m ≠ n → g m = f m) : (l.map g).sum + f n = (l.map f).sum + g n := by
  induction l with
  | nil => exact absurd hn (by simp)
  | cons m l ih =>
    obtain ⟨hm, hl⟩ := List.nodup_cons.1 hl
    simp only [List.map_cons, List.sum_cons]
    rcases List.mem_cons.1 hn with rfl | hn
    · rw [List.map_congr_left fun k hk => h k fun e => hm (e ▸ hk)]
      omega
    · have := ih hl hn
      rw [h m fun e => hm (e ▸ hn)]
      omega

theorem nodup_nodeIndices : nodeIndices.Nodup := List.nodup_range

theorem countP_eq_sum (keeps : Nat → Bool) (l : List Nat) : l.countP keeps = (l.map fun n => (keeps n).toNat).sum := by
  induction l with
  | nil => rfl
  | cons n l ih => rw [List.countP_cons, ih, List.map_cons, List.sum_cons]; cases keeps n <;> simp +arith

/-- One node record changed, the tally changes with it. -/
theorem tally_change {s t : State} {n : Nat} (hn : n < 2049) (h : ∀ m, m ≠ n → t.node m = s.node m) (keeps : Node → Bool) :
    t.tally keeps + (keeps (s.node n)).toNat = s.tally keeps + (keeps (t.node n)).toNat := by
  unfold State.tally
  rw [countP_eq_sum, countP_eq_sum]
  exact sum_map_change (f := fun m => (keeps (s.node m)).toNat) (g := fun m => (keeps (t.node m)).toNat)
    nodup_nodeIndices (mem_nodeIndices.2 hn) fun m hm => by rw [h m hm]

theorem tally_pos {s : State} {keeps : Node → Bool} {n : Nat} (hn : n < 2049) (h : keeps (s.node n) = true) :
    0 < s.tally keeps :=
  List.countP_pos_iff.2 ⟨n, mem_nodeIndices.2 hn, h⟩

/-! ### The counts of the group (R52, R61) -/

/-- A member whose next weights are valid. -/
def Node.ready (r : Node) : Bool := r.groupMark && r.nextValid

theorem ready_le (s : State) : s.tally Node.ready ≤ s.tally Node.groupMark :=
  List.countP_mono_left fun n _ h => by simp only [Node.ready, Bool.and_eq_true] at h; exact h.1

/-- A ready count short of the members, where a member is not ready. -/
theorem ready_lt {s : State} {n : Nat} (hn : n < 2049) (hg : (s.node n).groupMark = true)
    (hv : (s.node n).nextValid = false) : s.tally Node.ready < s.tally Node.groupMark := by
  have hput : ∀ m, m ≠ n → (s.putNode n Node.initial).node m = s.node m := fun m hm => by
    rw [node_putNode, if_neg hm]
  have hready := tally_change hn hput Node.ready
  have hmember := tally_change hn hput Node.groupMark
  have hle := ready_le (s.putNode n Node.initial)
  have hunready : (s.node n).ready = false := by simp [Node.ready, hv]
  have hinitial : Node.initial.ready = false ∧ Node.initial.groupMark = false := ⟨rfl, rfl⟩
  rw [node_putNode, if_pos rfl, hinitial.1, hunready] at hready
  rw [node_putNode, if_pos rfl, hinitial.2, hg] at hmember
  simp only [Bool.toNat_false, Bool.toNat_true] at hready hmember
  omega

/-- The fields of Edit Control fit a number of members and of ready members (R52, R61, R65). -/
def EditControl.Fits (e : EditControl) (members ready : Nat) : Prop :=
  e.members = members ∧ e.readyCount = ready ∧ (e.groupState = .none ↔ e.members = 0) ∧
    (e.groupState = .ready ↔ e.members ≠ 0 ∧ e.readyCount = e.members) ∧ (e.applyWaiting = true → e.groupState ≠ .none)

/-- The group's counts are those of its nodes. -/
def State.GroupCounted (s : State) : Prop := s.edit.Fits (s.tally Node.groupMark) (s.tally Node.ready)

theorem groupAgrees_iff (s : State) : s.GroupAgrees ↔ s.Confined ∧ s.GroupCounted := by
  unfold State.GroupAgrees State.Confined State.GroupCounted EditControl.Fits
  rw [State.tally_eq, State.tally_eq]
  simp only [and_assoc]
  exact Iff.rfl

theorem EditControl.fits_disbanded :
    EditControl.Fits { groupState := .none, members := 0, readyCount := 0, applyWaiting := false } 0 0 :=
  ⟨rfl, rfl, by simp, by simp, by simp⟩

/-- No node is a member: the counts are 0. -/
theorem GroupCounted.of_no_members {s : State} (h : ∀ m, m < 2049 → (s.node m).groupMark = false)
    (he : s.edit = { groupState := .none, members := 0, readyCount := 0, applyWaiting := false }) : s.GroupCounted := by
  have hmembers : s.tally Node.groupMark = 0 := tally_eq_zero h
  have hready : s.tally Node.ready = 0 := Nat.le_zero.1 (hmembers ▸ ready_le s)
  rw [State.GroupCounted, hmembers, hready, he]
  exact EditControl.fits_disbanded

/-- Edit Control and the marks that it counts stand. -/
theorem State.GroupCounted.congr {s t : State} (hs : s.GroupCounted) (he : t.edit = s.edit)
    (h : ∀ m, (t.node m).groupMark = (s.node m).groupMark ∧ (t.node m).ready = (s.node m).ready) : t.GroupCounted := by
  rw [State.GroupCounted, he, tally_congr fun m => (h m).1, tally_congr fun m => (h m).2]
  exact hs

theorem State.GroupCounted.none_iff {s : State} (hs : s.GroupCounted) :
    s.edit.groupState = .none ↔ ∀ m, m < 2049 → (s.node m).groupMark = false := by
  obtain ⟨hmembers, -, hnone, -, -⟩ := hs
  rw [hnone, hmembers]
  exact ⟨fun h m hm => eq_false_of_tally h hm, tally_eq_zero⟩

theorem edit_queueNode (cls : QueueClass) (n : Nat) (s : State) : (queueNode cls n s).edit = s.edit :=
  (queueNode_touches cls n s).edit

theorem edit_hardInvalidate (cls : QueueClass) (n : Nat) (s : State) :
    (hardInvalidate cls n s).edit = if (s.node n).ready = true then (memberLost s).edit else s.edit := by
  unfold hardInvalidate Node.ready
  dsimp only
  split
  · rw [memberLost, memberLost, State.setEdit_edit, State.setEdit_edit, edit_queueNode]; rfl
  · exact edit_queueNode _ _ _

theorem State.GroupCounted.hardInvalidate {s : State} (hs : s.GroupCounted) (cls : QueueClass) {n : Nat} (hn : n < 2049) :
    (hardInvalidate cls n s).GroupCounted := by
  have helse : ∀ m, m ≠ n → (Machine.hardInvalidate cls n s).node m = s.node m := fun m hm => by
    rw [node_hardInvalidate, if_neg hm]
  have hat : (Machine.hardInvalidate cls n s).node n = (s.node n).hardened cls := by rw [node_hardInvalidate, if_pos rfl]
  have hmembers := tally_change hn helse Node.groupMark
  have hready := tally_change hn helse Node.ready
  have hle := ready_le s
  rw [hat] at hmembers hready
  obtain ⟨hm, hr, hnone, hready', hwaits⟩ := hs
  have hunready : ((s.node n).hardened cls).ready = false := by simp [Node.ready, Node.hardened, Node.invalidated]
  have hmark : ((s.node n).hardened cls).groupMark = (s.node n).groupMark := rfl
  rw [hunready, Bool.toNat_false] at hready
  rw [hmark] at hmembers
  unfold State.GroupCounted
  rw [edit_hardInvalidate]
  cases hn : (s.node n).ready
  case false =>
    rw [hn, Bool.toNat_false] at hready
    rw [if_neg (by simp), Nat.add_right_cancel hmembers, Nat.add_right_cancel hready]
    exact ⟨hm, hr, hnone, hready', hwaits⟩
  case true =>
    rw [hn, Bool.toNat_true] at hready
    rw [if_pos rfl, Nat.add_right_cancel hmembers]
    simp only [memberLost, State.setEdit_edit, EditControl.Fits]
    refine ⟨hm, by omega, ?_, ?_, fun hw => ?_⟩
    · split
      · next hg => simp [hg, ← hnone]
      · exact hnone
    · split
      · next hg => simp; omega
      · next hg => simp only [hg, false_iff]; omega
    · split
      · simp
      · exact hwaits hw

theorem edit_finishSolve (f : Flight) (s : State) : (finishSolve f s).edit =
    if (s.node f.node).dirty = true then s.edit
    else if ((s.node f.node).groupMark && !(s.node f.node).nextValid) = true then (memberGained s).edit else s.edit := by
  have hgained : (if (s.node f.node).groupMark && !(s.node f.node).nextValid then
      memberGained ((s.setSolver { s.solver with flight := none }).modNode f.node (Node.stored f))
      else (s.setSolver { s.solver with flight := none }).modNode f.node (Node.stored f)).edit
      = if ((s.node f.node).groupMark && !(s.node f.node).nextValid) = true then (memberGained s).edit else s.edit := by
    split <;> rfl
  unfold finishSolve
  dsimp only
  split
  · rfl
  · split
    · rw [State.raise_edit, hgained]
    · exact hgained

theorem State.GroupCounted.finishSolve {s : State} (hs : s.GroupCounted) {f : Flight} (hn : f.node < 2049) :
    (finishSolve f s).GroupCounted := by
  have helse : ∀ m, m ≠ f.node → (Machine.finishSolve f s).node m = s.node m := fun m hm => by
    rw [node_finishSolve, if_neg hm]
  have hat := node_finishSolve f s f.node
  have hedit := edit_finishSolve f s
  rw [if_pos rfl] at hat
  by_cases hd : (s.node f.node).dirty = true
  · rw [if_pos hd] at hat hedit
    refine hs.congr hedit fun m => ?_
    by_cases hm : m = f.node
    · rw [hm, hat]; exact ⟨rfl, rfl⟩
    · rw [helse m hm]; exact ⟨rfl, rfl⟩
  rw [if_neg hd] at hat hedit
  have hmark : ((s.node f.node).stored f).groupMark = (s.node f.node).groupMark := rfl
  have hstored : ((s.node f.node).stored f).ready = (s.node f.node).groupMark := by simp [Node.ready, Node.stored]
  by_cases hg : ((s.node f.node).groupMark && !(s.node f.node).nextValid) = true
  · have hmembers := tally_change hn helse Node.groupMark
    have hready := tally_change hn helse Node.ready
    obtain ⟨hmember, hinvalid⟩ : (s.node f.node).groupMark = true ∧ (s.node f.node).nextValid = false := by
      simpa using hg
    have hlt := ready_lt hn hmember hinvalid
    rw [hat, hmark] at hmembers
    rw [hat, hstored] at hready
    obtain ⟨hm, hr, hnone, hready', hwaits⟩ := hs
    have hunready : (s.node f.node).ready = false := by simp [Node.ready, hinvalid]
    rw [hunready, hmember, Bool.toNat_false, Bool.toNat_true] at hready
    unfold State.GroupCounted
    rw [hedit, if_pos hg, Nat.add_right_cancel hmembers]
    simp only [memberGained, State.setEdit_edit, EditControl.Fits]
    refine ⟨hm, by omega, ?_, ?_, fun hw => ?_⟩
    · split
      · simp; omega
      · exact hnone
    · split
      · next hall => simp only [true_iff]; omega
      · next hall => simp only [hready']; omega
    · split
      · simp
      · exact hwaits hw
  · rw [if_neg hg] at hedit
    refine hs.congr hedit fun m => ?_
    by_cases hm : m = f.node
    · rw [hm, hat, hmark, hstored]
      refine ⟨rfl, ?_⟩
      unfold Node.ready
      cases hgm : (s.node f.node).groupMark <;> simp_all
    · rw [helse m hm]; exact ⟨rfl, rfl⟩

theorem State.GroupCounted.invalidateAll {s : State} (hs : s.GroupCounted) (cls : QueueClass) {ns : List Nat}
    (hns : ∀ n ∈ ns, n < 2049) : (invalidateAll cls ns s).GroupCounted :=
  foldl_keeps_mem State.GroupCounted _ ns (fun _ n hn h => h.hardInvalidate cls (hns n hn)) s hs

theorem Node.ready_withdrawnBy (p : Slot) (r : Node) : (r.withdrawnBy p).ready = r.ready := by
  unfold withdrawnBy
  split
  · rfl
  · split <;> rfl

theorem State.GroupCounted.enterRetiring {s : State} (hs : s.GroupCounted) (p : Slot) :
    (enterRetiring p s).GroupCounted := by
  have hwithdrawn : ((s.claimNodes p).foldl (withdrawAt p) (s.modProj p Projector.retired)).GroupCounted := by
    refine hs.congr ?_ fun m => ?_
    · exact (Touches.foldl (withdrawAt p) (withdrawAt_touches p) _ _).edit
    · rw [node_withdrawAll, node_modProj]
      split
      · exact ⟨Node.groupMark_withdrawnBy p _, Node.ready_withdrawnBy p _⟩
      · exact ⟨rfl, rfl⟩
  have hinvalidated := hwithdrawn.invalidateAll .urgent (ns := s.claimNodes p) fun n hn => (mem_claimNodes.1 hn).1
  have helsewhere {fs : List Field} {u v : State} (h : Touches fs u v) (hd : fs.contains Field.dome = false)
      (he : fs.contains Field.edit = false) (hu : u.GroupCounted) : v.GroupCounted :=
    hu.congr (h.edit he) fun m => by rw [h.node m hd]; exact ⟨rfl, rfl⟩
  unfold Machine.enterRetiring
  dsimp only
  refine helsewhere (emptyIfDone_touches p _) rfl rfl ?_
  split
  · exact helsewhere (recomputeGains_touches _) rfl rfl hinvalidated
  · exact hinvalidated

theorem edit_disbanded (s : State) : (disbanded s).edit =
    { groupState := .none, members := 0, readyCount := 0, applyWaiting := false } := rfl

theorem waiting_sealAll (ns : List Nat) (s : State) : (ns.foldl sealNode s).edit.applyWaiting = s.edit.applyWaiting := by
  refine foldl_keeps (fun t : State => t.edit.applyWaiting = s.edit.applyWaiting) sealNode (fun t n ht => ?_) ns s rfl
  rw [sealNode, edit_hardInvalidate]
  split
  · exact ht
  · exact ht

theorem edit_sealOpenSet (s : State) : (sealOpenSet s).edit =
    { groupState := .solving, members := s.openSet.length, readyCount := 0, applyWaiting := s.edit.applyWaiting } := by
  unfold sealOpenSet
  dsimp only
  rw [State.setEdit_edit, waiting_sealAll]

theorem State.GroupCounted.sealOpenSet {s : State} (hs : s.GroupCounted) (hgroup : s.edit.groupState = .none)
    (hopen : s.openSet ≠ []) : (sealOpenSet s).GroupCounted := by
  have hnone := hs.none_iff.1 hgroup
  have hmark (m : Nat) (hm : m < 2049) : ((Machine.sealOpenSet s).node m).groupMark = (s.node m).openMark := by
    rw [node_sealOpenSet]
    split
    · next h => exact (mem_openSet.1 h).2.symm
    · next h =>
      rw [hnone m hm]
      cases ho : (s.node m).openMark
      · rfl
      · exact absurd (mem_openSet.2 ⟨hm, ho⟩) h
  have hmembers : (Machine.sealOpenSet s).tally Node.groupMark = s.openSet.length := by
    rw [State.tally_eq, State.openSet]
    exact congrArg List.length (List.filter_congr fun m hm => hmark m (mem_nodeIndices.1 hm))
  have hready : (Machine.sealOpenSet s).tally Node.ready = 0 := tally_eq_zero fun m hm => by
    rw [node_sealOpenSet]
    split
    · simp [Node.ready, Node.sealed, Node.hardened, Node.invalidated]
    · simp [Node.ready, hnone m hm]
  have hpos := List.length_pos_of_ne_nil hopen
  obtain ⟨-, -, -, -, hwaits⟩ := hs
  rw [State.GroupCounted, hmembers, hready, edit_sealOpenSet]
  generalize s.openSet.length = k at hpos ⊢
  refine ⟨rfl, rfl, ?_, ?_, fun hw => absurd hgroup (hwaits hw)⟩
  · simp; omega
  · simp; omega

theorem Mapped.groupCounted {s t : State} (h : Mapped s t) : s.Confined → s.GroupCounted → t.GroupCounted := by
  have hpointwise {s t : State} (he : t.edit = s.edit) {c : Nat → Prop} [∀ m, Decidable (c m)] {g : Nat → Node}
      (h : ∀ m, t.node m = if c m then g m else s.node m) (hg : ∀ m, c m → (g m).groupMark = (s.node m).groupMark ∧
        (g m).ready = (s.node m).ready) (hs : s.GroupCounted) : t.GroupCounted :=
    hs.congr he fun m => by
      rw [h m]
      split
      · next hc => exact hg m hc
      · exact ⟨rfl, rfl⟩
  intro hin
  induction h with
  | stands h => exact fun hs => hs.congr h.edit fun m => by rw [node_congr h.nodes]; exact ⟨rfl, rfl⟩
  | emptied h => exact fun _ => GroupCounted.of_no_members (fun m _ => by rw [State.node, h.nodes]; rfl) h.edit
  | invalidate cls s hn => exact fun hs => hs.hardInvalidate cls hn
  | refresh s _ =>
    exact hpointwise (queueNode_touches _ _ s).edit (node_softRefresh _ s) fun m hm => by subst hm; exact ⟨rfl, rfl⟩
  | begin s =>
    exact fun hs => hs.congr (startSolve_touches s).edit fun m => by
      rcases node_startSolve s m with e | ⟨-, e⟩ <;> rw [e] <;> exact ⟨rfl, rfl⟩
  | finish hf => exact fun hs => hs.finishSolve (hin.1.flight_lt hin.2.2 hf)
  | retire p s => exact fun hs => hs.enterRetiring p
  | edit p _ _ _ => exact hpointwise rfl (node_modNode _ _ · _) fun m hm => by subst hm; exact ⟨rfl, rfl⟩
  | opened _ _ => exact hpointwise rfl (node_modNode _ _ · _) fun m hm => by subst hm; exact ⟨rfl, rfl⟩
  | create q pin _ _ _ _ _ _ _ =>
    exact hpointwise (allocateClaim_touches _ _ _).edit (node_allocateClaim _ _ _) fun m hm => by
      subst hm; exact ⟨rfl, rfl⟩
  | free _ _ _ _ =>
    exact hpointwise (freeClaim_touches _ _ _).edit (node_freeClaim _ _ _) fun m hm => by subst hm; exact ⟨rfl, rfl⟩
  | discard _ _ =>
    exact hpointwise (discardNode_touches _ _).edit (node_discardNode _ _) fun m hm => by subst hm; exact ⟨rfl, rfl⟩
  | @sealed s hg ho => exact fun hs => hs.sealOpenSet hg ho
  | @waits s hg =>
    rintro ⟨hm, hr, hnone, hready, -⟩
    exact ⟨hm, hr, hnone, hready, fun _ => hg⟩
  | @withdrawn s _ =>
    refine fun _ => GroupCounted.of_no_members (fun m hm => ?_) (edit_disbanded _)
    rw [node_withdrawGroup]
    split
    · rfl
    · next h =>
      cases hg : (s.node m).groupMark
      · rfl
      · exact absurd (mem_group.2 ⟨hm, hg⟩) h
  | @single n s _ hg _ =>
    exact hpointwise (singleSwap_touches n s).edit (node_singleSwap n s) fun m hm => by
      subst hm
      exact ⟨rfl, by simp [Node.ready, Node.singleSwapped, Node.swapTo, hg]⟩
  | @swapped s _ =>
    refine fun _ => GroupCounted.of_no_members (fun m hm => ?_) (edit_disbanded _)
    rw [node_swapAllNodes, if_pos hm]
    unfold Node.visited
    split
    · rfl
    · next hg =>
      split
      · simpa [Node.singleSwapped, Node.swapTo] using hg
      · simpa using hg
  | trans hst _ ih ih' => exact fun hs => ih' (hst.confined hin) (ih hin hs)

/-- Settles O55: the group's counts follow its nodes through every change of the map. -/
theorem stepKeepsGroupCounts : Obligations.StepKeepsGroupCounts := by
  refine KeptByStep.of_mapped (fun _ _ h => h) fun s t h hs => ?_
  rw [groupAgrees_iff] at hs ⊢
  exact ⟨h.confined hs.1, h.groupCounted hs.1 hs.2⟩

end Sys2Proof.Machine
end

section
/-! PROOF. The weights (O56): the live weights of a node, its next weights while they are valid, and the result of the solve
in flight are all 0 or share unity; each change of the map is judged by what it makes of one node record. -/

namespace Sys2Proof.Machine

open Sys2Proof Sys2Proof.Stating

set_option Elab.async false

/-! ### Weights that share unity -/

theorem sum_map_filter {cs : List Claim} {keeps : Claim → Bool} {w : Claim → Nat} (h : ∀ c ∈ cs, keeps c = false → w c = 0) :
    ((cs.filter keeps).map w).sum = (cs.map w).sum := by
  induction cs with
  | nil => rfl
  | cons c cs ih =>
    have hrest := ih fun d hd => h d (List.mem_cons_of_mem c hd)
    cases hk : keeps c
    · rw [List.filter_cons_of_neg (by simp [hk]), hrest, List.map_cons, List.sum_cons, h c (by simp) hk, Nat.zero_add]
    · rw [List.filter_cons_of_pos hk, List.map_cons, List.map_cons, List.sum_cons, List.sum_cons, hrest]

/-- Claims that leave a list with weight 0 leave its weights whole. -/
theorem SharesUnity.filter {cs : List Claim} {keeps : Claim → Bool} {w : Claim → Nat} (h : SharesUnity (cs.map w))
    (hk : ∀ c ∈ cs, keeps c = false → w c = 0) : SharesUnity ((cs.filter keeps).map w) := by
  refine h.imp (fun hzero v hv => ?_) fun hsum => (sum_map_filter hk).trans hsum
  obtain ⟨c, hc, rfl⟩ := List.mem_map.1 hv
  exact hzero _ (List.mem_map_of_mem (List.mem_of_mem_filter hc))

theorem SharesUnity.perm {ws vs : List Nat} (h : ws.Perm vs) (hs : SharesUnity vs) : SharesUnity ws :=
  hs.imp (fun hzero w hw => hzero w (h.mem_iff.1 hw)) fun hsum => h.sum_eq.trans hsum

theorem SharesUnity.cons_zero {ws : List Nat} (h : SharesUnity ws) : SharesUnity (0 :: ws) :=
  h.imp (fun hzero w hw => (List.mem_cons.1 hw).elim id (hzero w)) fun hsum => by rw [List.sum_cons, Nat.zero_add, hsum]

theorem SharesUnity.insertClaim {cs : List Claim} {w : Claim → Nat} (h : SharesUnity (cs.map w)) {c : Claim} (hc : w c = 0) :
    SharesUnity ((insertClaim c cs).map w) :=
  SharesUnity.perm ((insertClaim_perm c cs).map w) (by rw [List.map_cons, hc]; exact h.cons_zero)

/-! ### The result of a solve -/

/-- The value listed for a key that stands once. -/
theorem find?_pair {α : Type} {key : α → Slot} (val : α → Nat) {l : List α} (hl : (l.map key).Nodup) {a : α} (ha : a ∈ l) :
    (l.map fun b => (key b, val b)).find? (fun o => o.1 == key a) = some (key a, val a) := by
  induction l with
  | nil => exact absurd ha (by simp)
  | cons b l ih =>
    obtain ⟨hb, hl⟩ := List.nodup_cons.1 hl
    rcases List.mem_cons.1 ha with rfl | ha
    · simp
    · have hne : key b ≠ key a := fun e => hb (e ▸ List.mem_map_of_mem ha)
      rw [List.map_cons, List.find?_cons_of_neg (by simpa using hne), ih hl ha]

/-- The weight that stage 5 gives one claim among the effective affinities (R47, R48). -/
def shareOf (es : List (Slot × Nat)) (o : Slot × Nat) : Nat :=
  if (es.map Prod.snd).sum = 0 then 0 else sharedWeight es (es.map Prod.snd).sum o

theorem shareWeights_eq_map (es : List (Slot × Nat)) : shareWeights es = es.map fun o => (o.1, shareOf es o) := by
  rcases Nat.eq_zero_or_pos (es.map Prod.snd).sum with h | h
  · rw [shareWeights_of_total_zero h]; simp only [shareOf, h, if_true]
  · rw [shareWeights_of_total_pos rfl h]; simp only [shareOf, h.ne', if_false]

theorem shareOf_whole {es : List (Slot × Nat)} (hslots : (es.map Prod.fst).Nodup) : SharesUnity (es.map (shareOf es)) := by
  rcases Nat.eq_zero_or_pos (es.map Prod.snd).sum with h | h
  · refine Or.inl fun w hw => ?_
    obtain ⟨o, -, rfl⟩ := List.mem_map.1 hw
    exact if_pos h
  · refine Or.inr ?_
    rw [← show Config.unity = 4096 from rfl, ← sharedWeight_sum rfl h hslots]
    exact congrArg List.sum (List.map_congr_left fun o _ => if_neg h.ne')

theorem shareOf_of_no_affinity {es : List (Slot × Nat)} {o : Slot × Nat} (ho : o.2 = 0) : shareOf es o = 0 := by
  unfold shareOf
  split
  · rfl
  · next h => exact sharedWeight_of_no_affinity rfl (Nat.pos_of_ne_zero h) ho

theorem nodup_projectors {r : Node} (h : r.Ordered) : (r.claims.map Claim.projector).Nodup :=
  List.pairwise_map.2 (h.2.imp fun hlt => ne_of_lt hlt)

/-- The effective affinity that a solve beginning on a node reads of a claim. -/
def State.effectiveOf (s : State) (n : Nat) (c : Claim) : Nat :=
  ReadClaim.effective { claim := c, projector := (s.proj c.projector).read } (s.node n).groupMark

theorem affinities_flightOf (s : State) (n : Nat) (cls : QueueClass) :
    (s.flightOf n cls).affinities = (s.node n).claims.map fun c => (c.projector, s.effectiveOf n c) := by
  unfold Flight.affinities State.flightOf
  rw [List.map_map]
  rfl

theorem affinities_map {α : Type} (s : State) (n : Nat) (cls : QueueClass) (g : Slot × Nat → α) :
    (s.flightOf n cls).affinities.map g = (s.node n).claims.map fun c => g (c.projector, s.effectiveOf n c) := by
  rw [affinities_flightOf, List.map_map]
  rfl

theorem weightFor_flightOf {s : State} {n : Nat} (ho : (s.node n).Ordered) (cls : QueueClass) {c : Claim}
    (hc : c ∈ (s.node n).claims) : (s.flightOf n cls).weightFor c.projector
      = shareOf (s.flightOf n cls).affinities (c.projector, s.effectiveOf n c) := by
  unfold Flight.weightFor Flight.weights
  rw [shareWeights_eq_map]
  rw [affinities_map, find?_pair (fun c => shareOf _ (c.projector, s.effectiveOf n c)) (nodup_projectors ho) hc]

theorem weightFor_eq_zero_of_unread {f : Flight} {p : Slot} (h : ∀ c ∈ f.claims, c.claim.projector ≠ p) : f.weightFor p = 0 := by
  have hnone : f.weights.find? (fun o => o.1 == p) = none := by
    refine List.find?_eq_none.2 fun o ho => ?_
    have hmem : o.1 ∈ (f.weights).map Prod.fst := List.mem_map_of_mem ho
    rw [Flight.weights, shareWeights_slots, Flight.affinities, List.map_map] at hmem
    obtain ⟨c, hc, e⟩ := List.mem_map.1 hmem
    simpa using fun e' => h c hc (e.trans e')
  unfold Flight.weightFor
  rw [hnone]

/-- A solve that begins reads its node as it stands, and its result is whole there (R36, R37, R47). -/
theorem flightOf_whole {s : State} {n : Nat} (ho : (s.node n).Ordered) (cls : QueueClass) :
    (s.flightOf n cls).Whole (s.node n) := by
  refine ⟨?_, fun c hc hview => ?_, fun p hp => weightFor_eq_zero_of_unread fun c hc => ?_⟩
  · have hslots : ((s.flightOf n cls).affinities.map Prod.fst).Nodup := by
      rw [affinities_flightOf, List.map_map]; exact nodup_projectors ho
    have hwhole := shareOf_whole hslots
    rw [affinities_map] at hwhole
    rw [List.map_congr_left fun c hc => weightFor_flightOf ho cls hc]
    exact hwhole
  · rw [weightFor_flightOf ho cls hc]
    refine shareOf_of_no_affinity ?_
    simp [State.effectiveOf, ReadClaim.effective, ReadClaim.distance, hview]
  · obtain ⟨d, hd, rfl⟩ := List.mem_map.1 hc
    exact hp d hd

/-! ### Whole weights of one node record -/

/-- The live weights are whole, and a pending-new claim has none (R8, R70). -/
def Node.LiveWhole (r : Node) : Prop :=
  SharesUnity (r.claims.map Claim.liveWeight) ∧ ∀ c ∈ r.claims, c.pendingNew = true → c.liveWeight = 0

/-- The next weights, while they are valid, are whole, and a claim left out of the view has none (R37, R40). -/
def Node.NextWhole (r : Node) : Prop :=
  r.nextValid = true → SharesUnity (r.claims.map Claim.nextWeight) ∧
    ∀ c ∈ r.claims, c.takesPart r.groupMark = false → c.nextWeight = 0

/-- The change of a record keeps its weights whole, and the result of the solve in flight fit for it unless it turns
dirty. -/
structure Node.KeepsWeights (r q : Node) : Prop where
  live : r.LiveWhole → r.NextWhole → q.LiveWhole
  next : r.NextWhole → q.NextWhole
  dirty : r.inFlight = true → q.dirty = false → r.dirty = false
  whole : r.inFlight = true → q.dirty = false → ∀ f : Flight, f.Whole r → f.Whole q

theorem Node.KeepsWeights.refl (r : Node) : r.KeepsWeights r := ⟨fun h _ => h, id, fun _ h => h, fun _ _ _ h => h⟩

/-- A record whose claims are those it had, but for some left out of the view that leave, each claim changed at most in
what no view reads: the form of every edit of a record that is no member. -/
structure Node.Trims (keeps : Claim → Bool) (g : Claim → Claim) (r q : Node) : Prop where
  claims : q.claims = (r.claims.filter keeps).map g
  projector : ∀ c, (g c).projector = c.projector
  left : ∀ c ∈ r.claims, keeps c = false → c.takesPart r.groupMark = false
  view : ∀ c ∈ r.claims, keeps c = true → (g c).takesPart q.groupMark = false → c.takesPart r.groupMark = false

theorem SharesUnity.trims {cs : List Claim} {keeps : Claim → Bool} {g : Claim → Claim} {w v : Claim → Nat}
    (h : SharesUnity (cs.map w)) (hg : ∀ c, v (g c) = w c) (hk : ∀ c ∈ cs, keeps c = false → w c = 0) :
    SharesUnity (((cs.filter keeps).map g).map v) := by
  rw [List.map_map, show v ∘ g = w from funext hg]
  exact h.filter hk

theorem Node.Trims.mem {keeps : Claim → Bool} {g : Claim → Claim} {r q : Node} (h : r.Trims keeps g q) {d : Claim}
    (hd : d ∈ q.claims) : ∃ c ∈ r.claims, keeps c = true ∧ g c = d := by
  rw [h.claims] at hd
  obtain ⟨c, hc, rfl⟩ := List.mem_map.1 hd
  exact ⟨c, (List.mem_filter.1 hc).1, (List.mem_filter.1 hc).2, rfl⟩

theorem Node.Trims.whole {keeps : Claim → Bool} {g : Claim → Claim} {r q : Node} (h : r.Trims keeps g q) {f : Flight}
    (hf : f.Whole r) : f.Whole q := by
  obtain ⟨hsum, hview, hnone⟩ := hf
  refine ⟨?_, fun d hd hq => ?_, fun p hp => ?_⟩
  · rw [h.claims]
    exact hsum.trims (fun c => by rw [h.projector]) fun c hc hk => hview c hc (h.left c hc hk)
  · obtain ⟨c, hc, hk, rfl⟩ := h.mem hd
    rw [h.projector]
    exact hview c hc (h.view c hc hk hq)
  · by_cases hclaimed : ∀ c ∈ r.claims, c.projector ≠ p
    · exact hnone p hclaimed
    · push Not at hclaimed
      obtain ⟨c, hc, rfl⟩ := hclaimed
      refine hview c hc (h.left c hc ?_)
      by_contra hk
      refine hp (g c) ?_ (h.projector c)
      rw [h.claims]
      exact List.mem_map_of_mem (List.mem_filter.2 ⟨hc, by simpa using hk⟩)

theorem Node.Trims.next {keeps : Claim → Bool} {g : Claim → Claim} {r q : Node} (h : r.Trims keeps g q)
    (hvalid : q.nextValid = true → r.nextValid = true) (hg : ∀ c, (g c).nextWeight = c.nextWeight) (hr : r.NextWhole) :
    q.NextWhole := fun hq => by
  obtain ⟨hsum, hview⟩ := hr (hvalid hq)
  refine ⟨?_, fun d hd hdq => ?_⟩
  · rw [h.claims]
    exact hsum.trims hg fun c hc hk => hview c hc (h.left c hc hk)
  · obtain ⟨c, hc, hk, rfl⟩ := h.mem hd
    rw [hg]
    exact hview c hc (h.view c hc hk hdq)

/-- Live weights that stand, when only pending-new claims leave. -/
theorem Node.LiveWhole.trims {keeps : Claim → Bool} {g : Claim → Claim} {r q : Node} (hr : r.LiveWhole)
    (hclaims : q.claims = (r.claims.filter keeps).map g)
    (hg : ∀ c, (g c).liveWeight = c.liveWeight ∧ ((g c).pendingNew = true → c.pendingNew = true))
    (hk : ∀ c ∈ r.claims, keeps c = false → c.pendingNew = true) : q.LiveWhole := by
  obtain ⟨hsum, hnew⟩ := hr
  refine ⟨?_, fun d hd hdn => ?_⟩
  · rw [hclaims]
    exact hsum.trims (fun c => (hg c).1) fun c hc hkc => hnew c hc (hk c hc hkc)
  · rw [hclaims] at hd
    obtain ⟨c, hc, rfl⟩ := List.mem_map.1 hd
    rw [(hg c).1]
    exact hnew c (List.mem_filter.1 hc).1 ((hg c).2 hdn)

theorem Claim.takesPart_false_of_new {c : Claim} (h : c.pendingNew = true) : c.takesPart false = false := by
  unfold takesPart
  split <;> simp [h]

theorem filter_true (cs : List Claim) : cs.filter (fun _ => true) = cs := List.filter_eq_self.2 fun _ _ => rfl

/-- The next weights go, and the live ones stay whole: hard invalidation, in a class or without queuing (R31, R32). -/
theorem Node.KeepsWeights.of_invalidated {r q : Node} (hlive : r.LiveWhole → q.LiveWhole) (hvalid : q.nextValid = false)
    (hdirty : q.dirty = (r.dirty || r.inFlight)) : r.KeepsWeights q where
  live h _ := hlive h
  next _ h := absurd (hvalid.symm.trans h) (by decide)
  dirty hi hd := absurd (hdirty.symm.trans hd) (by simp [hi])
  whole hi hd := absurd (hdirty.symm.trans hd) (by simp [hi])

/-- An edit of a record that is no member, the queue fields standing. -/
theorem Node.KeepsWeights.of_trims {keeps : Claim → Bool} {g : Claim → Claim} {r q : Node} (h : r.Trims keeps g q)
    (hvalid : q.nextValid = r.nextValid) (hdirty : q.dirty = r.dirty)
    (hg : ∀ c, (g c).liveWeight = c.liveWeight ∧ (g c).nextWeight = c.nextWeight ∧ (g c).pendingNew = c.pendingNew)
    (hk : ∀ c ∈ r.claims, keeps c = false → c.pendingNew = true) : r.KeepsWeights q where
  live hr _ := hr.trims h.claims (fun c => ⟨(hg c).1, fun hn => (hg c).2.2 ▸ hn⟩) hk
  next := h.next (fun hq => hvalid ▸ hq) fun c => (hg c).2.1
  dirty _ hd := hdirty ▸ hd
  whole _ _ _ := h.whole

/-! ### The changes of a record -/

theorem keepsWeights_edit {r : Node} (p : Slot) {f : Claim → Claim} (hf : Claim.SameWeights f)
    (hremoval : (∀ c, (f c).pendingRemoval = c.pendingRemoval) ∨ r.groupMark = false) : r.KeepsWeights (r.modClaim p f) := by
  have hview (c : Claim) : (f c).takesPart r.groupMark = c.takesPart r.groupMark := by
    obtain ⟨-, hnew, hwithdrawn, -, -⟩ := hf c
    unfold Claim.takesPart
    rw [hnew, hwithdrawn]
    rcases hremoval with hrem | hg
    · rw [hrem]
    · simp [hg]
  refine Node.KeepsWeights.of_trims (keeps := fun _ => true) (g := fun c => if c.projector == p then f c else c)
    ⟨by rw [filter_true]; rfl, fun c => ?_, by simp, fun c _ _ hc => ?_⟩ rfl rfl (fun c => ?_) (by simp)
  · split
    · exact (hf c).1
    · rfl
  · split at hc
    · exact (hview c).symm.trans hc
    · exact hc
  · split
    · obtain ⟨-, hnew, -, hlive, hnext⟩ := hf c
      exact ⟨hlive, hnext, hnew⟩
    · exact ⟨rfl, rfl, rfl⟩

theorem keepsWeights_drop {r : Node} (ho : r.Ordered) (hg : r.groupMark = false) {p : Slot} {c : Claim}
    (hc : claimBy r.claims p = some c) (hnew : c.pendingNew = true) : r.KeepsWeights (r.dropClaim p) := by
  have hleft : ∀ d ∈ r.claims, (!d.projector == p) = false → d.pendingNew = true := fun d hd hk =>
    pendingNew_of_claimBy ho.2 hc hnew d hd (by simpa using hk)
  exact Node.KeepsWeights.of_trims (keeps := fun d => !d.projector == p) (g := id)
    ⟨by rw [List.map_id]; rfl, fun _ => rfl,
      fun d hd hk => by rw [hg]; exact Claim.takesPart_false_of_new (hleft d hd hk), fun _ _ _ h => h⟩
    rfl rfl (fun _ => ⟨rfl, rfl, rfl⟩) hleft

theorem Node.pendingNew_of_newSlots {r : Node} (ho : r.Ordered) {d : Claim} (hd : d ∈ r.claims)
    (h : d.projector ∈ r.newSlots) : d.pendingNew = true := by
  obtain ⟨c, hc, e⟩ := List.mem_map.1 h
  rw [← eq_of_projector ho.2 (List.mem_filter.1 hc).1 hd e]
  exact (List.mem_filter.1 hc).2

theorem keepsWeights_unedited {r : Node} (ho : r.Ordered) (hg : r.groupMark = false) : r.KeepsWeights r.unedited := by
  have hleft : ∀ d ∈ r.claims, (!r.newSlots.contains d.projector) = false → d.pendingNew = true := fun d hd hk =>
    r.pendingNew_of_newSlots ho hd (by simpa using hk)
  refine Node.KeepsWeights.of_trims (keeps := fun d => !r.newSlots.contains d.projector) (g := Claim.unedited)
    ⟨rfl, fun _ => rfl, fun d hd hk => ?_, fun d _ _ h => ?_⟩ rfl rfl (fun _ => ⟨rfl, rfl, rfl⟩) hleft
  · rw [hg]; exact Claim.takesPart_false_of_new (hleft d hd hk)
  · have hmark : r.unedited.groupMark = false := hg
    rw [hmark] at h
    rw [hg]
    exact h

theorem keepsWeights_insert {r : Node} {c : Claim} (hnone : claimBy r.claims c.projector = none)
    (hnew : c.pendingNew = true) (hlive : c.liveWeight = 0) (hnext : c.nextWeight = 0) :
    r.KeepsWeights { r with claims := insertClaim c r.claims } := by
  have hmem {d : Claim} : d ∈ insertClaim c r.claims ↔ d = c ∨ d ∈ r.claims := by
    rw [(insertClaim_perm c r.claims).mem_iff, List.mem_cons]
  have hunclaimed := claimBy_eq_none_iff.1 hnone
  refine ⟨fun ⟨hsum, hnew'⟩ _ => ⟨hsum.insertClaim hlive, fun d hd hn => ?_⟩, fun h hv => ?_, fun _ h => h,
    fun _ _ f ⟨hsum, hview, hfree⟩ => ⟨hsum.insertClaim (hfree _ hunclaimed), fun d hd hq => ?_, fun p hp => ?_⟩⟩
  · rcases hmem.1 hd with rfl | hd
    · exact hlive
    · exact hnew' d hd hn
  · obtain ⟨hsum, hview⟩ := h hv
    refine ⟨hsum.insertClaim hnext, fun d hd hq => ?_⟩
    rcases hmem.1 hd with rfl | hd
    · exact hnext
    · exact hview d hd hq
  · rcases hmem.1 hd with rfl | hd
    · exact hfree _ hunclaimed
    · exact hview d hd hq
  · exact hfree p fun d hd => hp d (hmem.2 (Or.inr hd))

theorem liveWhole_withdrawnBy {r : Node} (ho : r.Ordered) (p : Slot) (h : r.LiveWhole) : (r.withdrawnBy p).LiveWhole := by
  unfold Node.withdrawnBy
  split
  · exact h
  · next c hc =>
    split
    · next hnew =>
      exact h.trims (keeps := fun d => !d.projector == p) (g := id) (by rw [List.map_id]; rfl) (fun _ => ⟨rfl, id⟩)
        fun d hd hk => pendingNew_of_claimBy ho.2 hc hnew d hd (by simpa using hk)
    · refine h.trims (keeps := fun _ => true)
        (g := fun d => if d.projector == p then { d with withdrawn := true } else d) (by rw [filter_true]; rfl)
        (fun d => ?_) (by simp)
      split <;> exact ⟨rfl, id⟩

theorem keepsWeights_retiredBy {r : Node} (ho : r.Ordered) (p : Slot) : r.KeepsWeights (r.retiredBy p) := by
  obtain ⟨-, hinflight, hdirty⟩ := Node.queue_withdrawnBy p r
  exact Node.KeepsWeights.of_invalidated (liveWhole_withdrawnBy ho p) rfl (hdirty ▸ hinflight ▸ rfl)

theorem keepsWeights_singleSwapped {r : Node} (hg : r.groupMark = false) (hv : r.nextValid = true) :
    r.KeepsWeights r.singleSwapped := by
  have hleft : ∀ c ∈ r.claims, (!c.leavesAtSingle) = false → c.takesPart r.groupMark = false := fun c _ hk => by
    have hw : c.withdrawn = true := by simpa [Claim.leavesAtSingle] using hk
    simp [Claim.takesPart, hw]
  have hmark : r.singleSwapped.groupMark = r.groupMark := rfl
  have htrims : r.Trims (fun c => !c.leavesAtSingle) Claim.swapped r.singleSwapped :=
    ⟨rfl, fun _ => rfl, hleft, fun c _ _ h => by rw [hmark] at h; exact h⟩
  refine ⟨fun _ hnext => ⟨?_, fun d hd hn => ?_⟩, fun _ h => absurd h (by simp [Node.singleSwapped, Node.swapTo]),
    fun _ h => h, fun _ _ _ => htrims.whole⟩
  · obtain ⟨hsum, hview⟩ := hnext hv
    exact hsum.trims (g := Claim.swapped) (fun _ => rfl) fun c hc hk => hview c hc (hleft c hc hk)
  · obtain ⟨c, hc, -, rfl⟩ := htrims.mem hd
    exact (hnext hv).2 c hc (by rw [hg]; exact Claim.takesPart_false_of_new hn)

theorem keepsWeights_groupSwapped {r : Node} (hg : r.groupMark = true) (hv : r.nextValid = true) :
    r.KeepsWeights r.groupSwapped := by
  have hview (c : Claim) : c.takesPart true = !c.leavesAtGroup := by
    unfold Claim.takesPart Claim.leavesAtGroup
    cases c.withdrawn <;> simp
  have htrims : r.Trims (fun c => !c.leavesAtGroup) (fun c => c.promoted.swapped) r.groupSwapped := by
    refine ⟨rfl, fun _ => rfl, fun c _ hk => by rw [hg, hview]; exact hk, fun c _ hk h => ?_⟩
    have hw : c.withdrawn = false := by
      cases hw : c.withdrawn
      · rfl
      · simp [Claim.leavesAtGroup, hw] at hk
    exact absurd h (by simp [Claim.takesPart, Claim.promoted, Claim.swapped, Node.groupSwapped, hw])
  refine ⟨fun _ hnext => ⟨?_, fun d hd hn => ?_⟩, fun _ h => absurd h (by simp [Node.groupSwapped, Node.swapTo]),
    fun _ h => h, fun _ _ _ => htrims.whole⟩
  · obtain ⟨hsum, hout⟩ := hnext hv
    exact hsum.trims (g := fun c => c.promoted.swapped) (fun _ => rfl)
      fun c hc hk => hout c hc (by rw [hg, hview]; exact hk)
  · obtain ⟨c, -, -, rfl⟩ := htrims.mem hd
    exact absurd hn (by simp [Claim.promoted, Claim.swapped])

/-- The result of a solve stored on its node (R40). -/
theorem nextWhole_stored {r : Node} {f : Flight} (hf : f.Whole r) : (r.stored f).NextWhole := fun _ => by
  obtain ⟨hsum, hview, -⟩ := hf
  refine ⟨?_, fun d hd hq => ?_⟩
  · unfold Node.stored
    rw [List.map_map]
    exact hsum
  · obtain ⟨c, hc, rfl⟩ := List.mem_map.1 hd
    exact hview c hc hq

theorem liveWhole_stored {r : Node} (f : Flight) (h : r.LiveWhole) : (r.stored f).LiveWhole :=
  h.trims (keeps := fun _ => true) (g := fun c => { c with nextWeight := f.weightFor c.projector })
    (by rw [filter_true]; rfl) (fun _ => ⟨rfl, id⟩) (by simp)

/-! ### The weights of the map -/

/-- Every node's weights and those of the solve in flight. -/
def State.Weighed (s : State) : Prop :=
  (∀ n, (s.node n).LiveWhole ∧ (s.node n).NextWhole) ∧
    ∀ f, s.solver.flight = some f → (s.node f.node).dirty = false → f.Whole (s.node f.node)

theorem weightsAgree_iff (s : State) : s.WeightsAgree ↔ s.GroupAgrees ∧ s.MarksApart ∧ s.ListsOrdered ∧ s.Weighed := by
  unfold State.WeightsAgree State.Weighed Node.LiveWhole Node.NextWhole
  simp only [and_assoc]

/-- What the weights rest on. -/
def State.Sound (s : State) : Prop := s.Confined ∧ s.GroupCounted ∧ s.MarksApart ∧ s.ListsOrdered

theorem Mapped.sound {s t : State} (h : Mapped s t) : s.Sound → t.Sound := fun ⟨hin, hgroup, hapart, hordered⟩ =>
  ⟨h.confined hin, h.groupCounted hin hgroup, h.marksApart hapart, h.nodes ordered_nodeClosed hordered⟩

/-- The solve in flight stands, and every record keeps its weights. -/
theorem State.Weighed.of_keeps {s t : State} (hq : s.QueueAgrees) (hflight : t.solver.flight = s.solver.flight)
    (h : ∀ m, (s.node m).KeepsWeights (t.node m)) (hs : s.Weighed) : t.Weighed := by
  refine ⟨fun m => ⟨(h m).live (hs.1 m).1 (hs.1 m).2, (h m).next (hs.1 m).2⟩, fun f hf hd => ?_⟩
  rw [hflight] at hf
  have hi : (s.node f.node).inFlight = true := (hq.2.2 f.node).2.2.1.2 (by rw [hf]; rfl)
  exact (h f.node).whole hi hd f (hs.2 f hf ((h f.node).dirty hi hd))

/-- A group that is READY has only ready members. -/
theorem ready_of_group {s : State} (hs : s.GroupCounted) (hready : s.edit.groupState = .ready) {m : Nat} (hm : m < 2049)
    (hg : (s.node m).groupMark = true) : (s.node m).nextValid = true := by
  obtain ⟨hmembers, hcount, -, hiff, -⟩ := hs
  by_contra hv
  have hlt := ready_lt hm hg (by simpa using hv)
  obtain ⟨-, hall⟩ := hiff.1 hready
  omega

theorem flight_queueNode (cls : QueueClass) (n : Nat) (s : State) : (queueNode cls n s).solver.flight = s.solver.flight := by
  unfold queueNode
  split <;> rfl

theorem flight_hardInvalidate (cls : QueueClass) (n : Nat) (s : State) :
    (hardInvalidate cls n s).solver.flight = s.solver.flight := by
  unfold hardInvalidate
  dsimp only
  split
  · exact flight_queueNode cls n _
  · exact flight_queueNode cls n _

theorem flight_sealOpenSet (s : State) : (sealOpenSet s).solver.flight = s.solver.flight := by
  have hsealed := foldl_keeps (fun t : State => t.solver.flight = s.solver.flight) sealNode
    (fun _ n ht => (flight_hardInvalidate .normal n _).trans ht) s.openSet s rfl
  unfold sealOpenSet
  dsimp only
  rw [State.setEdit_solver]
  exact hsealed

theorem flight_invalidateAll (cls : QueueClass) (ns : List Nat) (s : State) :
    (invalidateAll cls ns s).solver.flight = s.solver.flight :=
  foldl_keeps (fun t : State => t.solver.flight = s.solver.flight) (fun t n => hardInvalidate cls n t)
    (fun _ n ht => (flight_hardInvalidate cls n _).trans ht) ns s rfl

theorem flight_enterRetiring (p : Slot) (s : State) : (enterRetiring p s).solver.flight = s.solver.flight := by
  have hwithdrawn : ((s.claimNodes p).foldl (withdrawAt p) (s.modProj p Projector.retired)).solver = s.solver :=
    (Touches.foldl (withdrawAt p) (withdrawAt_touches p) _ _).solver
  have hinvalidated := flight_invalidateAll .urgent (s.claimNodes p)
    ((s.claimNodes p).foldl (withdrawAt p) (s.modProj p Projector.retired))
  rw [hwithdrawn] at hinvalidated
  unfold enterRetiring
  dsimp only
  rw [(emptyIfDone_touches p _).solver]
  split
  · rw [(recomputeGains_touches _).solver]; exact hinvalidated
  · exact hinvalidated

theorem State.Weighed.startSolve {s : State} (hordered : s.ListsOrdered) (hs : s.Weighed) :
    (startSolve s).Weighed := by
  have hbegun (n : Nat) (cls : QueueClass) (v : Solver) (hv : v.flight = some (s.flightOf n cls)) :
      ((s.setSolver v).modNode n Node.taken).Weighed := by
    have hnode (m : Nat) : ((s.setSolver v).modNode n Node.taken).node m
        = if m = n then (s.node n).taken else s.node m := by rw [node_modNode]; rfl
    refine ⟨fun m => ?_, fun f hf _ => ?_⟩
    · rw [hnode]
      split
      · exact hs.1 n
      · exact hs.1 m
    · rw [State.modNode_solver, State.setSolver_solver, hv] at hf
      obtain rfl := Option.some.inj hf
      rw [hnode, show (s.flightOf n cls).node = n from rfl, if_pos rfl]
      exact flightOf_whole (hordered n) cls
  unfold Machine.startSolve
  split
  · exact hs
  · exact hbegun _ .urgent _ rfl
  · exact hbegun _ .normal _ rfl
  · exact hs

theorem State.Weighed.finishSolve {s : State} (hs : s.Weighed) {f : Flight} (hf : s.solver.flight = some f) :
    (finishSolve f s).Weighed := by
  refine ⟨fun m => ?_, fun g hg => ?_⟩
  · rw [node_finishSolve]
    split
    · split
      · exact hs.1 f.node
      · next hd => exact ⟨liveWhole_stored f (hs.1 f.node).1, nextWhole_stored (hs.2 f hf (by simpa using hd))⟩
    · exact hs.1 m
  · rw [solver_finishSolve] at hg
    exact absurd hg (by simp)

theorem Mapped.weighed {s t : State} (h : Mapped s t) : s.Sound → s.Weighed → t.Weighed := by
  have hpointwise {s t : State} (hq : s.QueueAgrees) (hv : t.solver.flight = s.solver.flight) {c : Nat → Prop}
      [∀ m, Decidable (c m)] {g : Nat → Node} (h : ∀ m, t.node m = if c m then g m else s.node m)
      (hg : ∀ m, c m → (s.node m).KeepsWeights (g m)) (hs : s.Weighed) : t.Weighed :=
    hs.of_keeps hq hv fun m => by
      rw [h m]
      split
      · next hc => exact hg m hc
      · exact Node.KeepsWeights.refl _
  induction h with
  | stands h =>
    exact fun ⟨hin, _⟩ hs => hs.of_keeps hin.2.2 (by rw [h.solver]) fun m => by
      rw [node_congr h.nodes]; exact Node.KeepsWeights.refl _
  | emptied h =>
    refine fun _ _ => ⟨fun m => ?_, fun f hf => absurd hf (by simp [h.solver])⟩
    rw [State.node, h.nodes]
    exact ⟨⟨Or.inl (by simp [Sparse.get, Node.initial]), by simp [Sparse.get, Node.initial]⟩,
      fun hv => absurd hv (by simp [Sparse.get, Node.initial])⟩
  | @invalidate cls n s hn =>
    exact fun ⟨hin, _⟩ => hpointwise hin.2.2 (flight_hardInvalidate cls n s) (node_hardInvalidate cls n s) fun m hm => by
      subst hm; exact Node.KeepsWeights.of_invalidated id rfl rfl
  | @refresh n s _ =>
    exact fun ⟨hin, _⟩ => hpointwise hin.2.2 (flight_queueNode _ _ s) (node_softRefresh n s) fun m hm => by
      subst hm; exact ⟨fun h _ => h, id, fun _ h => h, fun _ _ _ h => h⟩
  | begin s => exact fun ⟨_, _, _, hordered⟩ hs => hs.startSolve hordered
  | finish hf => exact fun _ hs => hs.finishSolve hf
  | retire p s =>
    exact fun ⟨hin, _, _, hordered⟩ => hpointwise hin.2.2 (flight_enterRetiring p s) (node_enterRetiring p s)
      fun m _ => keepsWeights_retiredBy (hordered m) p
  | edit p _ hf hremoval =>
    exact fun ⟨hin, _⟩ => hpointwise hin.2.2 rfl (node_modNode _ _ · _) fun m hm => by
      subst hm; exact keepsWeights_edit p hf hremoval
  | opened _ _ =>
    exact fun ⟨hin, _⟩ => hpointwise hin.2.2 rfl (node_modNode _ _ · _) fun m hm => by
      subst hm; exact ⟨fun h _ => h, id, fun _ h => h, fun _ _ _ h => h⟩
  | create q pin _ _ hnone _ _ _ _ =>
    exact fun ⟨hin, _⟩ => hpointwise hin.2.2 (by rw [(allocateClaim_touches _ _ _).solver]) (node_allocateClaim _ _ _)
      fun m hm => by subst hm; exact keepsWeights_insert hnone rfl rfl rfl
  | free _ hg hc hnew =>
    exact fun ⟨hin, _, _, hordered⟩ => hpointwise hin.2.2 (by rw [(freeClaim_touches _ _ _).solver])
      (node_freeClaim _ _ _) fun m hm => by subst hm; exact keepsWeights_drop (hordered _) hg hc hnew
  | @discard n s _ hopen =>
    refine fun ⟨hin, _, hapart, hordered⟩ => hpointwise hin.2.2 (by rw [(discardNode_touches _ _).solver])
      (node_discardNode _ _) fun m hm => ?_
    subst hm
    refine keepsWeights_unedited (hordered _) ?_
    cases hg : (s.node m).groupMark
    · rfl
    · exact absurd ⟨hopen, hg⟩ (hapart m)
  | @sealed s _ _ =>
    exact fun ⟨hin, _⟩ => hpointwise hin.2.2 (flight_sealOpenSet s) (node_sealOpenSet s) fun m _ =>
      Node.KeepsWeights.of_invalidated id rfl rfl
  | waits _ => exact fun _ => id
  | @withdrawn s _ =>
    exact fun ⟨hin, _⟩ => hpointwise hin.2.2 (by rw [solver_withdrawGroup]) (node_withdrawGroup s) fun m _ =>
      Node.KeepsWeights.of_invalidated id rfl rfl
  | @single n s _ hg hv =>
    exact fun ⟨hin, _⟩ => hpointwise hin.2.2 (by rw [(singleSwap_touches n s).solver]) (node_singleSwap n s) fun m hm => by
      subst hm; exact keepsWeights_singleSwapped hg hv
  | @swapped s hready =>
    refine fun ⟨hin, hgroup, _⟩ => hpointwise hin.2.2 (by rw [solver_swapAllNodes]) (node_swapAllNodes s) fun m hm => ?_
    unfold Node.visited
    split
    · next hg => exact keepsWeights_groupSwapped hg (ready_of_group hgroup hready hm hg)
    · next hg =>
      split
      · next hv => exact keepsWeights_singleSwapped (by simpa using hg) hv
      · exact Node.KeepsWeights.refl _
  | trans hst _ ih ih' => exact fun hin hs => ih' (hst.sound hin) (ih hin hs)

/-- Settles O56: each change of the map keeps the weights of each record whole. -/
theorem stepKeepsWeightsWhole : Obligations.StepKeepsWeightsWhole := by
  refine KeptByStep.of_mapped (fun _ _ h => h) fun s t h hs => ?_
  rw [weightsAgree_iff, groupAgrees_iff] at hs ⊢
  obtain ⟨⟨hin, hgroup⟩, hapart, hordered, hweighed⟩ := hs
  obtain ⟨hin', hgroup', hapart', hordered'⟩ := h.sound ⟨hin, hgroup, hapart, hordered⟩
  exact ⟨⟨hin', hgroup'⟩, hapart', hordered', h.weighed ⟨hin, hgroup, hapart, hordered⟩ hweighed⟩

end Sys2Proof.Machine
end

section
/-! PROOF. The Claim Pool and the claim counts (O57): what the node lists hold, and what the swap has still to return to the
pool, balance the free count and every claim count. -/

namespace Sys2Proof.Machine

open Sys2Proof Sys2Proof.Stating

set_option Elab.async false

/-! ### What the node lists hold -/

/-- The slots of the claims of a node, in its order. -/
def Node.heldSlots (r : Node) : List Slot := r.claims.map Claim.projector

/-- A measure of the lists of all nodes, summed. -/
def State.sumHeld (s : State) (measure : List Slot → Nat) : Nat :=
  (nodeIndices.map fun n => measure (s.node n).heldSlots).sum

theorem sumHeld_congr {s t : State} (h : ∀ m, (t.node m).heldSlots = (s.node m).heldSlots) (measure : List Slot → Nat) :
    t.sumHeld measure = s.sumHeld measure := by
  unfold State.sumHeld
  rw [List.map_congr_left fun m _ => congrArg measure (h m)]

theorem sumHeld_change {s t : State} {n : Nat} (hn : n < 2049) (h : ∀ m, m ≠ n → t.node m = s.node m)
    (measure : List Slot → Nat) :
    t.sumHeld measure + measure (s.node n).heldSlots = s.sumHeld measure + measure (t.node n).heldSlots :=
  sum_map_change (f := fun m => measure (s.node m).heldSlots) (g := fun m => measure (t.node m).heldSlots)
    nodup_nodeIndices (mem_nodeIndices.2 hn) fun m hm => by rw [h m hm]

theorem count_heldSlots {r : Node} (ho : r.Ordered) (p : Slot) : r.heldSlots.count p = (r.claimedBy p).toNat := by
  unfold Node.heldSlots Node.claimedBy
  have hmem : p ∈ r.claims.map Claim.projector ↔ (r.claims.any fun c => c.projector == p) = true := by simp
  cases ha : r.claims.any fun c => c.projector == p
  · rw [List.count_eq_zero_of_not_mem fun h => by rw [hmem, ha] at h; exact absurd h (by decide)]; rfl
  · rw [List.count_eq_one_of_mem (nodup_projectors ho) (hmem.2 ha)]; rfl

/-- In ordered lists a projector holds as many records as it claims nodes. -/
theorem length_claimNodes {s : State} (ho : s.ListsOrdered) (p : Slot) :
    (s.claimNodes p).length = s.sumHeld (List.count p) := by
  rw [State.claimNodes, ← List.countP_eq_length_filter, countP_eq_sum]
  exact congrArg List.sum (List.map_congr_left fun n _ => (count_heldSlots (ho n) p).symm)

/-- The free count, the lists and what is still to be returned make up the pool, and every claim count with them (R12,
R75). -/
def State.Balanced (s : State) (owed : List Slot) : Prop :=
  s.dome.freeCount + s.sumHeld List.length + owed.length = 6144 ∧
    ∀ p, (s.proj p).claimCount = s.sumHeld (List.count p) + owed.count p

/-- The free count and the claim counts stand. -/
def SameCounts (s t : State) : Prop :=
  t.dome.freeCount = s.dome.freeCount ∧ ∀ p, (t.proj p).claimCount = (s.proj p).claimCount

theorem State.Balanced.congr {s t : State} {owed : List Slot} (hs : s.Balanced owed) (hcounts : SameCounts s t)
    (h : ∀ m, (t.node m).heldSlots = (s.node m).heldSlots) : t.Balanced owed := by
  refine ⟨?_, fun p => ?_⟩
  · rw [hcounts.1, sumHeld_congr h]; exact hs.1
  · rw [hcounts.2, sumHeld_congr h]; exact hs.2 p

/-- Claims that leave a list are owed to the pool. -/
theorem State.Balanced.release {s t : State} {owed : List Slot} (hs : s.Balanced owed) (hcounts : SameCounts s t) {n : Nat}
    (hn : n < 2049) (h : ∀ m, m ≠ n → t.node m = s.node m) {ps : List Slot}
    (hps : (s.node n).heldSlots.Perm (ps ++ (t.node n).heldSlots)) : t.Balanced (ps ++ owed) := by
  refine ⟨?_, fun p => ?_⟩
  · have hsum := sumHeld_change hn h List.length
    have hlen := hps.length_eq
    rw [List.length_append] at hlen
    rw [hcounts.1, List.length_append]
    have := hs.1
    omega
  · have hsum := sumHeld_change hn h (List.count p)
    have hcount := hps.count_eq p
    rw [List.count_append] at hcount
    rw [hcounts.2, List.count_append, hs.2 p]
    omega

theorem proj_countFreed (p : Slot) (s : State) (q : Slot) : (countFreed p s).proj q
    = if q = p then { s.proj p with claimCount := (s.proj p).claimCount - 1 } else s.proj q := by
  unfold countFreed
  rw [State.setClaimCount, proj_modProj]
  rfl

/-- A claim returned to the pool is owed no more (R14). -/
theorem State.Balanced.countFreed {s : State} {p : Slot} {owed : List Slot} (hs : s.Balanced (p :: owed)) :
    (countFreed p s).Balanced owed := by
  refine ⟨?_, fun q => ?_⟩
  · have := hs.1
    rw [List.length_cons] at this
    change s.dome.freeCount + 1 + s.sumHeld List.length + owed.length = 6144
    omega
  · have hq := hs.2 q
    change ((Machine.countFreed p s).proj q).claimCount = s.sumHeld (List.count q) + owed.count q
    rw [proj_countFreed]
    by_cases hqp : q = p
    · subst hqp
      rw [List.count_cons_self] at hq
      rw [if_pos rfl]
      dsimp only
      omega
    · rw [List.count_cons_of_ne (Ne.symm hqp)] at hq
      rw [if_neg hqp]
      exact hq

theorem sameCounts_lowerFailover (p : Slot) (s : State) : SameCounts s (lowerFailover p s) := by
  refine ⟨by rw [(lowerFailover_touches p s).dome], fun q => ?_⟩
  rw [proj_lowerFailover]
  split
  · next h => rw [h]
  · rfl

theorem sameCounts_emptyIfDone (p : Slot) (s : State) : SameCounts s (emptyIfDone p s) := by
  refine ⟨by rw [(emptyIfDone_touches p s).dome], fun q => ?_⟩
  unfold emptyIfDone
  split
  · rw [proj_emptySlot]
    split
    · next h => rw [h]; rfl
    · rfl
  · rfl

theorem SameCounts.trans {s t u : State} (h : SameCounts s t) (h' : SameCounts t u) : SameCounts s u :=
  ⟨h'.1.trans h.1, fun p => (h'.2 p).trans (h.2 p)⟩

/-! ### VACANT and RETIRING slots (R86, R87) -/

/-- No node holds a pending-new claim by the projector. -/
def State.NoneNew (s : State) (p : Slot) : Prop := ∀ n, ∀ c ∈ (s.node n).claims, c.projector = p → c.pendingNew = false

/-- A VACANT slot has no claim; a RETIRING projector has claims left, none of them pending-new. -/
def State.Lively (s : State) (p : Slot) : Prop :=
  ((s.proj p).state = .vacant → (s.proj p).claimCount = 0) ∧
    ((s.proj p).state = .retiring → 0 < (s.proj p).claimCount ∧ s.NoneNew p)

/-- Every pending-new claim of the new list stood in the old one. -/
def Node.NewAmong (q r : Node) : Prop :=
  ∀ c ∈ q.claims, c.pendingNew = true → ∃ d ∈ r.claims, d.projector = c.projector ∧ d.pendingNew = true

theorem Node.NewAmong.refl (r : Node) : r.NewAmong r := fun c hc hn => ⟨c, hc, rfl, hn⟩

theorem Node.NewAmong.of_map {q r : Node} {keeps : Claim → Bool} {g : Claim → Claim}
    (hclaims : q.claims = (r.claims.filter keeps).map g)
    (hg : ∀ c, (g c).projector = c.projector ∧ ((g c).pendingNew = true → c.pendingNew = true)) : q.NewAmong r :=
  fun d hd hn => by
    rw [hclaims] at hd
    obtain ⟨c, hc, rfl⟩ := List.mem_map.1 hd
    exact ⟨c, (List.mem_filter.1 hc).1, (hg c).1.symm, (hg c).2 hn⟩

theorem State.NoneNew.of_newAmong {s t : State} {p : Slot} (hs : s.NoneNew p) (h : ∀ m, (t.node m).NewAmong (s.node m)) :
    t.NoneNew p := fun m c hc hp => by
  by_contra hn
  obtain ⟨d, hd, he, hdn⟩ := h m c hc (by simpa using hn)
  rw [hs m d hd (he.trans hp)] at hdn
  exact absurd hdn (by decide)

theorem State.Lively.congr {s t : State} {p : Slot} (hs : s.Lively p) (hstate : (t.proj p).state = (s.proj p).state)
    (hcount : (t.proj p).claimCount = (s.proj p).claimCount) (h : ∀ m, (t.node m).NewAmong (s.node m)) : t.Lively p := by
  obtain ⟨hvacant, hretiring⟩ := hs
  unfold State.Lively
  rw [hstate, hcount]
  exact ⟨hvacant, fun hr => ⟨(hretiring hr).1, (hretiring hr).2.of_newAmong h⟩⟩

/-- The emptying of a slot without claims: it was RETIRING and is VACANT, or it stands. -/
theorem state_emptyIfDone (p : Slot) (s : State) (q : Slot) : ((emptyIfDone p s).proj q).state =
    if q = p ∧ (s.proj p).state = .retiring ∧ (s.proj p).claimCount = 0 then .vacant else (s.proj q).state := by
  unfold emptyIfDone
  split
  · next h =>
    rw [proj_emptySlot]
    by_cases hq : q = p
    · rw [if_pos hq, if_pos ⟨hq, h⟩]; rfl
    · rw [if_neg hq, if_neg fun h => hq h.1]; rfl
  · next h => rw [if_neg fun h' => h h'.2]

theorem State.Lively.emptyIfDone_other {s : State} {p q : Slot} (hq : q ≠ p) (hs : s.Lively q) :
    (emptyIfDone p s).Lively q := by
  refine hs.congr ?_ ((sameCounts_emptyIfDone p s).2 q) fun m => by rw [node_emptyIfDone]; exact Node.NewAmong.refl _
  rw [state_emptyIfDone, if_neg fun h => hq h.1]

theorem State.Lively.emptyIfDone_self {s : State} {p : Slot} (hvacant : (s.proj p).state = .vacant → (s.proj p).claimCount = 0)
    (hnew : (s.proj p).state = .retiring → s.NoneNew p) : (emptyIfDone p s).Lively p := by
  unfold State.Lively
  rw [state_emptyIfDone, (sameCounts_emptyIfDone p s).2 p]
  split
  · next h => exact ⟨fun _ => h.2.2, nofun⟩
  · next h =>
    refine ⟨hvacant, fun hr => ⟨Nat.pos_of_ne_zero fun h0 => h ⟨rfl, hr, h0⟩, ?_⟩⟩
    exact (hnew hr).of_newAmong fun m => by rw [node_emptyIfDone]; exact Node.NewAmong.refl _

/-! ### Freed claims -/

/-- The pool and the counts balance, and every slot is sound. -/
def State.Accounted (s : State) (owed : List Slot) : Prop := s.Balanced owed ∧ ∀ p, s.Lively p

theorem State.Accounted.congr {s t : State} {owed : List Slot} (hs : s.Accounted owed) (hcounts : SameCounts s t)
    (hstate : ∀ p, (t.proj p).state = (s.proj p).state)
    (h : ∀ m, (t.node m).heldSlots = (s.node m).heldSlots ∧ (t.node m).NewAmong (s.node m)) : t.Accounted owed :=
  ⟨hs.1.congr hcounts fun m => (h m).1, fun p => (hs.2 p).congr (hstate p) (hcounts.2 p) fun m => (h m).2⟩

theorem state_lowerFailover (p : Slot) (s : State) (q : Slot) : ((lowerFailover p s).proj q).state = (s.proj q).state := by
  rw [proj_lowerFailover]
  split
  · next h => rw [h]
  · rfl

theorem State.Accounted.lowerFailover {s : State} {owed : List Slot} (hs : s.Accounted owed) (p : Slot) :
    (lowerFailover p s).Accounted owed :=
  hs.congr (sameCounts_lowerFailover p s) (state_lowerFailover p s) fun m => by
    rw [node_lowerFailover]; exact ⟨rfl, Node.NewAmong.refl _⟩

/-- A claim freed by a swap was owed, and its retiring projector leaves its slot with the last one (R71, R87). -/
theorem State.Accounted.freeAtSwap {s : State} {p : Slot} {owed : List Slot} (hs : s.Accounted (p :: owed)) :
    (freeAtSwap s p).Accounted owed := by
  obtain ⟨hbalanced, hlively⟩ := hs
  refine ⟨hbalanced.countFreed.congr (sameCounts_emptyIfDone p _) fun m => by
    rw [node_freeAtSwap, node_countFreed], fun q => ?_⟩
  have hpos : 0 < (s.proj p).claimCount := by rw [hbalanced.2 p, List.count_cons_self]; omega
  by_cases hq : q = p
  · subst hq
    have hproj : (countFreed q s).proj q = { s.proj q with claimCount := (s.proj q).claimCount - 1 } := by
      rw [proj_countFreed, if_pos rfl]
    refine State.Lively.emptyIfDone_self (fun hv => ?_) fun hr => ?_
    · rw [hproj] at hv
      exact absurd ((hlively q).1 hv) hpos.ne'
    · rw [hproj] at hr
      exact ((hlively q).2 hr).2
  · refine State.Lively.emptyIfDone_other hq ((hlively q).congr ?_ ?_ fun m => Node.NewAmong.refl _)
    · rw [proj_countFreed, if_neg hq]
    · rw [proj_countFreed, if_neg hq]

/-! ### Claims freed outside a swap -/

theorem heldSlots_dropClaim {r : Node} (ho : r.Ordered) {p : Slot} {c : Claim} (hc : claimBy r.claims p = some c) :
    r.heldSlots.Perm ([p] ++ (r.dropClaim p).heldSlots) := by
  obtain ⟨hmem, rfl⟩ := claimBy_some hc
  have hdrop : r.claims.filter (fun d => d.projector != c.projector) = r.claims.erase c := by
    rw [List.Nodup.erase_eq_filter (List.Nodup.of_map _ (nodup_projectors ho))]
    refine List.filter_congr fun d hd => ?_
    by_cases hdc : d = c
    · simp [hdc]
    · have hne : d.projector ≠ c.projector := fun e => hdc (eq_of_projector ho.2 hd hmem e)
      exact (bne_iff_ne.2 hne).trans (bne_iff_ne.2 hdc).symm
  unfold Node.heldSlots Node.dropClaim
  dsimp only
  rw [hdrop]
  exact (List.perm_cons_erase hmem).map Claim.projector

theorem proj_freeClaim (p : Slot) (n : Nat) (s : State) (q : Slot) : ((freeClaim p n s).proj q).state = (s.proj q).state ∧
    ((freeClaim p n s).proj q).claimCount = if q = p then (s.proj p).claimCount - 1 else (s.proj q).claimCount := by
  unfold freeClaim
  rw [state_lowerFailover, (sameCounts_lowerFailover p _).2, proj_countFreed]
  split
  · next h => rw [h]; exact ⟨rfl, rfl⟩
  · exact ⟨rfl, rfl⟩

theorem State.Balanced.freeClaim {s : State} (hs : s.Balanced []) {n : Nat} (hn : n < 2049) (ho : (s.node n).Ordered)
    {p : Slot} {c : Claim} (hc : claimBy (s.node n).claims p = some c) : (freeClaim p n s).Balanced [] := by
  have hdropped : (s.modNode n fun r => r.dropClaim p).Balanced ([p] ++ []) := by
    refine State.Balanced.release (s := s) (t := s.modNode n fun r => r.dropClaim p) hs ⟨rfl, fun _ => rfl⟩ hn
      (fun m hm => by rw [node_modNode, if_neg hm]) ?_
    rw [node_modNode, if_pos rfl]
    exact heldSlots_dropClaim ho hc
  exact (State.Balanced.countFreed hdropped).congr (sameCounts_lowerFailover p _) fun m => by
    rw [Machine.freeClaim, node_lowerFailover]

theorem newAmong_freeClaim (p : Slot) (n : Nat) (s : State) (m : Nat) : ((freeClaim p n s).node m).NewAmong (s.node m) := by
  rw [node_freeClaim]
  split
  · next h =>
    rw [h]
    exact Node.NewAmong.of_map (keeps := fun d => d.projector != p) (g := id) (by rw [List.map_id]; rfl) fun _ => ⟨rfl, id⟩
  · exact Node.NewAmong.refl _

theorem State.Lively.freeClaim_other {s : State} {p q : Slot} (hq : q ≠ p) (hs : s.Lively q) (n : Nat) :
    (freeClaim p n s).Lively q := by
  obtain ⟨hstate, hcount⟩ := proj_freeClaim p n s q
  rw [if_neg hq] at hcount
  exact hs.congr hstate hcount (newAmong_freeClaim p n s)

/-- A projector with a pending-new claim is not RETIRING, so the claim is freed without more. -/
theorem State.Accounted.freeClaim {s : State} (hs : s.Accounted []) {n : Nat} (hn : n < 2049) (ho : (s.node n).Ordered)
    {p : Slot} {c : Claim} (hc : claimBy (s.node n).claims p = some c) (hnew : c.pendingNew = true) :
    (freeClaim p n s).Accounted [] := by
  refine ⟨hs.1.freeClaim hn ho hc, fun q => ?_⟩
  by_cases hq : q = p
  · subst hq
    obtain ⟨hstate, hcount⟩ := proj_freeClaim q n s q
    obtain ⟨hmem, hproj⟩ := claimBy_some hc
    unfold State.Lively
    rw [hstate, hcount, if_pos rfl]
    refine ⟨fun hv => ?_, fun hr => ?_⟩
    · rw [(hs.2 q).1 hv]
    · have := ((hs.2 q).2 hr).2 n c hmem hproj
      rw [hnew] at this
      exact absurd this (by decide)
  · exact (hs.2 q).freeClaim_other hq n

/-! ### The changes of the map -/

theorem heldSlots_map {q r : Node} {g : Claim → Claim} (h : q.claims = r.claims.map g) (hg : ∀ c, (g c).projector = c.projector) :
    q.heldSlots = r.heldSlots := by
  unfold Node.heldSlots
  rw [h, List.map_map]
  exact List.map_congr_left fun c _ => hg c

/-- A record whose claims stand, but for what is not counted. -/
def Node.SameHeld (q r : Node) : Prop := q.heldSlots = r.heldSlots ∧ q.NewAmong r

theorem Node.SameHeld.refl (r : Node) : r.SameHeld r := ⟨rfl, Node.NewAmong.refl r⟩

theorem Node.SameHeld.of_claims {q r : Node} (h : q.claims = r.claims) : q.SameHeld r :=
  ⟨congrArg (List.map Claim.projector) h, fun c hc hn => ⟨c, h ▸ hc, rfl, hn⟩⟩

theorem Node.SameHeld.of_map {q r : Node} (g : Claim → Claim) (h : q.claims = r.claims.map g)
    (hg : ∀ c, (g c).projector = c.projector ∧ ((g c).pendingNew = true → c.pendingNew = true)) : q.SameHeld r :=
  ⟨heldSlots_map h fun c => (hg c).1, Node.NewAmong.of_map (keeps := fun _ => true) (by rw [filter_true]; exact h) hg⟩

theorem sameHeld_modClaim (r : Node) (p : Slot) {f : Claim → Claim}
    (hf : ∀ c, (f c).projector = c.projector ∧ ((f c).pendingNew = true → c.pendingNew = true)) :
    (r.modClaim p f).SameHeld r :=
  Node.SameHeld.of_map (fun c => if c.projector == p then f c else c) rfl fun c => by
    split
    · exact hf c
    · exact ⟨rfl, id⟩

/-- Records that hold what they held, in a pool and a Projector Table that stand. -/
theorem State.Accounted.of_sameHeld {s t : State} {owed : List Slot} (hs : s.Accounted owed)
    (hfree : t.dome.freeCount = s.dome.freeCount) (hproj : ∀ p, t.proj p = s.proj p)
    (h : ∀ m, (t.node m).SameHeld (s.node m)) : t.Accounted owed :=
  hs.congr ⟨hfree, fun p => by rw [hproj]⟩ (fun p => by rw [hproj]) h

theorem State.Accounted.of_stands {s t : State} (h : Stands s t) (hs : s.Accounted []) : t.Accounted [] := by
  have hcount (p : Slot) : (t.proj p).claimCount = (s.proj p).claimCount := by
    obtain ⟨hsame | ⟨hvacant, hzero⟩, -, -⟩ := h.counts p
    · exact hsame
    · rw [hzero, (hs.2 p).1 hvacant]
  have hnode (m : Nat) : t.node m = s.node m := node_congr h.nodes m
  refine ⟨hs.1.congr ⟨h.free, hcount⟩ fun m => by rw [hnode], fun p => ?_⟩
  obtain ⟨-, hvacant, hretiring⟩ := h.counts p
  obtain ⟨hzero, hclaims⟩ := hs.2 p
  refine ⟨fun hv => (hcount p).trans (hzero (hvacant hv)), fun hr => ?_⟩
  obtain ⟨hpos, hnew⟩ := hclaims (hretiring hr)
  exact ⟨by rw [hcount]; exact hpos, hnew.of_newAmong fun m => by rw [hnode]; exact Node.NewAmong.refl _⟩

theorem State.Accounted.of_emptied {s t : State} (h : Emptied s t) : t.Accounted [] := by
  have hnode (m : Nat) : (t.node m).heldSlots = [] := by rw [State.node, h.nodes]; rfl
  have hsum (measure : List Slot → Nat) (h0 : measure [] = 0) : t.sumHeld measure = 0 := by
    refine List.sum_eq_zero fun k hk => ?_
    obtain ⟨m, -, rfl⟩ := List.mem_map.1 hk
    rw [hnode, h0]
  refine ⟨⟨by rw [h.free, hsum _ rfl]; rfl, fun p => ?_⟩, fun p => ⟨fun _ => (h.counts p).1, fun hr => absurd hr (h.counts p).2⟩⟩
  rw [(h.counts p).1, hsum _ rfl]
  rfl

theorem free_queueNode (cls : QueueClass) (n : Nat) (s : State) : (queueNode cls n s).dome.freeCount = s.dome.freeCount := by
  unfold queueNode
  split <;> rfl

theorem free_hardInvalidate (cls : QueueClass) (n : Nat) (s : State) :
    (hardInvalidate cls n s).dome.freeCount = s.dome.freeCount := by
  unfold hardInvalidate
  dsimp only
  split
  · exact free_queueNode cls n _
  · exact free_queueNode cls n _

theorem State.Accounted.hardInvalidate {s : State} {owed : List Slot} (hs : s.Accounted owed) (cls : QueueClass) (n : Nat) :
    (hardInvalidate cls n s).Accounted owed :=
  hs.of_sameHeld (free_hardInvalidate cls n s) (proj_congr (hardInvalidate_touches cls n s).projectors) fun m => by
    rw [node_hardInvalidate]
    split
    · next h => rw [h]; exact Node.SameHeld.of_claims rfl
    · exact Node.SameHeld.refl _

theorem free_startSolve (s : State) : (startSolve s).dome.freeCount = s.dome.freeCount := by
  unfold startSolve
  split <;> rfl

theorem free_finishSolve (f : Flight) (s : State) : (finishSolve f s).dome.freeCount = s.dome.freeCount := by
  have hgained : (if (s.node f.node).groupMark && !(s.node f.node).nextValid then
      memberGained ((s.setSolver { s.solver with flight := none }).modNode f.node (Node.stored f))
      else (s.setSolver { s.solver with flight := none }).modNode f.node (Node.stored f)).dome.freeCount
      = s.dome.freeCount := by split <;> rfl
  unfold finishSolve
  dsimp only
  split
  · rfl
  · split
    · rw [State.raise_dome, hgained]
    · exact hgained

theorem State.Accounted.create {s : State} (hs : s.Accounted []) {n : Nat} (hn : n < 2049) {c : Claim}
    (hfree : s.dome.freeCount ≠ 0) (hv : (s.proj c.projector).state ≠ .vacant)
    (hr : (s.proj c.projector).state ≠ .retiring) : (allocateClaim c n s).Accounted [] := by
  have hat : ((allocateClaim c n s).node n).heldSlots.Perm (c.projector :: (s.node n).heldSlots) := by
    rw [node_allocateClaim, if_pos rfl]
    exact (insertClaim_perm c _).map Claim.projector
  have helse : ∀ m, m ≠ n → (allocateClaim c n s).node m = s.node m := fun m hm => by
    rw [node_allocateClaim, if_neg hm]
  have hproj (q : Slot) : (allocateClaim c n s).proj q = if q = c.projector then
      { s.proj c.projector with claimCount := (s.proj c.projector).claimCount + 1 } else s.proj q := by
    unfold allocateClaim
    rw [State.setClaimCount, proj_modProj]
    rfl
  refine ⟨⟨?_, fun q => ?_⟩, fun q => ?_⟩
  · have hsum := sumHeld_change hn helse List.length
    rw [hat.length_eq, List.length_cons] at hsum
    have hpool : (allocateClaim c n s).dome.freeCount = s.dome.freeCount - 1 := rfl
    have := hs.1.1
    rw [hpool]
    omega
  · have hsum := sumHeld_change hn helse (List.count q)
    rw [hat.count_eq] at hsum
    have hcount := hs.1.2 q
    rw [hproj]
    by_cases hq : q = c.projector
    · subst hq
      rw [List.count_cons_self] at hsum
      rw [if_pos rfl]
      dsimp only
      omega
    · rw [List.count_cons_of_ne (Ne.symm hq)] at hsum
      rw [if_neg hq]
      omega
  · by_cases hq : q = c.projector
    · subst hq
      unfold State.Lively
      rw [hproj, if_pos rfl]
      exact ⟨fun h => absurd h hv, fun h => absurd h hr⟩
    · obtain ⟨hzero, hclaims⟩ := hs.2 q
      unfold State.Lively
      rw [hproj, if_neg hq]
      refine ⟨hzero, fun h => ⟨(hclaims h).1, fun m d hd hp => ?_⟩⟩
      rw [node_allocateClaim] at hd
      split at hd
      · rcases List.mem_cons.1 ((insertClaim_perm c _).mem_iff.1 hd) with rfl | hd
        · exact absurd hp.symm hq
        · exact (hclaims h).2 n d hd hp
      · exact (hclaims h).2 m d hd hp

/-! ### The discard of a node (R64) -/

theorem claimBy_dropClaim_other {p q : Slot} (hq : q ≠ p) (r : Node) : claimBy (r.dropClaim p).claims q = claimBy r.claims q := by
  unfold claimBy Node.dropClaim
  dsimp only
  rw [List.find?_filter]
  refine congrArg (fun k => List.find? k r.claims) (funext fun c => ?_)
  by_cases hc : c.projector = q
  · simp [hc, hq]
  · simp [hc]

theorem ordered_freeClaim {s : State} (ho : s.ListsOrdered) (p : Slot) (n : Nat) : (freeClaim p n s).ListsOrdered := fun m => by
  rw [node_freeClaim]
  split
  · exact ordered_filter (fun c => c.projector != p) (ho n)
  · exact ho m

theorem State.Accounted.freeClaims {n : Nat} (hn : n < 2049) {ps : List Slot} (hnodup : ps.Nodup) {s : State}
    (ho : s.ListsOrdered) (hps : ∀ p ∈ ps, ∃ c, claimBy (s.node n).claims p = some c ∧ c.pendingNew = true)
    (hs : s.Accounted []) : (ps.foldl (fun u p => Machine.freeClaim p n u) s).Accounted [] := by
  induction ps generalizing s with
  | nil => exact hs
  | cons p ps ih =>
    obtain ⟨hp, hnodup⟩ := List.nodup_cons.1 hnodup
    obtain ⟨c, hc, hnew⟩ := hps p (by simp)
    refine ih hnodup (ordered_freeClaim ho p n) (fun q hq => ?_) (hs.freeClaim hn (ho n) hc hnew)
    rw [node_freeClaim, if_pos rfl, claimBy_dropClaim_other (ne_of_mem_of_not_mem hq hp)]
    exact hps q (by simp [hq])

theorem claimBy_of_mem {r : Node} (ho : r.Ordered) {c : Claim} (hc : c ∈ r.claims) : claimBy r.claims c.projector = some c := by
  cases h : claimBy r.claims c.projector
  case none => exact absurd rfl (claimBy_eq_none_iff.1 h c hc)
  case some d =>
    obtain ⟨hd, hp⟩ := claimBy_some h
    rw [eq_of_projector ho.2 hd hc hp]

theorem State.Accounted.discard {s : State} (hs : s.Accounted []) (ho : s.ListsOrdered) {n : Nat} (hn : n < 2049) :
    (discardNode s n).Accounted [] := by
  have hslots : (s.node n).newSlots.Nodup := by
    unfold Node.newSlots
    exact (nodup_projectors (ho n)).sublist (List.filter_sublist.map _)
  have hfreed : ((s.node n).newSlots.foldl (fun u p => Machine.freeClaim p n u) s).Accounted [] := by
    refine hs.freeClaims hn hslots ho fun p hp => ?_
    obtain ⟨c, hc, rfl⟩ := List.mem_map.1 hp
    exact ⟨c, claimBy_of_mem (ho n) (List.mem_filter.1 hc).1, (List.mem_filter.1 hc).2⟩
  unfold discardNode
  refine hfreed.of_sameHeld rfl (fun _ => rfl) fun m => ?_
  rw [node_modNode]
  split
  · next h => rw [h]; exact Node.SameHeld.of_map Claim.unedited rfl fun _ => ⟨rfl, id⟩
  · exact Node.SameHeld.refl _

/-! ### Entry into RETIRING (R86) -/

/-- What the entry of a projector into RETIRING keeps while it visits the nodes: all but the projector's own soundness. -/
def State.AccountedBut (p : Slot) (s : State) : Prop :=
  s.Balanced [] ∧ s.ListsOrdered ∧ (∀ q, q ≠ p → s.Lively q) ∧ (s.proj p).state = .retiring

theorem ordered_withdrawnBy {r : Node} (ho : r.Ordered) (p : Slot) : (r.withdrawnBy p).Ordered := by
  unfold Node.withdrawnBy
  split
  · exact ho
  · split
    · exact ordered_filter (fun c => c.projector != p) ho
    · exact ordered_nodeClosed.claim r p (fun d => { d with withdrawn := true }) (fun _ => ⟨rfl, rfl, rfl⟩) ho

theorem State.AccountedBut.withdrawAt {p : Slot} {s : State} (hs : s.AccountedBut p) {n : Nat} (hn : n < 2049) :
    (withdrawAt p s n).AccountedBut p := by
  obtain ⟨hbalanced, ho, hlively, hretiring⟩ := hs
  have ho' : (Machine.withdrawAt p s n).ListsOrdered := fun m => by
    rw [node_withdrawAt]
    split
    · exact ordered_withdrawnBy (ho n) p
    · exact ho m
  unfold Machine.withdrawAt at ho' ⊢
  split
  · exact ⟨hbalanced, ho, hlively, hretiring⟩
  · next c hc =>
    rw [hc] at ho'
    dsimp only at ho'
    split at ho'
    · next hnew =>
      rw [if_pos hnew]
      exact ⟨hbalanced.freeClaim hn (ho n) hc, ho', fun q hq => (hlively q hq).freeClaim_other hq n,
        ((proj_freeClaim p n s p).1).trans hretiring⟩
    · next hnew =>
      rw [if_neg hnew]
      have hheld (m : Nat) : ((s.modNode n fun r => r.modClaim p fun d => { d with withdrawn := true }).node m).SameHeld
          (s.node m) := by
        rw [node_modNode]
        split
        · next h => rw [h]; exact sameHeld_modClaim _ p fun _ => ⟨rfl, id⟩
        · exact Node.SameHeld.refl _
      exact ⟨hbalanced.congr ⟨rfl, fun _ => rfl⟩ fun m => (hheld m).1, ho',
        fun q hq => (hlively q hq).congr rfl rfl fun m => (hheld m).2, hretiring⟩

theorem noneNew_withdrawnBy {r : Node} (ho : r.Ordered) {p : Slot} {c : Claim} (hc : c ∈ (r.withdrawnBy p).claims)
    (hp : c.projector = p) : c.pendingNew = false := by
  unfold Node.withdrawnBy at hc
  split at hc
  · next h => exact absurd hp (claimBy_eq_none_iff.1 h c hc)
  · next d h =>
    split at hc
    · exact absurd hp (by simpa using (List.mem_filter.1 hc).2)
    · next hold =>
      obtain ⟨e, he, rfl⟩ := List.mem_map.1 hc
      obtain ⟨hd, hdp⟩ := claimBy_some h
      have hep : e.projector = p := by
        split at hp
        · next heq => simpa using heq
        · exact hp
      have hde : e = d := eq_of_projector ho.2 he hd (hep.trans hdp.symm)
      subst hde
      split <;> simpa using hold

/-- A projector in RETIRING that has still to be judged by its claim count. -/
def State.LeavingOf (p : Slot) (s : State) : Prop :=
  s.Balanced [] ∧ (∀ q, q ≠ p → s.Lively q) ∧ (s.proj p).state = .retiring ∧ s.NoneNew p

theorem State.LeavingOf.congr {p : Slot} {s t : State} (hs : s.LeavingOf p) (hcounts : SameCounts s t)
    (hstate : ∀ q, (t.proj q).state = (s.proj q).state) (h : ∀ m, (t.node m).SameHeld (s.node m)) : t.LeavingOf p := by
  obtain ⟨hbalanced, hlively, hretiring, hnone⟩ := hs
  exact ⟨hbalanced.congr hcounts fun m => (h m).1,
    fun q hq => (hlively q hq).congr (hstate q) (hcounts.2 q) fun m => (h m).2, (hstate p).trans hretiring,
    hnone.of_newAmong fun m => (h m).2⟩

theorem State.LeavingOf.hardInvalidate {p : Slot} {s : State} (hs : s.LeavingOf p) (cls : QueueClass) (n : Nat) :
    (hardInvalidate cls n s).LeavingOf p := by
  have hproj (q : Slot) : (Machine.hardInvalidate cls n s).proj q = s.proj q :=
    proj_congr (hardInvalidate_touches cls n s).projectors q
  refine hs.congr ⟨free_hardInvalidate cls n s, fun q => by rw [hproj]⟩ (fun q => by rw [hproj]) fun m => ?_
  rw [node_hardInvalidate]
  split
  · next h => rw [h]; exact Node.SameHeld.of_claims rfl
  · exact Node.SameHeld.refl _

theorem State.LeavingOf.recomputeGains {p : Slot} {s : State} (hs : s.LeavingOf p) : (recomputeGains s).LeavingOf p :=
  hs.congr ⟨by rw [(recomputeGains_touches s).dome], fun q => by rw [proj_recomputeGains]; rfl⟩
    (fun q => by rw [proj_recomputeGains]; rfl)
    fun m => by rw [(recomputeGains_touches s).node]; exact Node.SameHeld.refl _

theorem State.LeavingOf.emptyIfDone {p : Slot} {s : State} (hs : s.LeavingOf p) : (emptyIfDone p s).Accounted [] := by
  obtain ⟨hbalanced, hlively, hretiring, hnone⟩ := hs
  refine ⟨hbalanced.congr (sameCounts_emptyIfDone p s) fun m => by rw [node_emptyIfDone], fun q => ?_⟩
  by_cases hq : q = p
  · subst hq
    exact State.Lively.emptyIfDone_self (fun hv => absurd (hv.symm.trans hretiring) (by decide)) fun _ => hnone
  · exact (hlively q hq).emptyIfDone_other hq

theorem State.Accounted.enterRetiring {s : State} (hs : s.Accounted []) (ho : s.ListsOrdered) (hb : s.NodesBounded) (p : Slot) :
    (enterRetiring p s).Accounted [] := by
  have hproj (q : Slot) : (s.modProj p Projector.retired).proj q = if q = p then (s.proj p).retired else s.proj q :=
    proj_modProj s p q _
  have hretired : (s.modProj p Projector.retired).AccountedBut p := by
    refine ⟨hs.1.congr ⟨rfl, fun q => ?_⟩ fun _ => rfl, ho, fun q hq => ?_, by rw [hproj, if_pos rfl]; rfl⟩
    · rw [hproj]
      split
      · next h => rw [h]; rfl
      · rfl
    · exact (hs.2 q).congr (by rw [hproj, if_neg hq]) (by rw [hproj, if_neg hq]) fun _ => Node.NewAmong.refl _
  have hwithdrawn := foldl_keeps_mem (State.AccountedBut p) (Machine.withdrawAt p) (s.claimNodes p)
    (fun _ n hn h => h.withdrawAt (mem_claimNodes.1 hn).1) _ hretired
  have hnone : ((s.claimNodes p).foldl (Machine.withdrawAt p) (s.modProj p Projector.retired)).NoneNew p := fun m c hc hp => by
    rw [node_withdrawAll, node_modProj] at hc
    split at hc
    · exact noneNew_withdrawnBy (ho m) hc hp
    · next hm =>
      refine absurd (mem_claimNodes.2 ⟨hb.claimed_lt hc, ?_⟩) hm
      exact List.any_eq_true.2 ⟨c, hc, by simpa using hp⟩
  have hleaving : ((s.claimNodes p).foldl (Machine.withdrawAt p) (s.modProj p Projector.retired)).LeavingOf p :=
    ⟨hwithdrawn.1, hwithdrawn.2.2.1, hwithdrawn.2.2.2, hnone⟩
  have hinvalidated := foldl_keeps (State.LeavingOf p) (fun t n => Machine.hardInvalidate .urgent n t)
    (fun _ n h => h.hardInvalidate .urgent n) (s.claimNodes p) _ hleaving
  unfold Machine.enterRetiring
  dsimp only
  refine State.LeavingOf.emptyIfDone ?_
  split
  · exact State.LeavingOf.recomputeGains hinvalidated
  · exact hinvalidated

/-! ### The swap (R66 to R71) -/

theorem heldSlots_swapped {r q : Node} {leaves : Claim → Bool} {g : Claim → Claim}
    (hclaims : q.claims = (r.claims.filter fun c => !leaves c).map g) (hg : ∀ c, (g c).projector = c.projector) :
    r.heldSlots.Perm (r.freedSlots leaves ++ q.heldSlots) := by
  have hq : q.heldSlots = (r.claims.filter fun c => !leaves c).map Claim.projector := by
    unfold Node.heldSlots
    rw [hclaims, List.map_map]
    exact List.map_congr_left fun c _ => hg c
  rw [hq, Node.freedSlots, ← List.map_append]
  exact ((List.filter_append_perm leaves r.claims).map Claim.projector).symm

theorem State.Accounted.freeAll {ps : List Slot} {s : State} (hs : s.Accounted ps) :
    (ps.foldl Machine.freeAtSwap s).Accounted [] := by
  induction ps generalizing s with
  | nil => exact hs
  | cons p ps ih => exact ih hs.freeAtSwap

theorem State.Accounted.reportSwap {s : State} {n : Nat} {old new : Node} {leaves : Claim → Bool}
    (hs : s.Accounted (old.freedSlots leaves)) : (reportSwap n old new leaves s).Accounted [] := by
  have hdark : (if new.condition = .dark ∧ old.condition ≠ .dark then s.raise (.darkNode n) else s).Accounted
      (old.freedSlots leaves) := by
    split
    · exact hs.of_sameHeld rfl (fun q => proj_raise s _ q) fun m => by rw [node_raise]; exact Node.SameHeld.refl _
    · exact hs
  unfold Machine.reportSwap
  exact (foldl_keeps (fun t : State => t.Accounted (old.freedSlots leaves)) (fun v p => Machine.lowerFailover p v)
    (fun _ p h => h.lowerFailover p) _ _ hdark).freeAll

/-- A node put in the place of one whose leaving claims it lacks, and reported (R67, R68). -/
theorem State.Accounted.swapped {s : State} (hs : s.Accounted []) {n : Nat} (hn : n < 2049) {new : Node}
    {leaves : Claim → Bool} {g : Claim → Claim} (hclaims : new.claims = ((s.node n).claims.filter fun c => !leaves c).map g)
    (hg : ∀ c, (g c).projector = c.projector ∧ ((g c).pendingNew = true → c.pendingNew = true)) :
    (Machine.reportSwap n (s.node n) new leaves (s.putNode n new)).Accounted [] := by
  refine State.Accounted.reportSwap ⟨?_, fun p => (hs.2 p).congr rfl rfl fun m => ?_⟩
  · rw [← List.append_nil ((s.node n).freedSlots leaves)]
    refine hs.1.release (t := s.putNode n new) ⟨rfl, fun _ => rfl⟩ hn (fun m hm => by rw [node_putNode, if_neg hm]) ?_
    rw [node_putNode, if_pos rfl]
    exact heldSlots_swapped hclaims fun c => (hg c).1
  · rw [node_putNode]
    split
    · next h => rw [h]; exact Node.NewAmong.of_map hclaims hg
    · exact Node.NewAmong.refl _

theorem State.Accounted.singleSwap {s : State} (hs : s.Accounted []) {n : Nat} (hn : n < 2049) :
    (singleSwap n s).Accounted [] := by
  unfold Machine.singleSwap
  exact hs.swapped hn (new := (s.node n).singleSwapped) (leaves := Claim.leavesAtSingle) (g := Claim.swapped) rfl
    fun _ => ⟨rfl, id⟩

theorem State.Accounted.groupSwap {s : State} (hs : s.Accounted []) {n : Nat} (hn : n < 2049) :
    (groupSwap n s).Accounted [] := by
  unfold Machine.groupSwap
  exact hs.swapped hn (new := (s.node n).groupSwapped) (leaves := Claim.leavesAtGroup) (g := fun c => c.promoted.swapped) rfl
    fun _ => ⟨rfl, nofun⟩

theorem State.Accounted.swapNode {s : State} (hs : s.Accounted []) (ready : Bool) {n : Nat} (hn : n < 2049) :
    (swapNode ready s n).Accounted [] := by
  unfold Machine.swapNode
  dsimp only
  split
  · split
    · exact hs.groupSwap hn
    · exact hs
  · split
    · exact hs.singleSwap hn
    · exact hs

theorem State.Accounted.setEdit {s : State} (hs : s.Accounted []) (e : EditControl) : (s.setEdit e).Accounted [] :=
  State.Accounted.of_sameHeld (s := s) hs rfl (fun _ => rfl) fun _ => Node.SameHeld.refl _

theorem State.Accounted.disbanded {s : State} (hs : s.Accounted []) : (disbanded s).Accounted [] := hs.setEdit _

theorem State.Accounted.sealNode {s : State} (hs : s.Accounted []) (n : Nat) : (sealNode s n).Accounted [] := by
  unfold Machine.sealNode
  refine State.Accounted.hardInvalidate (State.Accounted.of_sameHeld (s := s)
    (t := s.modNode n fun r => { r with openMark := false, groupMark := true }) hs rfl (fun _ => rfl) fun m => ?_) .normal n
  rw [node_modNode]
  split
  · next h => rw [h]; exact Node.SameHeld.of_claims rfl
  · exact Node.SameHeld.refl _

theorem State.Accounted.sealOpenSet {s : State} (hs : s.Accounted []) : (sealOpenSet s).Accounted [] := by
  have hsealed := foldl_keeps (fun t : State => t.Accounted []) Machine.sealNode (fun _ n h => h.sealNode n) s.openSet s hs
  unfold Machine.sealOpenSet
  dsimp only
  exact hsealed.setEdit _

theorem State.Accounted.withdrawNode {s : State} (hs : s.Accounted []) (n : Nat) : (withdrawNode s n).Accounted [] := by
  refine hs.of_sameHeld rfl (fun _ => rfl) fun m => ?_
  rw [node_withdrawNode]
  split
  · next h => rw [h]; exact Node.SameHeld.of_claims rfl
  · exact Node.SameHeld.refl _

/-- What the counts rest on, and the counts. -/
def State.Reckoned (s : State) : Prop := s.Confined ∧ s.ListsOrdered ∧ s.Accounted []

theorem Mapped.accounted {s t : State} (h : Mapped s t) : s.Confined → s.ListsOrdered → s.Accounted [] → t.Accounted [] := by
  have hpointwise {s t : State} (hfree : t.dome.freeCount = s.dome.freeCount) (hproj : ∀ q, t.proj q = s.proj q) {n : Nat}
      {r : Node} (h : ∀ m, t.node m = if m = n then r else s.node m) (hr : r.SameHeld (s.node n)) (hs : s.Accounted []) :
      t.Accounted [] :=
    hs.of_sameHeld hfree hproj fun m => by
      rw [h m]
      split
      · next hm => rw [hm]; exact hr
      · exact Node.SameHeld.refl _
  intro hin ho
  induction h with
  | stands h => exact State.Accounted.of_stands h
  | emptied h => exact fun _ => State.Accounted.of_emptied h
  | invalidate cls s _ => exact fun hs => hs.hardInvalidate cls _
  | refresh s _ =>
    exact hpointwise (free_queueNode _ _ s) (proj_congr (queueNode_touches _ _ s).projectors) (node_softRefresh _ s)
      (Node.SameHeld.of_claims rfl)
  | begin s =>
    exact fun hs => hs.of_sameHeld (free_startSolve s) (proj_congr (startSolve_touches s).projectors) fun m => by
      rcases node_startSolve s m with e | ⟨-, e⟩ <;> rw [e] <;> exact Node.SameHeld.of_claims rfl
  | @finish f s _ =>
    refine hpointwise (free_finishSolve f s) (proj_congr (finishSolve_touches f s).projectors) (node_finishSolve f s) ?_
    split
    · exact Node.SameHeld.of_claims rfl
    · exact Node.SameHeld.of_map (fun c => { c with nextWeight := f.weightFor c.projector }) rfl fun _ => ⟨rfl, id⟩
  | retire p s => exact fun hs => hs.enterRetiring ho hin.1 p
  | edit p _ hf _ =>
    refine hpointwise rfl (fun _ => rfl) (node_modNode _ _ · _) (sameHeld_modClaim _ p fun c => ?_)
    obtain ⟨hp, hn, -⟩ := hf c
    exact ⟨hp, fun h => hn ▸ h⟩
  | opened _ _ => exact hpointwise rfl (fun _ => rfl) (node_modNode _ _ · _) (Node.SameHeld.of_claims rfl)
  | create q pin hn _ _ _ hfree hv hr => exact fun hs => hs.create (hn.lt hin.2.1) hfree hv hr
  | free hn _ hc hnew => exact fun hs => hs.freeClaim hn (ho _) hc hnew
  | discard hn _ => exact fun hs => hs.discard ho hn
  | sealed _ _ => exact State.Accounted.sealOpenSet
  | waits _ => exact fun hs => hs.of_sameHeld rfl (fun _ => rfl) fun _ => Node.SameHeld.refl _
  | @withdrawn s _ =>
    exact fun hs => (foldl_keeps (fun t : State => t.Accounted []) withdrawNode (fun _ n h => h.withdrawNode n)
      s.group s hs).disbanded
  | single hn _ _ => exact fun hs => hs.singleSwap hn
  | @swapped s _ =>
    exact fun hs => (foldl_keeps_mem (fun t : State => t.Accounted []) (swapNode true) nodeIndices
      (fun _ n hn h => h.swapNode true (mem_nodeIndices.1 hn)) s hs).disbanded
  | trans hst _ ih ih' =>
    exact fun hs => ih' (hst.confined hin) (hst.nodes ordered_nodeClosed ho) (ih hin ho hs)

theorem balanced_nil_iff (s : State) : s.Balanced [] ↔ s.dome.freeCount + s.sumHeld List.length = 6144 ∧
    ∀ p, (s.proj p).claimCount = s.sumHeld (List.count p) := by
  unfold State.Balanced
  generalize s.sumHeld List.length = k
  exact and_congr (by rw [List.length_nil, Nat.add_zero]) (forall_congr' fun p => by rw [List.count_nil, Nat.add_zero])

theorem sumHeld_length (s : State) :
    s.sumHeld List.length = (nodeIndices.map fun n => (s.node n).claims.length).sum := by
  unfold State.sumHeld
  simp only [Node.heldSlots, List.length_map]

theorem claimsCounted_iff (s : State) : s.ClaimsCounted ↔ s.Reckoned := by
  unfold State.ClaimsCounted State.Reckoned State.Confined State.Accounted State.Lively State.NoneNew
  rw [← sumHeld_length, balanced_nil_iff]
  refine ⟨fun ⟨hb, hc, hq, ho, hfree, hp⟩ => ⟨⟨hb, hc, hq⟩, ho, ⟨hfree, fun p => ?_⟩, fun p => (hp p).2⟩,
    fun ⟨⟨hb, hc, hq⟩, ho, ⟨hfree, hcount⟩, hlively⟩ => ⟨hb, hc, hq, ho, hfree, fun p => ⟨?_, hlively p⟩⟩⟩
  · rw [(hp p).1, length_claimNodes ho]
  · rw [hcount, length_claimNodes ho]

/-- Settles O57: whatever leaves a node list is returned to the pool and to its projector's count in the same change. -/
theorem stepKeepsClaimCounts : Obligations.StepKeepsClaimCounts := by
  refine KeptByStep.of_mapped (fun _ _ h => h) fun s t h hs => ?_
  rw [claimsCounted_iff] at hs ⊢
  obtain ⟨hin, ho, haccounted⟩ := hs
  exact ⟨h.confined hin, h.nodes ordered_nodeClosed ho, h.accounted hin ho haccounted⟩

end Sys2Proof.Machine
end

section
/-! PROOF. The Projector Table's records, the gains and the channels (O58): what an operation keeps of a slot, and each
command as a sequence of operations that keep every slot. -/

namespace Sys2Proof.Machine

open Sys2Proof Sys2Proof.Stating

set_option Elab.async false

/-! ### What is kept of one slot -/

/-- A record whose state, fade factor, fade record and fail cause fit each other. -/
def Projector.Agrees (r : Projector) : Prop := r.FadeAgrees ∧ (r.failCause.isSome = true ↔ r.state = .failed)

/-- A gain target and a live gain between the floor and unity. -/
def Projector.GainsFit (floor : Nat) (r : Projector) : Prop :=
  floor ≤ r.gainTarget ∧ r.gainTarget ≤ 4096 ∧ floor ≤ r.gainLive ∧ r.gainLive ≤ 4096

/-- A channel that fits its slot's record. -/
def Channel.Fits (c : Channel) (r : Projector) : Prop :=
  (c.lock = .off ↔ r.state = .vacant) ∧ ∀ k, c.lastCount = some k → k ≤ 1048575

/-- A record and its channel keep what the invariants ask of them. -/
structure SlotKeeps (r q : Projector) (c d : Channel) : Prop where
  agrees : r.Agrees → q.Agrees
  gains : ∀ floor, floor ≤ 4096 → r.GainsFit floor → q.GainsFit floor
  fits : r.Agrees → c.Fits r → d.Fits q

theorem SlotKeeps.refl (r : Projector) (c : Channel) : SlotKeeps r r c c := ⟨id, fun _ _ => id, fun _ => id⟩

/-- A record that changes, its gains standing, and that is VACANT when it was. -/
theorem SlotKeeps.record {r q : Projector} (c : Channel) (h : r.Agrees → q.Agrees)
    (hv : r.Agrees → (q.state = .vacant ↔ r.state = .vacant)) (htarget : q.gainTarget = r.gainTarget := by rfl)
    (hlive : q.gainLive = r.gainLive := by rfl) : SlotKeeps r q c c where
  agrees := h
  gains floor _ hr := by unfold Projector.GainsFit; rw [htarget, hlive]; exact hr
  fits hr hc := ⟨hc.1.trans (hv hr).symm, hc.2⟩

/-- A channel that changes, and is OFF when it was. -/
theorem SlotKeeps.channel {c d : Channel} (r : Projector) (hlock : r.Agrees → c.Fits r → (d.lock = .off ↔ c.lock = .off))
    (hcount : ∀ k, d.lastCount = some k → c.lastCount = some k ∨ k ≤ 1048575) : SlotKeeps r r c d where
  agrees := id
  gains _ _ := id
  fits hr hc := ⟨(hlock hr hc).trans hc.1, fun k hk => (hcount k hk).elim (hc.2 k) id⟩

/-- What the invariants of the Projector Table, of the gains and of the channels ask, kept from one state to another. -/
structure KeepsSlots (s t : State) : Prop where
  projectors : s.ProjectorsAgree → t.ProjectorsAgree
  gains : s.GainsInRange → t.GainsInRange
  channels : s.ChannelsAgree → t.ChannelsAgree

namespace KeepsSlots

variable {s t u : State}

theorem refl (s : State) : KeepsSlots s s := ⟨id, id, id⟩

theorem trans (h : KeepsSlots s t) (h' : KeepsSlots t u) : KeepsSlots s u :=
  ⟨fun hs => h'.projectors (h.projectors hs), fun hs => h'.gains (h.gains hs), fun hs => h'.channels (h.channels hs)⟩

/-- Every slot keeps what is asked of it, and the gain settings stand. -/
theorem of_slots (hgain : t.gain = s.gain) (h : ∀ p, SlotKeeps (s.proj p) (t.proj p) (s.chan p) (t.chan p)) :
    KeepsSlots s t where
  projectors hs p := (h p).agrees (hs p)
  gains := fun ⟨hlow, hhigh, hslew, hslew', hs⟩ => by
    unfold State.GainsInRange
    rw [hgain]
    exact ⟨hlow, hhigh, hslew, hslew', fun p => (h p).gains _ hhigh (hs p)⟩
  channels := fun ⟨hs, hc⟩ => ⟨fun p => (h p).agrees (hs p), fun p => (h p).fits (hs p) (hc p)⟩

/-- A change that touches none of the three. -/
theorem of_touches {fs : List Field} (h : Touches fs s t)
    (hfs : Field.sub fs [.pending, .dome, .solver, .edit, .raster, .content, .timer, .owed, .align, .loader, .port,
      .attention] = true := by rfl) : KeepsSlots s t := by
  have h' := h.mono hfs
  exact of_slots h'.gain fun p => by
    rw [proj_congr h'.projectors, chan_congr h'.channels]; exact SlotKeeps.refl _ _

theorem modProj (s : State) (p : Slot) (f : Projector → Projector)
    (hf : SlotKeeps (s.proj p) (f (s.proj p)) (s.chan p) (s.chan p)) : KeepsSlots s (s.modProj p f) :=
  of_slots rfl fun q => by
    change SlotKeeps _ _ (s.chan q) (s.chan q)
    rw [proj_modProj]
    split
    · next hq => exact hq ▸ hf
    · exact SlotKeeps.refl _ _

theorem mapProj (s : State) (f : Projector → Projector) (hf : ∀ r c, SlotKeeps r (f r) c c) : KeepsSlots s (s.mapProj f) :=
  of_slots rfl fun q => by rw [proj_mapProj]; exact hf _ _

theorem modChan (s : State) (p : Slot) (f : Channel → Channel)
    (hf : SlotKeeps (s.proj p) (s.proj p) (s.chan p) (f (s.chan p))) : KeepsSlots s (s.modChan p f) :=
  of_slots rfl fun q => by
    change SlotKeeps (s.proj q) (s.proj q) _ _
    rw [chan_modChan]
    split
    · next hq => exact hq ▸ hf
    · exact SlotKeeps.refl _ _

theorem ite {c : Prop} [Decidable c] (ht : c → KeepsSlots s t) (hu : ¬c → KeepsSlots s u) :
    KeepsSlots s (if c then t else u) := by
  split
  · next h => exact ht h
  · next h => exact hu h

theorem foldl {α : Type} {g : State → α → State} (l : List α) (h : ∀ s, ∀ a ∈ l, KeepsSlots s (g s a)) (s : State) :
    KeepsSlots s (l.foldl g s) :=
  foldl_keeps_mem (KeepsSlots s) g l (fun _ a ha ht => ht.trans (h _ a ha)) s (refl s)

theorem thenRaise (h : KeepsSlots s t) (e : Event) : KeepsSlots s (t.raise e) := h.trans (of_touches (raise_touches t e))

theorem thenBegin (h : KeepsSlots s t) : KeepsSlots s (startSolve t) := h.trans (of_touches (startSolve_touches t))

end KeepsSlots

/-! ### Counts and gains -/

theorem setFailover_keepsSlots (p : Slot) (k : Nat) (s : State) : KeepsSlots s (s.setFailover p k) :=
  KeepsSlots.modProj s p _ (SlotKeeps.record _ id fun _ => Iff.rfl)

theorem setClaimCount_keepsSlots (p : Slot) (k : Nat) (s : State) : KeepsSlots s (s.setClaimCount p k) :=
  KeepsSlots.modProj s p _ (SlotKeeps.record _ id fun _ => Iff.rfl)

theorem gainTargetFor_between {floor : Nat} (hfloor : floor ≤ 4096) (reference luminance : Option Nat) :
    floor ≤ (gainTargetFor floor reference luminance).1 ∧ (gainTargetFor floor reference luminance).1 ≤ 4096 := by
  unfold gainTargetFor
  split
  · exact ⟨hfloor, le_refl _⟩
  · exact ⟨hfloor, le_refl _⟩
  · dsimp only
    split
    · exact ⟨hfloor, le_refl _⟩
    · next hle =>
      split
      · next hlow => exact ⟨hlow, not_lt.1 hle⟩
      · exact ⟨le_refl _, hfloor⟩

theorem gainsFit_retargeted {r : Projector} {floor : Nat} (hfloor : floor ≤ 4096) (reference : Option Nat)
    (hr : floor ≤ r.gainLive ∧ r.gainLive ≤ 4096) : (r.retargeted floor reference).GainsFit floor := by
  obtain ⟨hlow, hhigh⟩ := gainTargetFor_between hfloor reference r.luminance
  exact ⟨hlow, hhigh, hr⟩

theorem gain_recomputeGains (s : State) : (recomputeGains s).gain = s.gain := (recomputeGains_touches s).gain

theorem chan_recomputeGains (s : State) (p : Slot) : (recomputeGains s).chan p = s.chan p :=
  chan_congr (recomputeGains_touches s).channels p

theorem recomputeGains_keepsSlots (s : State) : KeepsSlots s (recomputeGains s) where
  projectors hs p := by rw [proj_recomputeGains]; exact hs p
  gains := fun ⟨hlow, hhigh, hslew, hslew', hs⟩ => by
    unfold State.GainsInRange
    rw [gain_recomputeGains]
    refine ⟨hlow, hhigh, hslew, hslew', fun p => ?_⟩
    rw [proj_recomputeGains]
    exact gainsFit_retargeted hhigh _ (hs p).2.2
  channels := fun ⟨hs, hc⟩ => by
    refine ⟨fun p => by rw [proj_recomputeGains]; exact hs p, fun p => ?_⟩
    rw [proj_recomputeGains, chan_recomputeGains]
    exact hc p

theorem slewed_between {low high live target step : Nat} (hl : low ≤ live ∧ live ≤ high) (ht : low ≤ target ∧ target ≤ high) :
    low ≤ slewed live target step ∧ slewed live target step ≤ high := by
  unfold slewed
  split
  · omega
  · split <;> omega

theorem slewGains_keepsSlots (s : State) : KeepsSlots s (slewGains s) :=
  KeepsSlots.mapProj s _ fun _ _ => ⟨id, fun _ _ ⟨hlow, hhigh, hl⟩ => ⟨hlow, hhigh, slewed_between hl ⟨hlow, hhigh⟩⟩,
    fun _ => id⟩

theorem setFloor_keepsSlots {k : Nat} (hk : 1024 ≤ k ∧ k ≤ 4096) (s : State) : KeepsSlots s (setFloor k s) := by
  have hproj (p : Slot) : ∃ reference, (setFloor k s).proj p
      = ({ s.proj p with gainLive := max k (s.proj p).gainLive } : Projector).retargeted k reference := by
    unfold setFloor
    rw [proj_recomputeGains, proj_mapProj]
    exact ⟨_, rfl⟩
  have hgain : (setFloor k s).gain = { s.gain with floor := k } := gain_recomputeGains _
  have hchan (p : Slot) : (setFloor k s).chan p = s.chan p := chan_congr (setFloor_touches k s).channels p
  refine ⟨fun hs p => ?_, fun ⟨_, _, hslew, hslew', hs⟩ => ?_, fun ⟨hs, hc⟩ => ⟨fun p => ?_, fun p => ?_⟩⟩
  · obtain ⟨reference, e⟩ := hproj p
    rw [e]; exact hs p
  · unfold State.GainsInRange
    rw [hgain]
    refine ⟨hk.1, hk.2, hslew, hslew', fun p => ?_⟩
    obtain ⟨reference, e⟩ := hproj p
    rw [e]
    exact gainsFit_retargeted hk.2 _ ⟨le_max_left _ _, max_le hk.2 (hs p).2.2.2⟩
  · obtain ⟨reference, e⟩ := hproj p
    rw [e]; exact hs p
  · obtain ⟨reference, e⟩ := hproj p
    rw [e, hchan]; exact hc p

theorem storeLuminance_keepsSlots (p : Slot) (v : Nat) (s : State) : KeepsSlots s (storeLuminance p v s) :=
  (KeepsSlots.modProj s p (fun r => { r with luminance := if v = 0 then none else some v })
    (SlotKeeps.record _ id fun _ => Iff.rfl)).trans (recomputeGains_keepsSlots _)

/-! ### Claims -/

theorem lowerFailover_keepsSlots (p : Slot) (s : State) : KeepsSlots s (lowerFailover p s) := by
  unfold lowerFailover
  refine KeepsSlots.ite (fun _ => KeepsSlots.refl s) fun _ => ?_
  dsimp only
  have hlowered := setFailover_keepsSlots p ((s.proj p).failover - 1) s
  exact KeepsSlots.ite (fun _ => (hlowered.thenRaise _).trans (KeepsSlots.of_touches (reportYield_touches _)))
    fun _ => hlowered

theorem oweFailover_keepsSlots (p : Slot) (s : State) : KeepsSlots s (oweFailover p s) := by
  have howed := setFailover_keepsSlots p (s.proj p).claimCount s
  exact KeepsSlots.ite (fun _ => howed.thenRaise _) fun _ => howed

theorem countFreed_keepsSlots (p : Slot) (s : State) : KeepsSlots s (countFreed p s) :=
  (KeepsSlots.of_touches (setFree_touches s _)).trans (setClaimCount_keepsSlots p _ _)

theorem freeClaim_keepsSlots (p : Slot) (n : Nat) (s : State) : KeepsSlots s (freeClaim p n s) :=
  ((KeepsSlots.of_touches (modNode_touches s n _)).trans (countFreed_keepsSlots p _)).trans (lowerFailover_keepsSlots p _)

theorem allocateClaim_keepsSlots (c : Claim) (n : Nat) (s : State) : KeepsSlots s (allocateClaim c n s) :=
  ((KeepsSlots.of_touches (modNode_touches s n _)).trans (KeepsSlots.of_touches (setFree_touches _ _))).trans
    (setClaimCount_keepsSlots _ _ _)

/-! ### The emptying of a slot and entry into RETIRING (R86, R87) -/

/-- An emptied record and a channel turned OFF (R87, R133). -/
theorem emptySlot_keepsSlots (p : Slot) (s : State) : KeepsSlots s (emptySlot p s) := by
  have hemptied : KeepsSlots s (turnOff p (s.modProj p Projector.emptied)) := by
    refine KeepsSlots.of_slots rfl fun q => ?_
    have hproj : (turnOff p (s.modProj p Projector.emptied)).proj q = if q = p then (s.proj p).emptied else s.proj q :=
      proj_modProj s p q Projector.emptied
    have hchan : (turnOff p (s.modProj p Projector.emptied)).chan q = if q = p then (s.chan p).turnedOff else s.chan q :=
      chan_modChan (s.modProj p Projector.emptied) p q Channel.turnedOff
    rw [hproj, hchan]
    by_cases hq : q = p
    · subst hq
      rw [if_pos rfl, if_pos rfl]
      exact ⟨fun _ => ⟨⟨rfl, rfl⟩, by simp [Projector.emptied]⟩, fun _ _ => id,
        fun _ hc => ⟨iff_of_true rfl rfl, hc.2⟩⟩
    · rw [if_neg hq, if_neg hq]
      exact SlotKeeps.refl _ _
  have hrecomputed := (hemptied.trans (recomputeGains_keepsSlots _)).thenRaise (.fadeDone p true)
  unfold emptySlot
  dsimp only
  exact KeepsSlots.ite (fun _ => hrecomputed.trans (KeepsSlots.of_touches (reportYield_touches _))) fun _ => hrecomputed

theorem emptyIfDone_keepsSlots (p : Slot) (s : State) : KeepsSlots s (emptyIfDone p s) :=
  KeepsSlots.ite (fun _ => emptySlot_keepsSlots p s) fun _ => KeepsSlots.refl s

theorem withdrawAt_keepsSlots (p : Slot) (s : State) (n : Nat) : KeepsSlots s (withdrawAt p s n) := by
  unfold withdrawAt
  split
  · exact KeepsSlots.refl s
  · exact KeepsSlots.ite (fun _ => freeClaim_keepsSlots p n s) fun _ => KeepsSlots.of_touches (modNode_touches s n _)

/-- Entry into RETIRING, judged from where the record is already RETIRING: a fade that completes has no record left when
the entry begins. -/
theorem enterRetiring_keepsSlots_from {s u : State} {p : Slot} (h : KeepsSlots s (u.modProj p Projector.retired)) :
    KeepsSlots s (enterRetiring p u) := by
  have hwithdrawn := h.trans (KeepsSlots.foldl (g := withdrawAt p) (u.claimNodes p) (fun t n _ => withdrawAt_keepsSlots p t n) _)
  have hinvalidated := hwithdrawn.trans (KeepsSlots.of_touches (invalidateAll_touches .urgent (u.claimNodes p) _))
  unfold enterRetiring
  dsimp only
  refine KeepsSlots.trans (KeepsSlots.ite (fun _ => ?_) fun _ => hinvalidated) (emptyIfDone_keepsSlots p _)
  exact hinvalidated.trans (recomputeGains_keepsSlots _)

theorem enterRetiring_keepsSlots {p : Slot} {s : State} (hv : (s.proj p).state ≠ .vacant) :
    KeepsSlots s (enterRetiring p s) :=
  enterRetiring_keepsSlots_from (KeepsSlots.modProj s p Projector.retired (SlotKeeps.record _
    (fun _ => ⟨⟨rfl, rfl⟩, by simp [Projector.retired]⟩) fun _ => iff_of_false (by simp [Projector.retired]) hv))

/-! ### Faults and recovery (R88 to R91) -/

theorem enterFailed_keepsSlots {p : Slot} {s : State} (hv : (s.proj p).state ≠ .vacant) (cause : FailCause) :
    KeepsSlots s (enterFailed p cause s) := by
  have hfailed : KeepsSlots s ((s.modProj p fun r => r.failedWith cause).raise (.projFault p cause)) :=
    (KeepsSlots.modProj s p (fun r => r.failedWith cause) (SlotKeeps.record _
      (fun _ => ⟨⟨rfl, rfl⟩, by simp [Projector.failedWith]⟩)
      fun _ => iff_of_false (by simp [Projector.failedWith]) hv)).thenRaise _
  exact KeepsSlots.ite (fun _ => ((hfailed.trans (oweFailover_keepsSlots p _)).trans
    (KeepsSlots.of_touches (invalidateClaimed_touches p _))).trans (recomputeGains_keepsSlots _)) fun _ => hfailed

theorem state_oweFailover (p : Slot) (s : State) (q : Slot) : ((oweFailover p s).proj q).state = (s.proj q).state := by
  have howed : ((s.setFailover p (s.proj p).claimCount).proj q).state = (s.proj q).state := by
    rw [State.setFailover, proj_modProj]
    split
    · next h => rw [h]
    · rfl
  unfold oweFailover
  dsimp only
  split
  · rw [proj_raise, howed]
  · exact howed

theorem failContributing_keepsSlots {p : Slot} {s : State} (hv : (s.proj p).state ≠ .vacant) (cause : FailCause) :
    KeepsSlots s (failContributing p cause s) := by
  refine KeepsSlots.ite (fun _ => ?_) fun _ => enterFailed_keepsSlots hv cause
  refine ((oweFailover_keepsSlots p s).thenRaise _).trans (enterRetiring_keepsSlots ?_)
  rw [proj_raise, state_oweFailover]
  exact hv

theorem replaceCause_keepsSlots {p : Slot} {s : State} (hf : (s.proj p).state = .failed) (cause : FailCause) :
    KeepsSlots s (replaceCause p cause s) :=
  (KeepsSlots.modProj s p (fun r => { r with failCause := some cause }) (SlotKeeps.record _
    (fun hr => ⟨hr.1, by simp [hf]⟩) fun _ => Iff.rfl)).thenRaise _

theorem takeFaultStart_keepsSlots (p : Slot) (s : State) : KeepsSlots s (takeFaultStart p s) := by
  have hraised : KeepsSlots s (s.raise (.projFault p .line)) := (KeepsSlots.refl s).thenRaise _
  have hfails (hv : (s.proj p).state ≠ .vacant) : KeepsSlots s
      (if (s.proj p).autoFailover = true then failContributing p .line s else s.raise (.projFault p .line)) :=
    KeepsSlots.ite (fun _ => failContributing_keepsSlots hv .line) fun _ => hraised
  unfold takeFaultStart
  split
  · exact KeepsSlots.refl s
  · next h => exact KeepsSlots.ite (fun _ => enterFailed_keepsSlots (by simp [h]) _) fun _ => hraised
  · next h => exact hfails (by simp [h])
  · next h => exact hfails (by simp [h])
  · next h => exact hfails (by simp [h])
  · next h => exact replaceCause_keepsSlots h _
  · exact hraised

theorem takeLockFault_keepsSlots (p : Slot) (cause : FailCause) (s : State) : KeepsSlots s (takeLockFault p cause s) := by
  unfold takeLockFault
  split
  · exact KeepsSlots.refl s
  · next h => exact enterFailed_keepsSlots (by simp [h]) cause
  · next h => exact failContributing_keepsSlots (by simp [h]) cause
  · next h => exact failContributing_keepsSlots (by simp [h]) cause
  · next h => exact failContributing_keepsSlots (by simp [h]) cause
  · next h => exact replaceCause_keepsSlots h cause
  · exact (KeepsSlots.refl s).thenRaise _

theorem recoveryCheck_keepsSlots (p : Slot) (s : State) : KeepsSlots s (recoveryCheck p s) := by
  refine KeepsSlots.ite (fun ⟨hf, _⟩ => KeepsSlots.thenRaise ?_ _) fun _ => KeepsSlots.refl s
  refine KeepsSlots.modProj s p (fun r => { r with state := .parked, failCause := none }) (SlotKeeps.record _
    (fun hr => ⟨?_, by simp⟩) fun _ => iff_of_false (by simp) (by simp [hf]))
  have hfade := hr.1
  unfold Projector.FadeAgrees at hfade
  rw [hf] at hfade
  exact hfade

/-! ### Fades (R80 to R84) -/

/-- Every fade factor is at most 256 (R81). -/
theorem Projector.Agrees.phi_le {r : Projector} (h : r.Agrees) : r.phi ≤ 256 := by
  have hfading {f : Fade} (hphi : r.phi = f.phi) (hstart : f.start ≤ 256) (htarget : f.target ≤ 256)
      (he : f.elapsed < f.length) : r.phi ≤ 256 := by
    have := (Fade.phi_between (f := f) (by omega) he.le).2
    rw [hphi]
    exact this.trans (max_le hstart htarget)
  have hfade := h.1
  unfold Projector.FadeAgrees at hfade
  split at hfade
  · exact hfade.1.le
  · rw [hfade.1]; omega
  · rw [hfade.1]; omega
  · rw [hfade.1]; omega
  · rw [hfade.1]; omega
  · obtain ⟨f, -, hphi, hstart, htarget, he, -⟩ := hfade
    exact hfading hphi hstart htarget.le he
  · obtain ⟨f, -, hphi, hstart, htarget, he⟩ := hfade
    exact hfading hphi hstart (by omega) he

theorem Projector.Agrees.no_cause {r : Projector} (h : r.Agrees) (hf : r.state ≠ .failed) : ¬ r.failCause.isSome = true :=
  fun hc => hf (h.2.1 hc)

/-- A projector that a fade starts on, from its fade factor (R80). -/
def Projector.FadesFrom (r : Projector) (start : Nat) : Prop :=
  r.state ≠ .vacant ∧ r.state ≠ .failed ∧ (r.Agrees → start = r.phi)

theorem fadesFrom_of_fadeIn {p : Slot} {s : State} {start : Nat} (h : fadeInFrom s p = some start) :
    (s.proj p).FadesFrom start := by
  unfold fadeInFrom at h
  split at h
  · next hs =>
    split at h
    · refine ⟨by simp [hs], by simp [hs], fun hr => ?_⟩
      have hfade := hr.1
      unfold Projector.FadeAgrees at hfade
      rw [hs] at hfade
      rw [hfade.1]
      exact (Option.some.inj h).symm
    · exact absurd h (by simp)
  · next hs => exact ⟨by simp [hs], by simp [hs], fun _ => (Option.some.inj h).symm⟩
  · next hs =>
    split at h
    · exact absurd h (by simp)
    · exact ⟨by simp [hs], by simp [hs], fun _ => (Option.some.inj h).symm⟩
  all_goals exact absurd h (by simp)

theorem fadesFrom_of_fadeOut {p : Slot} {s : State} {start : Nat} (h : fadeOutFrom s p = some start) :
    (s.proj p).FadesFrom start := by
  unfold fadeOutFrom at h
  split at h
  · next hs =>
    refine ⟨by simp [hs], by simp [hs], fun hr => ?_⟩
    have hfade := hr.1
    unfold Projector.FadeAgrees at hfade
    rw [hs] at hfade
    rw [hfade.1]
    exact (Option.some.inj h).symm
  · next hs => exact ⟨by simp [hs], by simp [hs], fun _ => (Option.some.inj h).symm⟩
  · next hs => exact ⟨by simp [hs], by simp [hs], fun _ => (Option.some.inj h).symm⟩
  all_goals exact absurd h (by simp)

/-- A record with a state and a fade record that fit its fade factor. -/
theorem startFade_keepsSlots {p : Slot} {s : State} {start : Nat} (h : (s.proj p).FadesFrom start) {st : ProjState}
    {f : Fade} (hst : st ≠ .vacant ∧ st ≠ .failed)
    (hf : start ≤ 256 → start = (s.proj p).phi → ({ s.proj p with state := st, fade := some f } : Projector).FadeAgrees) :
    KeepsSlots s (startFade p st f s) := by
  obtain ⟨hv, hfailed, hphi⟩ := h
  have hstarted : KeepsSlots s (refreshClaimed p (s.modProj p fun r => { r with state := st, fade := some f })) := by
    refine KeepsSlots.trans (KeepsSlots.modProj s p (fun r => { r with state := st, fade := some f }) (SlotKeeps.record _
      (fun hr => ⟨hf (by rw [hphi hr]; exact hr.phi_le) (hphi hr), ?_⟩) fun _ => iff_of_false hst.1 hv))
      (KeepsSlots.of_touches (refreshClaimed_touches p _))
    exact iff_of_false (hr.no_cause hfailed) hst.2
  exact KeepsSlots.ite (fun _ => hstarted.trans (recomputeGains_keepsSlots _)) fun _ => hstarted

theorem startFadeIn_keepsSlots {p : Slot} {s : State} {start n : Nat} (h : (s.proj p).FadesFrom start) (hn : n ≠ 0) :
    KeepsSlots s (startFadeIn p start n s) := by
  unfold startFadeIn
  refine startFade_keepsSlots h ⟨by simp, by simp⟩ fun hle hphi => ?_
  exact ⟨_, rfl, hphi.symm.trans (Fade.phi_zero (f := ⟨start, 256, n, 0, false⟩) (Nat.pos_of_ne_zero hn)).symm, hle, rfl,
    Nat.pos_of_ne_zero hn, rfl⟩

theorem startFadeOut_keepsSlots {p : Slot} {s : State} {start n : Nat} (h : (s.proj p).FadesFrom start) (hn : n ≠ 0)
    (retireAfter : Bool) : KeepsSlots s (startFadeOut p start n retireAfter s) := by
  unfold startFadeOut
  refine startFade_keepsSlots h ⟨by simp, by simp⟩ fun hle hphi => ?_
  exact ⟨_, rfl, hphi.symm.trans (Fade.phi_zero (f := ⟨start, 0, n, 0, retireAfter⟩) (Nat.pos_of_ne_zero hn)).symm, hle, rfl,
    Nat.pos_of_ne_zero hn⟩

theorem cutIn_keepsSlots {p : Slot} {s : State} {start : Nat} (h : (s.proj p).FadesFrom start) :
    KeepsSlots s (cutIn p s) := by
  obtain ⟨hv, hfailed, -⟩ := h
  have hcut : KeepsSlots s (refreshClaimed p (s.modProj p fun r => { r with state := .live, phi := 256, fade := none })) :=
    (KeepsSlots.modProj s p (fun r => { r with state := .live, phi := 256, fade := none }) (SlotKeeps.record _
      (fun hr => ⟨⟨rfl, rfl⟩, iff_of_false (hr.no_cause hfailed) (by simp)⟩) fun _ => iff_of_false (by simp) hv)).trans
      (KeepsSlots.of_touches (refreshClaimed_touches p _))
  exact KeepsSlots.ite (fun _ => hcut.trans (recomputeGains_keepsSlots _)) fun _ => hcut

theorem cutOut_keepsSlots {p : Slot} {s : State} {start : Nat} (h : (s.proj p).FadesFrom start) :
    KeepsSlots s (cutOut p s) := by
  obtain ⟨hv, hfailed, -⟩ := h
  exact ((KeepsSlots.modProj s p (fun r => { r with state := .parked, phi := 0, fade := none }) (SlotKeeps.record _
    (fun hr => ⟨⟨rfl, rfl⟩, iff_of_false (hr.no_cause hfailed) (by simp)⟩) fun _ => iff_of_false (by simp) hv)).trans
    (KeepsSlots.of_touches (invalidateClaimed_touches p _))).trans (recomputeGains_keepsSlots _)

/-- The record of a projector whose fade goes on, or is complete. -/
theorem agrees_stepped {r : Projector} (hr : r.Agrees) {f : Fade} (hf : r.fade = some f) :
    (r.state = .fadingIn ∧ f.target = 256 ∨ r.state = .fadingOut ∧ f.target = 0) ∧ f.elapsed < f.length ∧
      ∀ j, j < f.length → ({ r with fade := some { f with elapsed := j }, phi := { f with elapsed := j }.phi }
        : Projector).Agrees := by
  obtain ⟨hfade, hcause⟩ := hr
  unfold Projector.Agrees
  unfold Projector.FadeAgrees at hfade ⊢
  cases hs : r.state <;> simp only [hs] at hfade <;> rw [hf] at hfade
  case fadingIn =>
    obtain ⟨g, hg, -, hstart, htarget, he, hretire⟩ := hfade
    obtain rfl := Option.some.inj hg
    exact ⟨Or.inl ⟨rfl, htarget⟩, he, fun j hj => ⟨⟨_, rfl, rfl, hstart, htarget, hj, hretire⟩, hs ▸ hcause⟩⟩
  case fadingOut =>
    obtain ⟨g, hg, -, hstart, htarget, he⟩ := hfade
    obtain rfl := Option.some.inj hg
    exact ⟨Or.inr ⟨rfl, htarget⟩, he, fun j hj => ⟨⟨_, rfl, rfl, hstart, htarget, hj⟩, hs ▸ hcause⟩⟩
  all_goals exact absurd hfade.2 (by simp)

/-- A change of one record of a state that differs from the first in that record alone. -/
theorem KeepsSlots.modProj_after {s v : State} {p : Slot} {r : Projector} (hgain : v.gain = s.gain)
    (hchan : ∀ q, v.chan q = s.chan q) (hproj : ∀ q, v.proj q = if q = p then r else s.proj q) (g : Projector → Projector)
    (h : SlotKeeps (s.proj p) (g r) (s.chan p) (s.chan p)) : KeepsSlots s (v.modProj p g) :=
  KeepsSlots.of_slots hgain fun q => by
    change SlotKeeps (s.proj q) ((v.modProj p g).proj q) (s.chan q) (v.chan q)
    rw [hchan, proj_modProj, hproj, hproj]
    by_cases hq : q = p
    · rw [if_pos hq, if_pos rfl, hq]; exact h
    · rw [if_neg hq, if_neg hq]; exact SlotKeeps.refl _ _

/-- A fade that reaches its end: LIVE or PARKED with the fade factor at the target, or RETIRING (R83). -/
theorem completeFade_keepsSlots {s t : State} {p : Slot} {f : Fade} (hf : (s.proj p).fade = some f)
    (hend : f.elapsed + 1 = f.length) (hgain : t.gain = s.gain) (hchan : ∀ q, t.chan q = s.chan q)
    (hproj : ∀ q, t.proj q = if q = p then { s.proj p with
      fade := some { f with elapsed := f.elapsed + 1 }, phi := { f with elapsed := f.elapsed + 1 }.phi } else s.proj q) :
    KeepsSlots s (completeFade p { f with elapsed := f.elapsed + 1 } t) := by
  have hphi : ({ f with elapsed := f.elapsed + 1 } : Fade).phi = f.target := by
    rw [hend]; exact Fade.phi_length (by omega)
  rw [hphi] at hproj
  have hdone : ∀ q, ((t.modProj p fun r => { r with fade := none }).raise (.fadeDone p false)).proj q
      = if q = p then { s.proj p with fade := none, phi := f.target } else s.proj q := fun q => by
    rw [proj_raise, proj_modProj, hproj, hproj]
    by_cases hq : q = p
    · rw [if_pos hq, if_pos rfl, if_pos hq]
    · rw [if_neg hq, if_neg hq, if_neg hq]
  have hstate : (t.proj p).state = (s.proj p).state := by rw [hproj, if_pos rfl]
  have hmodified (g : Projector → Projector)
      (h : SlotKeeps (s.proj p) (g { s.proj p with fade := none, phi := f.target }) (s.chan p) (s.chan p)) :=
    KeepsSlots.modProj_after (s := s) (v := (t.modProj p fun r => { r with fade := none }).raise (.fadeDone p false))
      (p := p) hgain hchan hdone g h
  unfold completeFade
  dsimp only
  rw [hstate]
  split
  · next hs =>
    refine hmodified (fun r => { r with state := .live }) (SlotKeeps.record _ (fun hr => ?_)
      fun _ => iff_of_false (by simp) (by simp [hs]))
    obtain ⟨⟨-, htarget⟩ | ⟨hout, -⟩, -⟩ := agrees_stepped hr hf
    · exact ⟨⟨htarget, rfl⟩, iff_of_false (hr.no_cause (by simp [hs])) (by simp)⟩
    · exact absurd (hs.symm.trans hout) (by decide)
  · next hs =>
    have hfading {r : Projector} (hr : (s.proj p).Agrees) (hv : r.state ≠ .vacant) :
        r.state = .vacant ↔ (s.proj p).state = .vacant := by
      obtain ⟨⟨hin, -⟩ | ⟨hout, -⟩, -⟩ := agrees_stepped hr hf
      · exact absurd hin hs
      · exact iff_of_false hv (by simp [hout])
    split
    · exact enterRetiring_keepsSlots_from (hmodified Projector.retired (SlotKeeps.record _
        (fun _ => ⟨⟨rfl, rfl⟩, by simp [Projector.retired]⟩) fun hr => hfading hr (by simp [Projector.retired])))
    · refine (hmodified (fun r => { r with state := .parked }) (SlotKeeps.record _ (fun hr => ?_)
        fun hr => hfading hr (by simp))).trans (recomputeGains_keepsSlots _)
      obtain ⟨⟨hin, -⟩ | ⟨hout, htarget⟩, -⟩ := agrees_stepped hr hf
      · exact absurd hin hs
      · exact ⟨⟨htarget, rfl⟩, iff_of_false (hr.no_cause (by simp [hout])) (by simp)⟩

theorem fadeStepSlot_keepsSlots (s : State) (p : Slot) : KeepsSlots s (fadeStepSlot s p) := by
  unfold fadeStepSlot
  refine KeepsSlots.thenBegin ?_
  unfold fadeStepOf
  split
  · exact KeepsSlots.refl s
  · next f hf =>
    have hrefreshed := refreshClaimed_touches p (s.modProj p fun r =>
      { r with fade := some { f with elapsed := f.elapsed + 1 }, phi := { f with elapsed := f.elapsed + 1 }.phi })
    dsimp only
    split
    · next hend =>
      refine completeFade_keepsSlots hf hend hrefreshed.gain (fun q => chan_congr hrefreshed.channels q) fun q => ?_
      rw [proj_congr hrefreshed.projectors, proj_modProj]
    · next hgoes =>
      refine KeepsSlots.trans (KeepsSlots.modProj s p _ (SlotKeeps.record _ (fun hr => ?_) fun _ => Iff.rfl))
        (KeepsSlots.of_touches hrefreshed)
      obtain ⟨-, he, hstep⟩ := agrees_stepped hr hf
      exact hstep (f.elapsed + 1) (lt_of_le_of_ne he hgoes)

theorem fadeIn_keepsSlots {p : Slot} {n : Nat} {s t : State} (h : fadeIn p n s = some t) : KeepsSlots s t := by
  rw [fadeIn_eq] at h
  split at h
  · exact Option.some.inj h ▸ KeepsSlots.refl s
  · obtain ⟨start, hstart, rfl⟩ := Option.map_eq_some_iff.mp h
    have hfrom := fadesFrom_of_fadeIn hstart
    exact KeepsSlots.ite (fun _ => cutIn_keepsSlots hfrom) fun hn => startFadeIn_keepsSlots hfrom hn

theorem fadeOut_keepsSlots {p : Slot} {n : Nat} {s t : State} (h : fadeOut p n s = some t) : KeepsSlots s t := by
  rw [fadeOut_eq] at h
  split at h
  · exact Option.some.inj h ▸ KeepsSlots.refl s
  · obtain ⟨start, hstart, rfl⟩ := Option.map_eq_some_iff.mp h
    have hfrom := fadesFrom_of_fadeOut hstart
    exact KeepsSlots.ite
      (fun _ => KeepsSlots.ite (fun _ => enterRetiring_keepsSlots hfrom.1) fun hn => startFadeOut_keepsSlots hfrom hn true)
      fun _ => KeepsSlots.ite (fun _ => cutOut_keepsSlots hfrom) fun hn => startFadeOut_keepsSlots hfrom hn false

theorem retire_keepsSlots (p : Slot) (n : Nat) (s : State) : KeepsSlots s (retire p n s) := by
  have hfades {start : Nat} (h : fadeOutFrom s p = some start) :
      KeepsSlots s (if n = 0 then enterRetiring p s else startFadeOut p start n true s) :=
    KeepsSlots.ite (fun _ => enterRetiring_keepsSlots (fadesFrom_of_fadeOut h).1)
      fun hn => startFadeOut_keepsSlots (fadesFrom_of_fadeOut h) hn true
  unfold retire
  split
  · next h => exact enterRetiring_keepsSlots (by simp [h])
  · next h => exact enterRetiring_keepsSlots (by simp [h])
  · next h => exact hfades (by simp [fadeOutFrom, h])
  · next h => exact hfades (by simp [fadeOutFrom, h])
  · next h =>
    refine KeepsSlots.modProj s p (fun r => { r with fade := r.fade.map fun f => { f with retireAfter := true } })
      (SlotKeeps.record _ (fun ⟨hfade, hcause⟩ => ⟨?_, hcause⟩) fun _ => Iff.rfl)
    unfold Projector.FadeAgrees at hfade ⊢
    simp only [h] at hfade ⊢
    obtain ⟨f, hf, hphi, hstart, htarget, he⟩ := hfade
    exact ⟨{ f with retireAfter := true }, by rw [hf]; rfl, hphi, hstart, htarget, he⟩
  · exact KeepsSlots.refl s
  · exact KeepsSlots.refl s

/-! ### The channels (R124 to R137) -/

/-- A channel that leaves its lock state for another, neither of them OFF. -/
theorem modChan_relock_keepsSlots {s : State} {p : Slot} {f : Channel → Channel}
    (hlock : (s.proj p).Agrees → (s.chan p).Fits (s.proj p) → (s.chan p).lock ≠ .off) (hf : (f (s.chan p)).lock ≠ .off)
    (hcount : (f (s.chan p)).lastCount = (s.chan p).lastCount) : KeepsSlots s (s.modChan p f) :=
  KeepsSlots.modChan s p f (SlotKeeps.channel _ (fun hr hc => iff_of_false hf (hlock hr hc))
    fun _ hk => Or.inl (hcount ▸ hk))

/-- A channel that keeps its lock state. -/
theorem modChan_samelock_keepsSlots {s : State} {p : Slot} {f : Channel → Channel} (hf : (f (s.chan p)).lock = (s.chan p).lock)
    (hcount : ∀ k, (f (s.chan p)).lastCount = some k → (s.chan p).lastCount = some k ∨ k ≤ 1048575) :
    KeepsSlots s (s.modChan p f) :=
  KeepsSlots.modChan s p f (SlotKeeps.channel _ (fun _ _ => by rw [hf]) hcount)

theorem beginSequence_keepsSlots {p : Slot} {s : State} (hv : (s.proj p).state ≠ .vacant) :
    KeepsSlots s (beginSequence p s) :=
  modChan_relock_keepsSlots (fun _ hc ho => hv (hc.1.1 ho)) (by simp [Channel.begun]) rfl

theorem lockLoss_keepsSlots (p : Slot) (s : State) : KeepsSlots s (lockLoss p s) := by
  have htaken := takeLockFault_keepsSlots p .lockLost s
  exact KeepsSlots.ite (fun _ => htaken) fun hv =>
    (htaken.trans (KeepsSlots.of_touches (stopStream_touches p _))).trans (beginSequence_keepsSlots hv)

theorem attemptFails_keepsSlots {p : Slot} {s : State} (hlock : (s.chan p).lock ≠ .off) : KeepsSlots s (attemptFails p s) := by
  refine KeepsSlots.ite (fun _ => ?_) fun _ => KeepsSlots.thenRaise ?_ _
  · exact modChan_relock_keepsSlots (fun _ _ => hlock) (by simp) rfl
  · refine KeepsSlots.trans ?_ (takeLockFault_keepsSlots p _ _)
    exact modChan_relock_keepsSlots (fun _ _ => hlock) (by simp) rfl

theorem takeFall_keepsSlots (p : Slot) (s : State) : KeepsSlots s (takeFall p s) := by
  unfold takeFall
  split
  · next h => exact (attemptFails_keepsSlots (by simp [h])).thenBegin
  · exact (lockLoss_keepsSlots p s).thenBegin
  all_goals exact KeepsSlots.refl s

theorem takeLevel_keepsSlots (p : Slot) (level : ReadyLevel) (s : State) : KeepsSlots s (takeLevel p level s) := by
  have hchan (flag : Bool) : KeepsSlots s (s.modChan p fun c => c.settled level flag) :=
    modChan_samelock_keepsSlots rfl fun _ => Or.inl
  unfold takeLevel
  dsimp only
  split
  · split
    · exact (hchan _).trans (takeFaultStart_keepsSlots p _)
    · exact (hchan _).trans (recoveryCheck_keepsSlots p _)
  · exact hchan _

theorem restartOutput_keepsSlots {p : Slot} {s t : State} (hv : (s.proj p).state ≠ .vacant) (h : restartOutput p s = some t) :
    KeepsSlots s t := by
  unfold restartOutput at h
  split at h
  · exact Option.some.inj h ▸ beginSequence_keepsSlots hv
  · exact Option.some.inj h ▸ lockLoss_keepsSlots p s
  all_goals exact absurd h (by simp)

theorem enrol_keepsSlots {p : Slot} {s : State} (hv : (s.proj p).state = .vacant) (w h ramp clock : Nat) (auto : Bool) :
    KeepsSlots s (enrol p w h ramp clock auto s) := by
  refine KeepsSlots.of_slots (enrol_touches p w h ramp clock auto s).gain fun q => ?_
  have hproj : (enrol p w h ramp clock auto s).proj q
      = if q = p then (s.proj p).enrolled w h ramp clock auto else s.proj q :=
    proj_modProj s p q fun r => r.enrolled w h ramp clock auto
  by_cases hq : q = p
  · subst hq
    have hchan : (enrol q w h ramp clock auto s).chan q = { (s.chan q).begun clock with changeFlag := false } := by
      unfold enrol beginSequence
      rw [chan_modChan, if_pos rfl, chan_modChan, if_pos rfl, proj_modProj, if_pos rfl]
      rfl
    rw [hproj, if_pos rfl, hchan]
    refine ⟨fun _ => ⟨⟨rfl, rfl⟩, by simp [Projector.enrolled]⟩, fun floor hfloor _ => ⟨hfloor, le_refl _, hfloor, le_refl _⟩,
      fun _ hc => ⟨iff_of_false (by simp [Channel.begun]) (by simp [Projector.enrolled]), hc.2⟩⟩
  · have hchan : (enrol p w h ramp clock auto s).chan q = s.chan q := by
      unfold enrol beginSequence
      rw [chan_modChan, if_neg hq, chan_modChan, if_neg hq]
      rfl
    rw [hproj, if_neg hq, hchan]
    exact SlotKeeps.refl _ _

/-! ### The map, the loader and the reports -/

theorem placeClaim_keepsSlots (n : Nat) (p : Slot) (q : Pos) (pin : PinField) (s : State) :
    KeepsSlots s (placeClaim n p q pin s).1 := by
  have hnode {u : State} (f : Node → Node) : KeepsSlots u (u.modNode n f) := KeepsSlots.of_touches (modNode_touches u n f)
  have hopen {u : State} : KeepsSlots u (openNode n u) := KeepsSlots.of_touches (openNode_touches n u)
  unfold placeClaim
  split
  · exact (hnode _).trans hopen
  · split
    · exact KeepsSlots.refl s
    · split
      · exact KeepsSlots.refl s
      · exact (allocateClaim_keepsSlots _ n s).trans hopen

theorem editSetClaim_keepsSlots (node : Option Nat) (slot : Nat) (q : Pos) (pin : PinField) (s : State) :
    KeepsSlots s (editSetClaim node slot q pin s).1 := by
  unfold editSetClaim
  split
  · exact KeepsSlots.refl s
  · split
    · exact KeepsSlots.refl s
    · split
      · exact KeepsSlots.refl s
      split
      · exact KeepsSlots.refl s
      split
      · exact KeepsSlots.refl s
      · exact placeClaim_keepsSlots _ _ q pin s

theorem editDropClaim_keepsSlots (node : Option Nat) (slot : Nat) (s : State) :
    KeepsSlots s (editDropClaim node slot s).1 := by
  have hnode {u : State} (n : Nat) (f : Node → Node) : KeepsSlots u (u.modNode n f) :=
    KeepsSlots.of_touches (modNode_touches u n f)
  have hopen {u : State} (n : Nat) : KeepsSlots u (openNode n u) := KeepsSlots.of_touches (openNode_touches n u)
  unfold editDropClaim
  split
  · exact KeepsSlots.refl s
  · split
    · exact KeepsSlots.refl s
    · split
      · exact KeepsSlots.refl s
      split
      · exact KeepsSlots.refl s
      · unfold removeClaim
        split
        · exact (freeClaim_keepsSlots _ _ s).trans (hopen _)
        · exact (hnode _ _).trans (hopen _)

theorem discardEdits_keepsSlots (s : State) : KeepsSlots s (discardEdits s) := by
  refine KeepsSlots.foldl s.openSet (fun t n _ => ?_) s
  exact (KeepsSlots.foldl _ (fun u p _ => freeClaim_keepsSlots p n u) t).trans (KeepsSlots.of_touches (modNode_touches _ n _))

theorem freeAtSwap_keepsSlots (s : State) (p : Slot) : KeepsSlots s (freeAtSwap s p) :=
  (countFreed_keepsSlots p s).trans (emptyIfDone_keepsSlots p _)

theorem reportSwap_keepsSlots (n : Nat) (old new : Node) (leaves : Claim → Bool) (s : State) :
    KeepsSlots s (reportSwap n old new leaves s) := by
  have hdark : KeepsSlots s (if new.condition = .dark ∧ old.condition ≠ .dark then s.raise (.darkNode n) else s) :=
    KeepsSlots.ite (fun _ => (KeepsSlots.refl s).thenRaise _) fun _ => KeepsSlots.refl s
  unfold reportSwap
  exact (hdark.trans (KeepsSlots.foldl _ (fun v p _ => lowerFailover_keepsSlots p v) _)).trans
    (KeepsSlots.foldl _ (fun v p _ => freeAtSwap_keepsSlots v p) _)

theorem swapNode_keepsSlots (ready : Bool) (s : State) (n : Nat) : KeepsSlots s (swapNode ready s n) := by
  have hput (r : Node) (leaves : Claim → Bool) : KeepsSlots s (reportSwap n (s.node n) r leaves (s.putNode n r)) :=
    (KeepsSlots.of_touches (putNode_touches s n r)).trans (reportSwap_keepsSlots n _ r leaves _)
  exact KeepsSlots.ite (fun _ => KeepsSlots.ite (fun _ => hput _ _) fun _ => KeepsSlots.refl s)
    fun _ => KeepsSlots.ite (fun _ => hput _ _) fun _ => KeepsSlots.refl s

theorem swapAll_keepsSlots (s : State) : KeepsSlots s (swapAll s) := by
  have hvisited (ready : Bool) : KeepsSlots s (nodeIndices.foldl (swapNode ready) s) :=
    KeepsSlots.foldl nodeIndices (fun t n _ => swapNode_keepsSlots ready t n) s
  by_cases h : s.edit.groupState = .ready
  · rw [swapAll_of_ready h]
    exact ((hvisited true).trans (KeepsSlots.of_touches (finishGroup_touches _ _))).thenBegin
  · rw [swapAll_of_not_ready h]
    exact hvisited false

theorem clearMap_keepsSlots (s : State) : KeepsSlots s (clearMap s) := by
  have hemptied : KeepsSlots s (emptyMap s) := KeepsSlots.of_slots rfl fun p => by
    have hproj : (emptyMap s).proj p = { s.proj p with claimCount := 0, failover := 0 } := by
      rw [emptyMap, proj_mapProj]; rfl
    change SlotKeeps _ _ (s.chan p) (s.chan p)
    rw [hproj]
    exact SlotKeeps.record _ id fun _ => Iff.rfl
  have hslots := hemptied.trans (KeepsSlots.foldl slots (fun u p _ => emptyIfDone_keepsSlots p u) (emptyMap s))
  exact KeepsSlots.ite (fun _ => hslots.trans (KeepsSlots.of_touches (reportYield_touches _))) fun _ => hslots

theorem applyAtEnd_keepsSlots (s : State) : KeepsSlots s (applyAtEnd s) := KeepsSlots.of_touches (applyAtEnd_touches s)

theorem recordStored_keepsSlots (d : Descriptor) (s : State) : KeepsSlots s (recordStored d s) :=
  KeepsSlots.of_touches (recordStored_touches d s)

theorem completeFetch_keepsSlots (d : Descriptor) (result : FetchResult) (s : State) :
    KeepsSlots s (completeFetch d result s) := by
  have hfault (o : LoadOutcome) (r : FaultReason) : KeepsSlots s (endFaulted o r s) :=
    KeepsSlots.of_touches (endFaulted_touches o r s)
  unfold completeFetch takeRecord
  split
  · split
    · next slot ring sector q pin _ =>
      have hset := editSetClaim_keepsSlots (resolveNode ring sector) slot q pin s
      split
      · next e => rw [e] at hset; exact hset.trans (recordStored_keepsSlots d _)
      · exact hfault _ _
    · next slot ring sector _ =>
      have hdrop := editDropClaim_keepsSlots (resolveNode ring sector) slot s
      split
      · next e => rw [e] at hdrop; exact hdrop.trans (recordStored_keepsSlots d _)
      · exact hfault _ _
    · exact KeepsSlots.ite (fun _ => KeepsSlots.of_touches (endDone_touches _ s)) fun _ => recordStored_keepsSlots d s
    · exact hfault _ _
  · exact hfault _ _
  · exact hfault _ _

theorem applyLuma_keepsSlots (slot : Byte) (v : Nat) (s : State) : KeepsSlots s (applyLuma slot v s).1 := by
  unfold applyLuma
  split
  · exact KeepsSlots.refl s
  · split
    · exact KeepsSlots.refl s
    · dsimp only
      exact storeLuminance_keepsSlots _ v s

theorem runReport_keepsSlots {apply : Report → State → Option (State × ReportOutcome)}
    (h : ∀ r t u o, apply r t = some (u, o) → KeepsSlots t u) (s : State) : KeepsSlots s (runReport apply s) := by
  have halign (t : State) (a : AlignPort) : KeepsSlots t (t.setAlign a) := KeepsSlots.of_touches (setAlign_touches t a)
  unfold runReport
  split
  · exact KeepsSlots.refl s
  · split
    · exact KeepsSlots.refl s
    · next e => exact ((halign s _).trans (h _ _ _ _ e)).trans (halign _ _)

/-! ### The commands -/

theorem withSlot_keepsSlots (b : Nat) (s : State) {run : Slot → State × Answer} (h : ∀ p, KeepsSlots s (run p).1) :
    KeepsSlots s (withSlot b s run).1 := by
  unfold withSlot
  split
  · exact KeepsSlots.refl s
  · exact h _

theorem clamp_between {low high : Nat} (h : low ≤ high) (x : Nat) : low ≤ clamp low high x ∧ clamp low high x ≤ high :=
  ⟨le_max_left _ _, max_le h (min_le_left _ _)⟩

theorem requestOf_keepsSlots {c : Instr} {code : Nat} {run : Request → State → State × Answer}
    (h : requestOf c = some (code, run)) (r : Request) (s : State) : KeepsSlots s (run r s).1 := by
  have hframe := requestOf_touches h r s
  cases c <;> cases h
  case clearMap.refl => unfold clearMapRequest; dsimp only; exact clearMap_keepsSlots s
  case setClaim.refl =>
    have hset := editSetClaim_keepsSlots
      (addressedNode s (byteAt r.fields 0) (byteAt r.fields 1) (byteAt r.fields 2)) (byteAt r.fields 3)
      ⟨wordAt r.fields 4, wordAt r.fields 6⟩ (pinFieldOf (byteAt r.fields 8) (wordAt r.fields 9)) s
    exact KeepsSlots.ite (fun _ => hset) fun _ => hset.trans (KeepsSlots.of_touches (advance_touches _))
  case dropClaim.refl =>
    have hdrop := editDropClaim_keepsSlots (resolveNode (byteAt r.fields 0) (byteAt r.fields 1)) (byteAt r.fields 2) s
    unfold dropClaimRequest
    split <;> (next e => rw [e] at hdrop; exact hdrop)
  case discardEdits.refl => unfold discardEditsRequest; dsimp only; exact discardEdits_keepsSlots s
  case enrolProjector.refl =>
    refine withSlot_keepsSlots _ s fun p => ?_
    split
    · next hv => exact enrol_keepsSlots hv _ _ _ _ _
    · exact KeepsSlots.refl s
  case fadeProjector.refl =>
    refine withSlot_keepsSlots _ s fun p => ?_
    dsimp only
    split
    · exact KeepsSlots.refl s
    split
    · exact KeepsSlots.refl s
    · next e =>
      split at e
      · exact (fadeIn_keepsSlots e).thenBegin
      · exact (fadeOut_keepsSlots e).thenBegin
  case retireProjector.refl =>
    refine withSlot_keepsSlots _ s fun p => ?_
    split
    · exact KeepsSlots.refl s
    · exact (retire_keepsSlots p _ s).thenBegin
  case setRamp.refl =>
    refine withSlot_keepsSlots _ s fun p => ?_
    split
    · exact KeepsSlots.refl s
    · dsimp only
      refine KeepsSlots.thenBegin (KeepsSlots.trans ?_ (KeepsSlots.of_touches (refreshClaimed_touches p _)))
      exact KeepsSlots.modProj s p _ (SlotKeeps.record _ id fun _ => Iff.rfl)
  case readProjector.refl =>
    refine withSlot_keepsSlots _ s fun p => ?_
    dsimp only
    exact modChan_samelock_keepsSlots rfl fun _ => Or.inl
  case setGainFloor.refl =>
    unfold setGainFloorRequest
    dsimp only
    exact setFloor_keepsSlots (clamp_between (by decide) _) s
  case setGainSlew.refl =>
    obtain ⟨hlow, hhigh⟩ := clamp_between (low := 1) (high := 4096) (by decide) (wordAt r.fields 0)
    exact ⟨id, fun ⟨hfloor, hfloor', _, _, hs⟩ => ⟨hfloor, hfloor', hlow, hhigh, hs⟩, id⟩
  case restartOutput.refl =>
    refine withSlot_keepsSlots _ s fun p => ?_
    split
    · exact KeepsSlots.refl s
    · next hv =>
      split
      · exact KeepsSlots.refl s
      · next e => exact (restartOutput_keepsSlots hv e).thenBegin
  all_goals exact KeepsSlots.of_touches hframe

theorem runRequest_keepsSlots {code : Nat} {run : Request → State → State × Answer} (h : ∀ r t, KeepsSlots t (run r t).1)
    (s : State) : KeepsSlots s (runRequest code run s) :=
  runRequest_keeps (P := KeepsSlots s) (fun t p ht => ht.trans (KeepsSlots.of_touches (setPort_touches t p)))
    (fun r t ht => ht.trans (h r t)) (KeepsSlots.refl s)

theorem agrees_initial : Projector.initial.Agrees := ⟨⟨rfl, rfl⟩, by simp [Projector.initial]⟩

theorem afterReset_keepsSlots (s : State) : KeepsSlots s (afterReset s) := by
  have hproj (p : Slot) : (afterReset s).proj p = Projector.initial := by
    simp [State.proj, afterReset, State.reset, Vector.get_eq_getElem]
  have hchan (p : Slot) : (afterReset s).chan p = Channel.afterReset (s.chan p).raw (s.chan p).starts := by
    simp [State.chan, afterReset, Vector.get_eq_getElem]
  have hprojectors : (afterReset s).ProjectorsAgree := fun p => by rw [hproj]; exact agrees_initial
  refine ⟨fun _ => hprojectors, fun _ => ⟨(by decide : 1024 ≤ 3072), (by decide : 3072 ≤ 4096), (by decide : 1 ≤ 64),
    (by decide : 64 ≤ 4096), fun p => ?_⟩,
    fun _ => ⟨hprojectors, fun p => ?_⟩⟩
  · rw [hproj]
    exact ⟨(by decide : 3072 ≤ 4096), le_refl _, (by decide : 3072 ≤ 4096), le_refl _⟩
  · rw [hproj, hchan]
    exact ⟨iff_of_true rfl rfl, nofun⟩

/-- Every command keeps every slot. -/
theorem exec_keepsSlots (c : Instr) {s t : State} (e : exec c s = .next t) : KeepsSlots s t := by
  by_cases hreq : ∃ k, requestOf c = some k
  · obtain ⟨⟨code, run⟩, hk⟩ := hreq
    rcases exec_of_requestOf hk s with hs | hs <;> obtain rfl := Host.Outcome.next.inj (hs.symm.trans e)
    · exact runRequest_keepsSlots (requestOf_keepsSlots hk) s
    · exact KeepsSlots.refl s
  have hframe := exec_touches c s t e
  cases c
  case resetLine => obtain rfl := Host.Outcome.next.inj e; exact afterReset_keepsSlots s
  case resetDevice =>
    obtain rfl := Host.Outcome.next.inj e
    exact resetDevice_keeps (P := KeepsSlots s) (fun t p ht => ht.trans (KeepsSlots.of_touches (setPort_touches t p)))
      (KeepsSlots.refl s) (afterReset_keepsSlots s)
  case swap =>
    obtain rfl := Host.Outcome.next.inj e
    exact KeepsSlots.ite (fun _ => KeepsSlots.refl s) fun _ =>
      (KeepsSlots.of_touches (setOwed_touches s { s.owed with swap := s.owed.swap - 1 })).trans (swapAll_keepsSlots _)
  case fadeStep =>
    obtain rfl := Host.Outcome.next.inj e
    exact KeepsSlots.ite (fun _ => KeepsSlots.refl s) fun _ =>
      (KeepsSlots.of_touches (setOwed_touches s { s.owed with fade := s.owed.fade - 1 })).trans
        (KeepsSlots.foldl slots (fun t p _ => fadeStepSlot_keepsSlots t p) _)
  case gainSlew =>
    obtain rfl := Host.Outcome.next.inj e
    exact KeepsSlots.ite (fun _ => KeepsSlots.refl s) fun _ => (slewGains_keepsSlots s).trans
      (KeepsSlots.of_touches (setOwed_touches (slewGains s) { s.owed with slew := s.owed.slew - 1 }))
  case synthStartCompletion =>
    obtain rfl := Host.Outcome.next.inj e
    exact KeepsSlots.ite (fun ⟨h, _⟩ => modChan_relock_keepsSlots (fun _ _ => by simp [h]) (by simp) rfl)
      fun _ => KeepsSlots.refl s
  case lockIndicationRise =>
    obtain rfl := Host.Outcome.next.inj e
    exact KeepsSlots.ite (fun ⟨h, _⟩ => modChan_relock_keepsSlots (fun _ _ => by simp [h]) (by simp) rfl)
      fun _ => KeepsSlots.refl s
  case readyRawChange =>
    obtain rfl := Host.Outcome.next.inj e
    exact KeepsSlots.ite (fun _ => KeepsSlots.refl s) fun _ => modChan_samelock_keepsSlots rfl fun _ => Or.inl
  case lockIndicationFall =>
    obtain rfl := Host.Outcome.next.inj e
    exact KeepsSlots.ite (fun _ => takeFall_keepsSlots _ s) fun _ => KeepsSlots.refl s
  case lockTimeout =>
    obtain rfl := Host.Outcome.next.inj e
    exact KeepsSlots.ite (fun h => (attemptFails_keepsSlots (by simp [h])).thenBegin) fun _ => KeepsSlots.refl s
  case windowCompletion p count =>
    obtain rfl := Host.Outcome.next.inj e
    refine KeepsSlots.ite (fun h => ?_) fun _ => KeepsSlots.refl s
    have hcounted : KeepsSlots s (s.modChan p fun c => { c with lastCount := some (recordedCount count) }) :=
      modChan_samelock_keepsSlots rfl fun k hk => Or.inr (Option.some.inj hk ▸ min_le_right _ _)
    have hlock : ((s.modChan p fun c => { c with lastCount := some (recordedCount count) }).chan p).lock ≠ .off := by
      rw [chan_modChan, if_pos rfl]; simp [h]
    refine KeepsSlots.ite (fun _ => ?_) fun _ => ?_
    · refine hcounted.trans (KeepsSlots.trans ?_ (recoveryCheck_keepsSlots p _))
      exact modChan_relock_keepsSlots (fun _ _ => hlock) (by simp) rfl
    · exact (hcounted.trans (attemptFails_keepsSlots hlock)).thenBegin
  case debounceExpiry =>
    obtain rfl := Host.Outcome.next.inj e
    split
    · exact KeepsSlots.refl s
    · exact (takeLevel_keepsSlots _ _ s).thenBegin
  case lumaReport =>
    obtain rfl := Host.Outcome.next.inj e
    refine runReport_keepsSlots (fun r t u o e => ?_) s
    cases r <;> simp only [Option.some.injEq, reduceCtorEq] at e
    have hfst := congrArg Prod.fst e
    dsimp only at hfst
    exact hfst ▸ applyLuma_keepsSlots _ _ t
  case fetchCompletion =>
    obtain rfl := Host.Outcome.next.inj e
    split
    · exact KeepsSlots.ite (fun _ => (completeFetch_keepsSlots _ _ s).thenBegin) fun _ => KeepsSlots.refl s
    · exact KeepsSlots.refl s
  all_goals first
    | exact KeepsSlots.of_touches hframe
    | exact absurd ⟨_, rfl⟩ hreq

/-- Settles O58, command by command. -/
theorem stepKeepsProjectors : Obligations.StepKeepsProjectors := by
  unfold Obligations.StepKeepsProjectors
  exact ⟨KeptByStep.of_exec (fun _ _ h => h) fun c _ _ hs e => (exec_keepsSlots c e).projectors hs,
    KeptByStep.of_exec (fun _ _ h => h) fun c _ _ hs e => (exec_keepsSlots c e).gains hs,
    KeptByStep.of_exec (fun _ _ h => h) fun c _ _ hs e => (exec_keepsSlots c e).channels hs⟩

end Sys2Proof.Machine
end

section
/-! PROOF. The invariants hold at reset (O52). -/

namespace Sys2Proof.Machine

open Sys2Proof Sys2Proof.Stating

set_option Elab.async false

theorem node_reset (n : Nat) : State.reset.node n = Node.initial := rfl

theorem proj_reset (p : Slot) : State.reset.proj p = Projector.initial := by
  simp [State.proj, State.reset, Vector.get_eq_getElem]

theorem chan_reset (p : Slot) : State.reset.chan p = Channel.afterReset .notReady 0 := by
  simp [State.chan, State.reset, Vector.get_eq_getElem]

theorem eventRecord_reset (k : ClassNumber) : State.reset.eventRecord k = EventRecord.initial := by
  simp [State.eventRecord, State.reset, Vector.get_eq_getElem]

theorem confined_reset : State.reset.Confined :=
  ⟨fun _ _ => rfl, ⟨Nat.zero_le _, (by decide : 0 < 64), fun _ => rfl⟩, List.nodup_nil, List.nodup_nil, fun n => by
    rw [node_reset]; simp [State.reset, Node.initial]⟩

theorem groupAgrees_reset : State.reset.GroupAgrees :=
  (groupAgrees_iff _).2 ⟨confined_reset, GroupCounted.of_no_members (fun _ _ => rfl) rfl⟩

theorem marksApart_reset : State.reset.MarksApart := fun n h => by
  rw [node_reset] at h
  exact absurd h.1 (by decide)

theorem listsOrdered_reset : State.reset.ListsOrdered := fun _ => ordered_nodeClosed.initial

theorem weighed_reset : State.reset.Weighed :=
  ⟨fun n => by
    rw [node_reset]
    exact ⟨⟨Or.inl (by simp [Node.initial]), by simp [Node.initial]⟩, fun h => absurd h (by decide)⟩, nofun⟩

theorem accounted_reset : State.reset.Accounted [] :=
  State.Accounted.of_emptied (s := State.reset) ⟨rfl, rfl, id, rfl, rfl, fun p => by
    rw [proj_reset]; exact ⟨rfl, by decide⟩⟩

theorem projectorsAgree_reset : State.reset.ProjectorsAgree := fun p => by rw [proj_reset]; exact agrees_initial

theorem gainsInRange_reset : State.reset.GainsInRange :=
  ⟨by decide, by decide, by decide, by decide, fun p => by rw [proj_reset]; decide⟩

theorem channelsAgree_reset : State.reset.ChannelsAgree :=
  ⟨projectorsAgree_reset, fun p => by rw [chan_reset, proj_reset]; exact ⟨iff_of_true rfl rfl, nofun⟩⟩

/-- Settles O52: the part is empty and every unit at rest. -/
theorem invariantsHoldAtReset : Obligations.InvariantsHoldAtReset := by
  unfold Obligations.InvariantsHoldAtReset
  refine ⟨rfl, marksApart_reset, listsOrdered_reset, ⟨listsOrdered_reset, fun _ => rfl⟩, confined_reset.2.1, confined_reset.2.2,
    projectorsAgree_reset, gainsInRange_reset, channelsAgree_reset, ?timer, ?align, ?loader, ?port, ?attention,
    groupAgrees_reset, ?weights, ?claims⟩
  case weights => exact (weightsAgree_iff _).2 ⟨groupAgrees_reset, marksApart_reset, listsOrdered_reset, weighed_reset⟩
  case claims => exact (claimsCounted_iff _).2 ⟨confined_reset, listsOrdered_reset, accounted_reset⟩
  case timer => exact ⟨by decide, by decide, rfl, rfl, rfl, rfl, Nat.zero_le 2⟩
  case align => simp [AlignPort.Agrees, State.reset, AlignPort.initial]
  case loader => simp [Loader.Agrees, State.reset, Loader.afterReset]
  case port => simp [ControlPort.Agrees, State.reset, ControlPort.afterReset]
  case attention =>
    intro k
    rw [eventRecord_reset]
    exact ⟨by simp [EventRecord.initial], by simp [EventRecord.initial], by simp [EventRecord.initial]⟩

end Sys2Proof.Machine
end

section
/-! PROOF. The Content Input, the drive, and the Frame Timer (O35, O36, O40, O41). -/

namespace Sys2Proof.Machine

open Sys2Proof Sys2Proof.Stating

set_option Elab.async false

/-! ### The Content Input and the drive (R117, R119) -/

/-- Settles O36: each event of the content link is one equation. -/
theorem contentEventsFollowTable : Obligations.ContentEventsFollowTable := by
  refine ⟨fun s frame hwf hsignal => ?complete, fun s k hk => ?badCount, fun s => rfl, fun s => rfl⟩
  case complete => exact congrArg Host.Outcome.next (if_pos (by rw [hwf, hsignal]; rfl))
  case badCount => exact congrArg Host.Outcome.next (if_neg hk)

/-- Settles O35: a product of at most 1023 × 4096 × 4096 over the divisor 4096 × 4096, rounded. -/
theorem driveNeverExceedsContent : Obligations.DriveNeverExceedsContent := by
  intro level weight gain _ hweight hgain
  have hproduct : level * weight * gain ≤ level * 16777216 := by
    rw [Nat.mul_assoc]
    exact Nat.mul_le_mul_left _ (Nat.mul_le_mul hweight hgain)
  unfold drive
  refine ⟨rfl, ?le, ?full, ?noWeight, ?noContent, fun hsmall => ?small⟩
  case le => omega
  case full => omega
  case noWeight => simp
  case noContent => simp
  case small => omega

/-! ### Requests that change what stands outside -/

/-- A request of its code and length whose run leaves the Control Port alone. -/
theorem runRequest_of_waits_run {s : State} {code tag : Byte} {fields : List Byte} {rest : List Request}
    (h : Waits s code tag fields rest) {c k : Nat} (hc : code.toNat = c) (hk : requiredLength c = some k)
    (hl : fields.length + 2 = k) {run : Request → State → State × Answer} {t : State} {a : Answer} (ht : t.port = s.port)
    (hrun : run { code := code, tag := tag, fields := fields } (s.setPort { s.port with requests := rest }) =
      (t.setPort { s.port with requests := rest }, a)) :
    runRequest c run s = answered t rest tag a.result a.fields := by
  obtain ⟨hhead, hroom⟩ := h
  rw [runRequest_of_head hhead hroom hc hk hl, hrun]
  exact reply_eq_answered ht rest tag a

/-! ### The Frame Timer (R143 to R147) -/

/-- Settles O40: the expiry, if one is pending, is a boundary. -/
theorem timerExpiriesAreBoundaries : Obligations.TimerExpiriesAreBoundaries := by
  refine ⟨⟨fun s at' h => ?expiry, fun s h => ?stopped, fun s tag v0 v1 rest hw => ?period⟩,
    fun s at' h => ?lost, fun s h => ?noWatchdog⟩
  case expiry => refine congrArg Host.Outcome.next ?_; rw [h]; rfl
  case stopped => refine congrArg Host.Outcome.next ?_; rw [h]
  case period =>
    intro period
    refine congrArg Host.Outcome.next ?_
    exact runRequest_of_waits_run (run := setFramePeriodRequest) (t := { s with timer := { s.timer with period := period } })
      (a := .ok (twoBytes period)) hw rfl rfl rfl rfl rfl
  case lost => refine congrArg Host.Outcome.next ?_; rw [h]; rfl
  case noWatchdog => refine congrArg Host.Outcome.next ?_; rw [h]

theorem spacingFits_iff (d : Nat) : spacingFits d = true ↔ 8000 ≤ d ∧ d ≤ 50000 := by
  unfold spacingFits; exact decide_eq_true_iff

theorem exec_genlockPulse_of_search {s : State} (h : s.timer.state ≠ .genlocked) (now : Nat) :
    exec (.genlockPulse now) s = .next (searchPulse now s) := by
  refine congrArg Host.Outcome.next ?_
  cases hs : s.timer.state
  · rfl
  · exact absurd hs h
  · rfl

theorem steady_iff {a b now : Nat} (hab : a ≤ b) (hb : b ≤ now) :
    steady (b - a) (now - b) = true ↔ ((now - b : Int) - (b - a)).natAbs * 100 ≤ b - a := by
  unfold steady
  rw [decide_eq_true_iff, Nat.cast_sub hab, Nat.cast_sub hb]

/-- Settles O41: a pulse searches by the pulse run, or follows by its spacing from the last. -/
theorem genlockPulsesAreFollowed : Obligations.GenlockPulsesAreFollowed := by
  intro s now boundary ran
  refine ⟨fun hstate => ⟨fun hrun => ?first, fun a hrun _ => ⟨fun hlow hhigh => ?second, fun hfar => ?secondFar⟩,
    fun a b hrun hab hb => ⟨fun hfar => ?thirdFar, fun hlow hhigh => ⟨fun hunsteady => ?unsteady, fun hsteady => ?acquired⟩⟩⟩,
    fun last hstate hlast _ => ?follow⟩
  case follow =>
    have hspacing : now - s.timer.lastPulse.getD 0 = now - last := by rw [hlast]; rfl
    have hexec : exec (.genlockPulse now) s = .next (followPulse now s) := by
      refine congrArg Host.Outcome.next ?_
      rw [hstate]
    rw [hexec]
    unfold followPulse
    rw [hspacing]
    exact ⟨fun hearly => congrArg Host.Outcome.next (if_pos hearly),
      fun hlate => congrArg Host.Outcome.next (if_neg (Nat.not_lt.2 hlate))⟩
  all_goals
    rw [exec_genlockPulse_of_search hstate]
    refine congrArg Host.Outcome.next ?_
    unfold searchPulse
    rw [hrun]
    dsimp only
  case first => rfl
  case second => rw [if_pos ((spacingFits_iff _).2 ⟨hlow, hhigh⟩)]; rfl
  case secondFar => rw [if_neg fun h => by have := (spacingFits_iff _).1 h; omega]; rfl
  case thirdFar => rw [if_neg fun h => by have := (spacingFits_iff _).1 h; omega]; rfl
  case unsteady =>
    rw [if_pos ((spacingFits_iff _).2 ⟨hlow, hhigh⟩), if_neg fun h => not_le.2 hunsteady ((steady_iff hab hb).1 h)]
    rfl
  case acquired =>
    rw [if_pos ((spacingFits_iff _).2 ⟨hlow, hhigh⟩), if_pos ((steady_iff hab hb).2 hsteady)]
    rfl

end Sys2Proof.Machine
end

section
/-! PROOF. The Alignment Port: the line, the assembler and the port's requests (O42, O43, O45). -/

namespace Sys2Proof.Machine

open Sys2Proof Sys2Proof.Stating

set_option Elab.async false

/-! ### Discards (R156, R157) -/

theorem takeDiscard_eq_discarded (flags : ErrorSet) (s : State) : takeDiscard flags s = discarded s flags := by
  unfold takeDiscard discarded
  cases s.align.mode <;> rfl

theorem carried_eq_flags (e : FifoEntry) : carried e = e.flags := rfl

/-! ### The line (R150 to R153) -/

theorem exec_byteCompletion_of_listening {s : State} (h : s.align.receiver = .listening) (data : Byte) (parity stop : Bool) :
    exec (.byteCompletion data parity stop) s
      = .next (if s.align.synced then offerByte (completedByte data parity stop) s else s) := by
  change Host.Outcome.next _ = _
  rw [h]

theorem exec_lineBreak {s : State} (h : s.align.receiver = .listening ∨ s.align.receiver = .halted) :
    exec .lineBreak s = .next ((s.setAlign (s.align.broken (if s.align.receiver = .halted then .halted else .listening))).raise
      (.alignLine false)) := by
  rcases h with h | h
  · refine congrArg Host.Outcome.next ?_
    rw [h]
    rfl
  · refine congrArg Host.Outcome.next ?_
    rw [h]
    rfl

/-- A byte in step, by the error mode and the room in the FIFO (R152, R157). -/
theorem offerByte_of_doubtful {s : State} {e : FifoEntry} (hmode : s.align.mode = .halt) (he : e.doubtful = true) :
    offerByte e s = discarded s (carried e) := by
  rw [← takeDiscard_eq_discarded]
  exact if_pos ⟨hmode, he⟩

theorem union_overrunFlag (e : ErrorSet) : e.union overrunFlag = { e with overrun := true } := by
  simp [ErrorSet.union, overrunFlag, ErrorSet.empty]

theorem exec_lineIdle_of_lineDown {s : State} (h : s.align.receiver = .lineDown) {r : ResumeState}
    (hr : s.align.resume = some r) :
    exec .lineIdle s = .next ((s.setAlign (s.align.lineUp r)).raise (.alignLine true)) := by
  refine congrArg Host.Outcome.next ?_
  rw [h, hr]

/-- Settles O42, by the receiver state, and in LISTENING by the error mode and the room in the FIFO. -/
theorem lineEventsDriveReceiver : Obligations.LineEventsDriveReceiver := by
  intro s data parity stop ones e done
  have hbyte : completedByte data parity stop = e := rfl
  refine ⟨fun hlisten hsync => ?listening, fun hhalted => ?halted, fun hnone => ?ignored, fun hlisten => ?idle,
    fun hdown hresume => ?up, fun hdown hresume => ?upHalted, fun h => ?brk, fun h => ?idleDisabled, fun h => ?idleHalted,
    fun h => ?breakDisabled, fun h => ?breakDown⟩
  case listening =>
    have hdone : done = .next (offerByte e s) := by
      change exec (.byteCompletion data parity stop) s = _
      rw [exec_byteCompletion_of_listening hlisten, if_pos hsync, hbyte]
    have hdoubtful : e.doubtful = true ↔ e.parityError = true ∨ e.framingError = true := by
      unfold FifoEntry.doubtful
      rw [Bool.or_eq_true, Bool.or_eq_true]
      exact ⟨fun h => h.elim id fun hgap => absurd hgap Bool.false_ne_true, Or.inl⟩
    rw [hdone]
    refine ⟨fun hmode herror => ?error, fun hclean => ?clean⟩
    case error => rw [offerByte_of_doubtful hmode (hdoubtful.2 herror)]
    case clean =>
      have hnot : ¬(s.align.mode = .halt ∧ e.doubtful = true) := by
        rintro ⟨hmode, herror⟩
        rcases hclean with hdiscard | ⟨hparity, hframing⟩
        · rw [hdiscard] at hmode; cases hmode
        · rcases hdoubtful.1 herror with h | h
          · rw [hparity] at h; cases h
          · rw [hframing] at h; cases h
      refine ⟨fun hroom => ?joins, fun hfull => ?full⟩
      case joins => exact congrArg Host.Outcome.next ((if_neg hnot).trans (if_pos hroom))
      case full =>
        intro errors
        have hlost : offerByte e s = loseByte s := (if_neg hnot).trans (if_neg (Nat.not_lt.2 hfull))
        rw [hlost]
        unfold loseByte
        refine ⟨fun hmode => ?discards, fun hmode => ?halts⟩
        case discards => rw [hmode]; dsimp only; rw [union_overrunFlag]; rfl
        case halts =>
          rw [hmode]
          dsimp only
          unfold AlignPort.halting
          dsimp only
          rw [union_overrunFlag]
          rfl
  case halted => refine congrArg Host.Outcome.next ?_; rw [hhalted]; rfl
  case ignored =>
    rcases hnone with h | h | ⟨h, hsync⟩
    · refine congrArg Host.Outcome.next ?_; rw [h]
    · refine congrArg Host.Outcome.next ?_; rw [h]
    · change exec (.byteCompletion data parity stop) s = _
      rw [exec_byteCompletion_of_listening h, hsync]
      rfl
  case idle => refine congrArg Host.Outcome.next ?_; rw [hlisten]; rfl
  case up =>
    rw [exec_lineIdle_of_lineDown hdown hresume]
    unfold AlignPort.lineUp
    rw [show (s.align.synced || ResumeState.listening == ResumeState.listening) = true from Bool.or_true _]
    rfl
  case upHalted =>
    rw [exec_lineIdle_of_lineDown hdown hresume]
    unfold AlignPort.lineUp
    rw [show (s.align.synced || ResumeState.halted == ResumeState.listening) = s.align.synced from Bool.or_false _]
    rfl
  case brk => exact exec_lineBreak h
  case idleDisabled => refine congrArg Host.Outcome.next ?_; rw [h]
  case idleHalted => refine congrArg Host.Outcome.next ?_; rw [h]
  case breakDisabled => refine congrArg Host.Outcome.next ?_; rw [h]
  case breakDown => refine congrArg Host.Outcome.next ?_; rw [h]

/-! ### The assembler (R154, R155, R158) -/

theorem exec_assemblerTake {s : State} (h : s.align.receiver = .listening) {e : FifoEntry} {fifo : List FifoEntry}
    (hf : s.align.fifo = e :: fifo) :
    exec .assemblerTake s = .next (assemble e (s.setAlign { s.align with fifo := fifo })) := by
  refine congrArg Host.Outcome.next ?_
  rw [h, hf]

theorem offerReport_of_room {s : State} (h : s.align.queue.length < 16) (r : Report) :
    offerReport r s = s.setAlign { s.align with assembler := .seekLead, queue := s.align.queue ++ [r] } := if_pos h

theorem offerReport_of_full {s : State} (h : 16 ≤ s.align.queue.length) (r : Report) :
    offerReport r s = discarded s { ErrorSet.empty with queueFull := true } :=
  (if_neg (Nat.not_lt.2 h)).trans (takeDiscard_eq_discarded _ s)

theorem advanceReport_of_short {s : State} {r : PartialReport} (h : r.bytes.length < r.type.payload) :
    advanceReport r s = s.setAlign { s.align with assembler := .readPayload r } := if_pos h

theorem advanceReport_of_faulty {s : State} {r : PartialReport} (h : r.type.payload ≤ r.bytes.length) (hr : r.faulty = true) :
    advanceReport r s = discarded s r.flags :=
  ((if_neg (Nat.not_lt.2 h)).trans (if_pos hr)).trans (takeDiscard_eq_discarded _ s)

theorem advanceReport_of_clean {s : State} {r : PartialReport} (h : r.type.payload ≤ r.bytes.length) (hr : r.faulty = false) :
    advanceReport r s = offerReport (reportOf r.type r.bytes) s :=
  (if_neg (Nat.not_lt.2 h)).trans (if_neg (by rw [hr]; exact Bool.false_ne_true))

theorem payload_of_reportTypes {k : Byte × ReportType × Nat} (hk : k ∈ reportTypes) : k.2.1.payload = k.2.2 := by
  revert k; decide

theorem reportTypeOf_of_reportTypes {k : Byte × ReportType × Nat} (hk : k ∈ reportTypes) : reportTypeOf k.1 = some k.2.1 := by
  revert k; decide

theorem reportTypeOf_eq_none {b : Byte} (h : ∀ k ∈ reportTypes, b ≠ k.1) : reportTypeOf b = none := by
  have hdrift : b ≠ 1#8 := h (1, .drift, 7) (by simp [reportTypes])
  have hluma : b ≠ 2#8 := h (2, .luma, 3) (by simp [reportTypes])
  have hstep : b ≠ 3#8 := h (3, .step, 0) (by simp [reportTypes])
  unfold reportTypeOf
  rw [if_neg hdrift, if_neg hluma, if_neg hstep]

/-- A partial report that is complete: discarded, queued, or refused by a full queue (R155, R158). -/
theorem advanceReport_of_complete {s : State} {r : PartialReport} (h : r.type.payload ≤ r.bytes.length) :
    (r.faulty = true → advanceReport r s = discarded s r.flags) ∧
    (r.faulty = false → s.align.queue.length < 16 → advanceReport r s
      = s.setAlign { s.align with assembler := .seekLead, queue := s.align.queue ++ [reportOf r.type r.bytes] }) ∧
    (r.faulty = false → 16 ≤ s.align.queue.length → advanceReport r s
      = discarded s { ErrorSet.empty with queueFull := true }) :=
  ⟨advanceReport_of_faulty h, fun hr hroom => (advanceReport_of_clean h hr).trans (offerReport_of_room hroom _),
    fun hr hfull => (advanceReport_of_clean h hr).trans (offerReport_of_full hfull _)⟩

/-- Settles O43, by the assembler's state. -/
theorem assemblerTakesFifoHead : Obligations.AssemblerTakesFifoHead := by
  refine ⟨?take, fun _ _ _ _ _ _ _ => rfl, fun _ _ _ => rfl, rfl⟩
  intro s e fifo hlisten hfifo doubtful set done complete
  have hdone : done = .next (assemble e (s.setAlign { s.align with fifo := fifo })) := exec_assemblerTake hlisten hfifo
  have hcomplete {r : PartialReport} (hr : r.type.payload ≤ r.bytes.length)
      (hassemble : assemble e (s.setAlign { s.align with fifo := fifo })
        = advanceReport r (s.setAlign { s.align with fifo := fifo })) :
      complete r.type r.bytes r.faulty r.flags := by
    obtain ⟨hfaulty, hqueued, hrefused⟩ := advanceReport_of_complete (s := s.setAlign { s.align with fifo := fifo }) hr
    rw [← hassemble] at hfaulty hqueued hrefused
    exact ⟨fun h => hdone.trans (congrArg Host.Outcome.next (hfaulty h)),
      fun h hroom => hdone.trans (congrArg Host.Outcome.next (hqueued h hroom)),
      fun h hfull => hdone.trans (congrArg Host.Outcome.next (hrefused h hfull))⟩
  refine ⟨fun hseek => ?seekLead, fun htype => ?readType, fun r k hpayload hk hr => ?readPayload⟩
  case seekLead =>
    have hassemble : assemble e (s.setAlign { s.align with fifo := fifo })
        = if e.value = 0xA5 ∧ doubtful = false then set .readType
          else takeDiscard { e.flags with stray := true } (s.setAlign { s.align with fifo := fifo }) := by
      unfold assemble
      rw [show (s.setAlign { s.align with fifo := fifo }).align.assembler = .seekLead from hseek]
      rfl
    rw [hdone, hassemble]
    refine ⟨fun hlead hsure => ?lead, fun hstray => ?stray⟩
    case lead => rw [if_pos ⟨hlead, hsure⟩]
    case stray =>
      rw [if_neg fun h => hstray.elim (fun hv => hv h.1) fun hd =>
        Bool.false_ne_true (h.2.symm.trans hd), takeDiscard_eq_discarded]
      simp only [set, ← hseek]
      rfl
  case readType =>
    have hset (t : State) : discarded (set .readType) = discarded (s.setAlign { s.align with fifo := fifo }) := by
      simp only [set, ← htype]
      rfl
    have hassemble : assemble e (s.setAlign { s.align with fifo := fifo })
        = if doubtful = true then takeDiscard e.flags (s.setAlign { s.align with fifo := fifo })
          else match reportTypeOf e.value with
            | some type => advanceReport (.start type) (s.setAlign { s.align with fifo := fifo })
            | none => takeDiscard { ErrorSet.empty with badType := true } (s.setAlign { s.align with fifo := fifo }) := by
      unfold assemble
      rw [show (s.setAlign { s.align with fifo := fifo }).align.assembler = .readType from htype]
      rfl
    refine ⟨fun hdoubt => ?doubt, fun hsure hbad => ?bad, fun k hk hsure hvalue => ?type⟩
    case doubt => rw [hdone, hassemble, if_pos hdoubt, takeDiscard_eq_discarded, hset s]; rfl
    case bad =>
      rw [hdone, hassemble, if_neg (by rw [hsure]; exact Bool.false_ne_true), reportTypeOf_eq_none hbad]
      dsimp only
      rw [takeDiscard_eq_discarded, hset s]
    case type =>
      rw [if_neg (by rw [hsure]; exact Bool.false_ne_true), hvalue, reportTypeOf_of_reportTypes hk] at hassemble
      have hpayload : (PartialReport.start k.2.1).type.payload = k.2.2 := payload_of_reportTypes hk
      refine ⟨fun hpos => ?payload, fun hzero => ?whole⟩
      case payload =>
        rw [hdone, hassemble]
        exact congrArg Host.Outcome.next (advanceReport_of_short (hpayload ▸ hpos))
      case whole => exact hcomplete (r := .start k.2.1) (by rw [hpayload, hzero]; exact Nat.zero_le _) hassemble
  case readPayload =>
    have hassemble : assemble e (s.setAlign { s.align with fifo := fifo })
        = advanceReport (r.append e) (s.setAlign { s.align with fifo := fifo }) := by
      unfold assemble
      rw [show (s.setAlign { s.align with fifo := fifo }).align.assembler = .readPayload r from hpayload]
    have hlength : (r.append e).type.payload = k.2.2 := by rw [← payload_of_reportTypes hk, ← hr]; rfl
    intro bytes faulty flags
    refine ⟨fun hshort => ?short, fun hlong => ?long⟩
    case short =>
      rw [hdone, hassemble]
      exact congrArg Host.Outcome.next (advanceReport_of_short (hlength ▸ hshort))
    case long => exact hcomplete (r := r.append e) (hlength ▸ hlong) hassemble

/-! ### Requests (R164 to R166) -/

theorem rateOf_eq (b : Byte) : rateOf b.toNat
    = match min 3 b.toNat with | 0 => .r115200 | 1 => .r230400 | 2 => .r460800 | _ => .r921600 := by
  unfold rateOf
  rcases b.toNat with _ | _ | _ | k
  · rfl
  · rfl
  · rfl
  · rw [show min 3 (k + 1 + 1 + 1) = 3 by omega]
    rfl

theorem code_rateOf (k : Nat) : (rateOf k).code = min 3 k := by
  rcases k with _ | _ | _ | k
  · rfl
  · rfl
  · rfl
  · exact (Nat.min_eq_left (Nat.le_add_left 3 k)).symm

theorem yesNo_eq (b : Byte) : yesNo b.toNat = decide (b ≠ 0) := by
  rw [decide_eq_decide.2 (not_congr (byte_eq_zero_iff b)), decide_not]
  rfl

/-- The port after CLEAR ALIGN ERRORS, but for what HALTED and LINE_DOWN add. -/
theorem cleared_of_standing {a : AlignPort}
    (h : a.receiver = .disabled ∨ a.receiver = .listening ∨ a.receiver = .lineDown ∧ a.resume ≠ some .halted) :
    a.cleared = { a with errors := .empty, gapPending := false } := by
  obtain ⟨rate, mode, enable, receiver, resume, synced, gapPending, fifo, assembler, errors, queue, last⟩ := a
  rcases h with h | h | ⟨h, hresume⟩
  · obtain rfl : receiver = _ := h
    rfl
  · obtain rfl : receiver = _ := h
    rfl
  · obtain rfl : receiver = _ := h
    unfold AlignPort.cleared
    dsimp only
    rw [if_neg hresume]

theorem cleared_of_halted {a : AlignPort} (h : a.receiver = .halted) :
    a.cleared = { a with
      errors := .empty, gapPending := false, receiver := .listening, synced := true, assembler := .seekLead } := by
  unfold AlignPort.cleared
  rw [h]

theorem cleared_of_lineDown {a : AlignPort} (h : a.receiver = .lineDown) (hresume : a.resume = some .halted) :
    a.cleared = { a with errors := .empty, gapPending := false, resume := some .listening } := by
  obtain ⟨rate, mode, enable, receiver, resume, synced, gapPending, fifo, assembler, errors, queue, last⟩ := a
  obtain rfl : receiver = _ := h
  exact congrArg (fun r => AlignPort.mk rate mode enable .lineDown r synced false fifo assembler .empty queue last)
    (if_pos hresume)

/-- SET ALIGN LINK leaves the port `l`, and its reply reports it. -/
theorem setAlignLink_of_waits {s : State} {tag rate mode enable : Byte} {rest : List Request}
    (hw : Waits s 0x40 tag [rate, mode, enable] rest) {l : AlignPort}
    (hl : s.align.linked (rateOf rate.toNat) (if mode.toNat = 0 then .discardReport else .halt) (yesNo enable.toNat) = l) :
    runRequest 0x40 setAlignLinkRequest s = answered (s.setAlign l) rest tag .ok
      (u8 l.rate.code ++ u8 l.mode.code ++ packBits [l.enable] ++ u8 l.receiver.code) := by
  subst hl
  exact runRequest_of_waits_run hw rfl rfl rfl (a := .ok _) rfl rfl

/-- Settles O45: each request is one equation for the port, and its reply. -/
theorem alignRequestsSetReceiver : Obligations.AlignRequestsSetReceiver := by
  refine ⟨fun s tag rate mode enable rest hw => ?link, fun s tag rest hw => ?clear, fun s tag rest hw => ?reset⟩
  case link =>
    intro a code receiver
    have hmode : (if mode.toNat = 0 then ErrorMode.discardReport else .halt) = if mode = 0 then .discardReport else .halt :=
      if_congr (byte_eq_zero_iff mode).symm rfl rfl
    have hrate : LineRate.code (match min 3 rate.toNat with | 0 => .r115200 | 1 => .r230400 | 2 => .r460800 | _ => .r921600)
        = min 3 rate.toNat :=
      (congrArg LineRate.code (rateOf_eq rate)).symm.trans (code_rateOf rate.toNat)
    have hlinked := congr (congr (congrArg s.align.linked (rateOf_eq rate)) hmode) (yesNo_eq enable)
    refine congrArg Host.Outcome.next ((setAlignLink_of_waits hw hlinked).trans ?_)
    simp only [AlignPort.linked, linkedReceiver, hrate, packBits_eq, u8_eq]
    by_cases henable : enable = 0#8 <;> by_cases hm : mode = 0#8 <;> simp [henable, hm, receiver, a, code] <;> rfl
  case clear =>
    intro cleared reply done
    have hdone {a : AlignPort} (ha : s.align.cleared = a) : done a := by
      subst ha
      exact congrArg Host.Outcome.next (runRequest_of_waits_run (run := clearAlignErrorsRequest)
        (t := s.setAlign s.align.cleared) hw rfl rfl rfl rfl rfl)
    exact ⟨fun h => hdone (cleared_of_halted h), fun h hresume => hdone (cleared_of_lineDown h hresume),
      fun h => hdone (cleared_of_standing h)⟩
  case reset =>
    exact congrArg Host.Outcome.next (runRequest_of_waits_run (run := resetAlignReceiverRequest)
      (t := s.setAlign s.align.receiverReset) hw rfl rfl rfl rfl rfl)

end Sys2Proof.Machine
end

section
/-! PROOF. The Mesh Loader's fetch decision and requests (O46, O47). -/

namespace Sys2Proof.Machine

open Sys2Proof Sys2Proof.Stating

set_option Elab.async false

/-! ### The fetch decision (R170, R174) -/

theorem asked_length_beginFetch {l : Loader} {d : Descriptor} (hd : l.descriptor = some d) :
    l.beginFetch.asked.length = match d.format with | .compact => 8 | .full => 10 := by
  rw [asked_beginFetch, hd]
  dsimp only
  rw [recordAddresses_length]
  cases d.format <;> rfl

theorem asked_getElem?_beginFetch (l : Loader) {i : Nat} (hi : i < l.beginFetch.asked.length) :
    l.beginFetch.asked[i]? = some ((l.nextAddress + i) % 16777216) := by
  cases hd : l.descriptor with
  | none => rw [asked_beginFetch, hd] at hi; exact absurd hi (Nat.not_lt_zero i)
  | some d =>
    rw [asked_beginFetch, hd] at hi ⊢
    dsimp only at hi ⊢
    rw [recordAddresses_length] at hi
    exact recordAddresses_getElem? _ _ _ hi

/-- Settles O46, by the first condition of R170 that applies. -/
theorem fetchDecisionFollowsTable : Obligations.FetchDecisionFollowsTable := by
  intro l d credit owed hd hstate hreason hfetch n
  have hn : n = if l.stopPending then { l with state := .held, reason := none, stopPending := false }
      else if owed then l.wait .yield
      else if d.pacing = .perFrame ∧ l.quotaUsed = d.quota then l.wait .quota
      else if d.pacing = .step ∧ credit = false then l.wait .step
      else l.beginFetch := by
    change l.decide credit owed = _
    unfold Loader.decide
    rw [hd]
  refine ⟨fun hstop => ?stop, fun hstop => ⟨fun howed => ?yield, fun howed => ⟨fun hpacing hquota => ?quota,
    fun hpacing hcredit => ?step, fun hquota hstep => ?fetch⟩⟩⟩
  all_goals rw [hstop] at hn
  case stop => rw [hn, if_pos rfl, hreason]
  all_goals rw [if_neg Bool.false_ne_true, howed] at hn
  case yield => rw [hn, if_pos rfl]; rfl
  all_goals rw [if_neg Bool.false_ne_true] at hn
  case quota => rw [hn, if_pos ⟨hpacing, hquota⟩]; rfl
  case step => rw [hn, if_neg (by rw [hpacing]; simp), if_pos ⟨hpacing, hcredit⟩]; rfl
  case fetch =>
    rw [if_neg hquota, if_neg hstep] at hn
    rw [hn]
    refine ⟨?_, asked_length_beginFetch hd, fun i hi => asked_getElem?_beginFetch l hi⟩
    unfold Loader.beginFetch
    rw [← hstate, ← hreason]
    rfl

/-! ### Failovers outstanding (R170) -/

theorem projectors_toList (s : State) : s.projectors.toList = (List.finRange 16).map s.proj := by
  refine List.ext_getElem (by simp) fun i hi hi' => ?_
  simp [State.proj, Vector.get_eq_getElem]

theorem failoverOwed_iff (s : State) : s.failoverOwed = true ↔ FailoverOwed s := by
  unfold State.failoverOwed FailoverOwed
  rw [projectors_toList, List.any_eq_true]
  simp only [List.mem_map, List.mem_finRange, true_and, exists_exists_eq_and, decide_eq_true_eq]

theorem failoverOwed_eq (s : State) [Decidable (FailoverOwed s)] : s.failoverOwed = decide (FailoverOwed s) :=
  Bool.eq_iff_iff.2 ((failoverOwed_iff s).trans decide_eq_true_iff.symm)

/-! ### The loader's requests (R169, R179, R180) and the quota (R171) -/

theorem started_eq_startedLoader (l : Loader) (d : Descriptor) : l.started d = startedLoader l d := rfl

theorem byte_word (lo hi : Byte) : byte (word lo hi) = lo ∧ byte (word lo hi / 256) = hi := by
  have h := twoBytes_word lo hi
  simpa [twoBytes] using h

/-- The pacing kind that a field names (R169). -/
theorem pacingOf_eq (b : Byte) :
    pacingOf b.toNat = if b = 0 then .burst else if b = 1 then .perFrame else .step := by
  simp only [byte_eq_zero_iff, byte_eq_one_iff]
  rcases b.toNat with _ | _ | k <;> simp [pacingOf]

theorem code_pacingOf (k : Nat) : (pacingOf k).code = min 2 k := by
  rcases k with _ | _ | k
  · rfl
  · rfl
  · exact (Nat.min_eq_left (Nat.le_add_left 2 k)).symm

theorem formatField_eq (b : Byte) :
    u8 (if b = 0 then RecordFormat.compact else .full).code = [if b = 0 then 0 else 1] := by split <;> rfl

theorem packBits_not_not (p q : Prop) [Decidable p] [Decidable q] :
    packBits [decide ¬p, decide ¬q] = [(if p then 0 else 1) + (if q then 0 else 2)] := by
  by_cases hp : p <;> by_cases hq : q <;> simp only [hp, hq] <;> rfl

theorem exec_loadMesh_of_idle {s : State} {tag a0 a1 a2 c0 c1 format pacing q0 q1 honour apply : Byte} {rest : List Request}
    (hw : Waits s 0x48 tag [a0, a1, a2, c0, c1, format, pacing, q0, q1, honour, apply] rest) (hidle : s.loader.state = .idle)
    {d : Descriptor} (hd : descriptorOf [a0, a1, a2, c0, c1, format, pacing, q0, q1, honour, apply] = d) :
    exec .loadMesh s = .next (answered (s.setLoader ((s.loader.started d).decide false s.failoverOwed)) rest tag .ok
      (descriptorFields d ++ packBits [d.honourEnd, d.applyAtEnd]
        ++ u8 ((s.loader.started d).decide false s.failoverOwed).state.code)) := by
  subst hd
  refine congrArg Host.Outcome.next (runRequest_of_waits_run (run := loadMeshRequest) hw rfl rfl rfl (a := .ok _)
    (t := s.setLoader _) rfl ?_)
  exact if_pos hidle

theorem descriptorOf_loadMesh (a0 a1 a2 c0 c1 format pacing q0 q1 honour apply : Byte) :
    descriptorOf [a0, a1, a2, c0, c1, format, pacing, q0, q1, honour, apply] =
      { start := triple a0 a1 a2, count := word c0 c1
        format := if format = 0 then .compact else .full
        pacing := if pacing = 0 then .burst else if pacing = 1 then .perFrame else .step
        quota := max 1 (min 4095 (word q0 q1)), honourEnd := decide (honour ≠ 0), applyAtEnd := decide (apply ≠ 0) } := by
  have hformat : (if format.toNat = 0 then RecordFormat.compact else .full) = if format = 0 then .compact else .full :=
    if_congr (byte_eq_zero_iff format).symm rfl rfl
  rw [← hformat, ← pacingOf_eq, ← yesNo_eq, ← yesNo_eq]
  rfl

theorem waitsFor_iff (l : Loader) (r : WaitReason) : l.waitsFor r = true ↔ l.state = .waiting ∧ l.reason = some r := by
  unfold Loader.waitsFor
  rw [Bool.and_eq_true, beq_iff_eq, beq_iff_eq]

/-- A quota renewal (R171). -/
theorem renewQuota_eq (s : State) : renewQuota s = s.setLoader
    (if s.loader.waitsFor .quota then
      { s.loader with state := .running, reason := none, quotaUsed := 0 }.decide false s.failoverOwed
    else { s.loader with quotaUsed := 0 }) := by
  unfold renewQuota
  split <;> rfl

/-- A request whose run is known, with its result and its fields as the statements write them. -/
theorem runRequest_of_waits_reply {s : State} {code tag : Byte} {fields : List Byte} {rest : List Request}
    (h : Waits s code tag fields rest) {c k : Nat} (hc : code.toNat = c) (hk : requiredLength c = some k)
    (hl : fields.length + 2 = k) {run : Request → State → State × Answer} {t : State} {a : Answer}
    (hrun : run { code := code, tag := tag, fields := fields } (s.setPort { s.port with requests := rest }) =
      (t.setPort { s.port with requests := rest }, a)) (ht : t.port = s.port) {reply : List Byte} (ha : a.fields = reply) :
    runRequest c run s = answered t rest tag a.result reply :=
  ha ▸ runRequest_of_waits_run h hc hk hl ht hrun

/-- The loader's state and its counts in a reply. -/
theorem loaderCounts_eq (l : Loader) :
    u8 l.state.code ++ u24 l.remaining ++ u24 l.stored
      = [byte l.state.code] ++ threeBytes l.remaining ++ threeBytes l.stored := by
  rw [u24_eq, u24_eq]
  rfl

theorem stopFields_eq (l : Loader) : stopFields l = [byte l.state.code, if l.stopPending then 1 else 0] := by
  unfold stopFields
  cases l.stopPending <;> rfl

theorem stop_of_running {l : Loader} (h : l.state = .running) : l.stop = some { l with stopPending := true } := by
  cases l
  obtain rfl := h
  rfl

theorem stopLoadRequest_of_stop {r : Request} {s : State} {l : Loader} (h : s.loader.stop = some l) :
    stopLoadRequest r s = (s.setLoader l, .ok (stopFields l)) := by unfold stopLoadRequest; rw [h]

theorem stopLoadRequest_of_idle {r : Request} {s : State} (h : s.loader.stop = none) :
    stopLoadRequest r s = (s, ⟨.state, stopFields s.loader⟩) := by unfold stopLoadRequest; rw [h]

theorem resumeLoadRequest_of_resume {r : Request} {s t : State} (h : resumeLoad s = some t) :
    resumeLoadRequest r s = (t, .ok (u8 t.loader.state.code)) := by unfold resumeLoadRequest; rw [h]

/-- Settles O47, request by request, each by the loader's state. -/
theorem loaderRequestsByState : Obligations.LoaderRequestsByState := by
  refine ⟨fun s tag a0 a1 a2 c0 c1 format pacing q0 q1 honour apply rest hw => ?load, fun s tag rest hw => ?stop,
    fun s tag rest hw => ?resume, fun s tag rest hw => ?reset, fun s howed => ?quota⟩
  case load =>
    intro quota d
    refine ⟨fun hidle => ?idle, fun hbusy => ?busy⟩
    case idle =>
      intro l
      have hl : l = (s.loader.started d).decide false s.failoverOwed := by rw [failoverOwed_eq]; rfl
      rw [exec_loadMesh_of_idle hw hidle (descriptorOf_loadMesh ..), ← hl]
      have hpacing : d.pacing.code = min 2 pacing.toNat :=
        (congrArg Pacing.code (pacingOf_eq pacing)).symm.trans (code_pacingOf pacing.toNat)
      have hfields : descriptorFields d ++ packBits [d.honourEnd, d.applyAtEnd] ++ u8 l.state.code
          = [a0, a1, a2, c0, c1, if format = 0 then 0 else 1, byte (min 2 pacing.toNat)] ++ twoBytes quota
            ++ [(if honour = 0 then 0 else 1) + (if apply = 0 then 0 else 2), byte l.state.code] := by
        unfold descriptorFields
        rw [hpacing, u24_eq, threeBytes_triple, u16_eq, twoBytes_word]
        dsimp only [d]
        rw [formatField_eq, packBits_not_not]
        rfl
      rw [hfields]
      rfl
    case busy =>
      exact congrArg Host.Outcome.next (runRequest_of_waits_reply (run := loadMeshRequest) (t := s) hw rfl rfl rfl
        (if_neg hbusy) rfl (loaderCounts_eq s.loader))
  case stop =>
    intro pending
    have hstop {l : Loader} (h : s.loader.stop = some l) {reply : List Byte} (hreply : stopFields l = reply) :
        exec .stopLoad s = .next (answered (s.setLoader l) rest tag .ok reply) :=
      congrArg Host.Outcome.next (runRequest_of_waits_reply (run := stopLoadRequest) (t := s.setLoader l) hw rfl rfl rfl
        (stopLoadRequest_of_stop h) rfl hreply)
    refine ⟨fun h => hstop ?running ?runningReply, fun h => hstop ?waiting ?waitingReply, fun h => hstop (l := s.loader) ?held
      ?heldReply, fun h => ?idle⟩
    case running => exact stop_of_running h
    case runningReply => rw [stopFields_eq]; dsimp only; rw [h]; rfl
    case waiting => unfold Loader.stop; rw [h]
    case waitingReply => exact stopFields_eq _
    case held => unfold Loader.stop; rw [h]
    case heldReply => rw [stopFields_eq, h]; rfl
    case idle =>
      have hnone : s.loader.stop = none := by unfold Loader.stop; rw [h]
      refine congrArg Host.Outcome.next (runRequest_of_waits_reply (run := stopLoadRequest) (t := s)
        (a := ⟨.state, stopFields s.loader⟩) hw rfl rfl rfl (stopLoadRequest_of_idle hnone) rfl ?_)
      dsimp only
      rw [stopFields_eq, h]
      rfl
  case resume =>
    have hresume {l : Loader} (h : ∀ p, resumeLoad (s.setPort p) = some ((s.setLoader l).setPort p)) :
        exec .resumeLoad s = .next (answered (s.setLoader l) rest tag .ok [byte l.state.code]) :=
      congrArg Host.Outcome.next (runRequest_of_waits_reply (run := resumeLoadRequest) (t := s.setLoader l) hw rfl rfl rfl
        (resumeLoadRequest_of_resume (h _)) rfl rfl)
    refine ⟨fun h => ?held, fun h => ?running, fun h => ?waiting, fun h => ?idle⟩
    case held =>
      intro l
      refine hresume fun p => ?_
      unfold resumeLoad
      rw [show (s.setPort p).loader.state = .held from h]
      dsimp only [l]
      rw [← failoverOwed_eq]
      rfl
    case running =>
      rw [hresume (l := { s.loader with stopPending := false }) fun p => by
        unfold resumeLoad; rw [show (s.setPort p).loader.state = .running from h]; rfl]
      dsimp only
      rw [h]
      rfl
    case waiting =>
      rw [hresume (l := s.loader) fun p => by
        unfold resumeLoad; rw [show (s.setPort p).loader.state = .waiting from h]; rfl, h]
      rfl
    case idle =>
      refine congrArg Host.Outcome.next (runRequest_of_waits_reply (run := resumeLoadRequest) (t := s)
        (a := ⟨.state, u8 s.loader.state.code⟩) hw rfl rfl rfl ?_ rfl ?_)
      · have hnone (p : ControlPort) : resumeLoad (s.setPort p) = none := by
          unfold resumeLoad; rw [show (s.setPort p).loader.state = .idle from h]
        unfold resumeLoadRequest
        rw [hnone]
        rfl
      · dsimp only
        rw [h]
        rfl
  case reset =>
    exact congrArg Host.Outcome.next (runRequest_of_waits_reply (run := resetLoaderRequest)
      (t := s.setLoader s.loader.resetByRequest) hw rfl rfl rfl rfl rfl (loaderCounts_eq s.loader))
  case quota =>
    intro renewed
    have hexec : exec .quotaRenewal s = .next (renewQuota { s with owed := { s.owed with quota := s.owed.quota - 1 } }) :=
      congrArg Host.Outcome.next (if_neg howed.ne')
    rw [hexec, renewQuota_eq]
    refine ⟨fun hstate hreason => ?released, fun hother => ?kept⟩
    case released =>
      rw [if_pos ((waitsFor_iff _ _).2 ⟨hstate, hreason⟩), ← failoverOwed_eq]
      rfl
    case kept =>
      rw [if_neg fun h => hother.elim (fun hs => hs ((waitsFor_iff _ _).1 h).1) fun hr => hr ((waitsFor_iff _ _).1 h).2]
      rfl

end Sys2Proof.Machine
end

section
/-! PROOF. The Dome Map's reads and its cursor (O9, O11, O12). -/

namespace Sys2Proof.Machine

open Sys2Proof Sys2Proof.Stating

set_option Elab.async false

/-! ### The node that a request addresses (R7, R23, R196) -/

theorem namedNode_eq (ring sector : Byte) : namedNode ring sector = resolveNode ring.toNat sector.toNat := rfl

theorem addressed_eq (s : State) (mode ring sector : Byte) :
    addressed s mode ring sector = addressedNode s mode.toNat ring.toNat sector.toNat :=
  if_congr (byte_eq_zero_iff mode) rfl rfl

theorem advancedUnless_eq (mode : Byte) (s : State) :
    (if mode.toNat = 0 then s else s.advance) = advancedUnless (mode = 0) s :=
  if_congr (byte_eq_zero_iff mode).symm rfl rfl

theorem advancedUnless_setPort (c : Prop) [Decidable c] (s : State) (p : ControlPort) :
    advancedUnless c (s.setPort p) = (advancedUnless c s).setPort p := by
  unfold advancedUnless
  split <;> rfl

theorem port_advancedUnless (c : Prop) [Decidable c] (s : State) : (advancedUnless c s).port = s.port := by
  unfold advancedUnless
  split <;> rfl

/-! ### READ NODE (R16) -/

/-- Eight flags or presence bits at most are one byte. -/
theorem packBits_byte {bs : List Bool} (h : (bs.length + 7) / 8 = 1) : packBits bs = [byte (flags bs)] := by
  rw [packBits_eq, h]
  rfl

theorem trimField_eq : trimField = fun t => signedBytes t.tu ++ signedBytes t.tv := rfl

theorem posField_eq : posField = fun q => twoBytes q.u ++ twoBytes q.v := rfl

theorem u16_eq_twoBytes : u16 = twoBytes := rfl

theorem pinChangeField_eq (k : PinChange) :
    pinChangeField k = match k with | .set v => 0 :: twoBytes v | .clear => [1] := by cases k <;> rfl

theorem claimEntry_eq (nextValid : Bool) (c : Claim) : claimEntry nextValid c = claimBytes nextValid c := by
  unfold claimEntry claimBytes
  rw [packBits_byte (by simp), packBits_byte (by simp), trimField_eq, posField_eq,
    u16_eq_twoBytes, funext pinChangeField_eq]
  simp only [optional_eq_ifPresent, u8_eq, List.append_assoc, List.cons_append, List.nil_append] <;> rfl

theorem nodeMarks_eq (a b c d e : Bool) : packBits [a, b, c, d, e] =
    [byte ((if a then 1 else 0) + (if b then 2 else 0) + (if c then 4 else 0) + (if d then 8 else 0)
      + (if e then 16 else 0))] := by
  revert a b c d e
  decide

theorem nodeAnswer_fields (s : State) (n : Nat) : (nodeAnswer s n).fields =
    [byte (n / 64), byte (n % 64)] ++ twoBytes n
      ++ [byte (match (s.node n).condition with | .unclaimed => 0 | .dark => 1 | .covered => 2),
          byte ((if (s.node n).openMark then 1 else 0) + (if (s.node n).groupMark then 2 else 0)
            + (if (s.node n).inFlight then 4 else 0) + (if (s.node n).dirty then 8 else 0)
            + (if (s.node n).nextValid then 16 else 0)),
          byte (match (s.node n).queued with | none => 0 | some .normal => 1 | some .urgent => 2)]
      ++ twoBytes s.dome.freeCount ++ [byte (s.node n).claims.length]
      ++ (s.node n).claims.flatMap (claimBytes (s.node n).nextValid) := by
  have hcondition : u8 (s.node n).condition.code
      = [byte (match (s.node n).condition with | .unclaimed => 0 | .dark => 1 | .covered => 2)] := by
    cases (s.node n).condition <;> rfl
  have hqueued : u8 (queuedCode (s.node n).queued)
      = [byte (match (s.node n).queued with | none => 0 | some .normal => 1 | some .urgent => 2)] := by
    rcases (s.node n).queued with _ | _ | _ <;> rfl
  have hclaims : counted (claimEntry (s.node n).nextValid) (s.node n).claims
      = [byte (s.node n).claims.length] ++ (s.node n).claims.flatMap (claimBytes (s.node n).nextValid) := by
    unfold counted
    rw [funext (claimEntry_eq (s.node n).nextValid), u8_eq]
  unfold nodeAnswer nodeField Answer.ok
  dsimp only
  rw [hcondition, hqueued, hclaims, nodeMarks_eq, u16_eq, u16_eq]
  simp only [u8_eq, ringOf, sectorOf, List.append_assoc, List.cons_append, List.nil_append]

theorem readNodeRequest_of_some {s : State} {code tag mode ring sector : Byte} {n : Nat}
    (hn : addressedNode s mode.toNat ring.toNat sector.toNat = some n) (p : ControlPort) :
    readNodeRequest { code := code, tag := tag, fields := [mode, ring, sector] } (s.setPort p)
      = ((advancedUnless (mode = 0) s).setPort p, nodeAnswer s n) := by
  have haddressed : addressedNode (s.setPort p) mode.toNat ring.toNat sector.toNat = some n := hn
  change (match addressedNode (s.setPort p) mode.toNat ring.toNat sector.toNat with
    | none => (if mode.toNat = 0 then s.setPort p else (s.setPort p).advance, Answer.bare .badNode)
    | some n => (if mode.toNat = 0 then s.setPort p else (s.setPort p).advance, nodeAnswer (s.setPort p) n)) = _
  rw [haddressed, advancedUnless_eq, advancedUnless_setPort]
  rfl

theorem readNodeRequest_of_none {s : State} {code tag mode ring sector : Byte}
    (hn : addressedNode s mode.toNat ring.toNat sector.toNat = none) (hmode : mode = 0) (p : ControlPort) :
    readNodeRequest { code := code, tag := tag, fields := [mode, ring, sector] } (s.setPort p)
      = (s.setPort p, .bare .badNode) := by
  have haddressed : addressedNode (s.setPort p) mode.toNat ring.toNat sector.toNat = none := hn
  change (match addressedNode (s.setPort p) mode.toNat ring.toNat sector.toNat with
    | none => (if mode.toNat = 0 then s.setPort p else (s.setPort p).advance, Answer.bare .badNode)
    | some n => (if mode.toNat = 0 then s.setPort p else (s.setPort p).advance, nodeAnswer (s.setPort p) n)) = _
  rw [haddressed, advancedUnless_eq, advancedUnless_setPort]
  exact congrArg (fun t => (State.setPort t p, Answer.bare .badNode)) (if_pos hmode)

/-- Settles O9: the addressed node's answer, and the advance after a cursor-addressed read. -/
theorem readNodeReportsNode : Obligations.ReadNodeReportsNode := by
  refine ⟨fun s tag mode ring sector rest hw => ⟨fun n hn => ?node, fun hnone => ?none⟩, nodeAnswer_fields⟩
  all_goals rw [addressed_eq] at *
  case node =>
    exact congrArg Host.Outcome.next (runRequest_of_waits_reply (run := readNodeRequest) hw rfl rfl rfl
      (readNodeRequest_of_some hn _) (port_advancedUnless _ s) rfl)
  case none =>
    have hmode : mode = 0 := by
      by_contra h
      rw [addressedNode, if_neg fun hz => h ((byte_eq_zero_iff mode).2 hz)] at hnone
      cases hnone
    refine congrArg Host.Outcome.next (runRequest_of_waits_reply (run := readNodeRequest) hw rfl rfl rfl
      (t := s) (readNodeRequest_of_none hnone hmode _) rfl rfl)

/-! ### READ POINT (R18, R19) -/

theorem counted_u16 (ns : List Nat) : counted u16 ns = [byte ns.length] ++ ns.flatMap twoBytes := rfl

theorem counted_shareEntry (es : List (Slot × Nat)) :
    counted shareEntry es = [byte es.length] ++ es.flatMap fun e => byte e.1.val :: twoBytes e.2 := rfl

theorem pointAnswer_below (s : State) (a : Nat) {e : Nat} (h : e < 16384) :
    pointAnswer s a e = .ok ([15] ++ twoBytes (placePoint a e).triangle ++ [3]
      ++ twoBytes (cornersOf (placePoint a e).triangle).1 ++ twoBytes (cornersOf (placePoint a e).triangle).2.1
      ++ twoBytes (cornersOf (placePoint a e).triangle).2.2 ++ twoBytes (placePoint a e).b0 ++ twoBytes (placePoint a e).b1
      ++ twoBytes (placePoint a e).b2 ++ [byte (s.pointShares (placePoint a e)).length]
      ++ (s.pointShares (placePoint a e)).flatMap fun e => byte e.1.val :: twoBytes e.2) := by
  refine (if_pos h).trans (congrArg Answer.ok ?_)
  rw [counted_u16, counted_shareEntry]
  simp only [u16_eq, List.flatMap_cons, List.flatMap_nil, List.append_assoc, List.append_nil]
  rfl

theorem pointAnswer_zenith (s : State) (a : Nat) {e : Nat} (h : e = 16384) :
    pointAnswer s a e = .ok ([0, 1] ++ twoBytes 2048 ++ [byte s.zenithShares.length]
      ++ s.zenithShares.flatMap fun e => byte e.1.val :: twoBytes e.2) := by
  refine ((if_neg (by omega)).trans (if_pos h)).trans (congrArg Answer.ok ?_)
  rw [counted_u16, counted_shareEntry]
  rfl

theorem pointAnswer_above (s : State) (a : Nat) {e : Nat} (h : 16384 < e) : pointAnswer s a e = .bare .badNode :=
  (if_neg (by omega)).trans (if_neg (by omega))

theorem pointShare_eq_some {s : State} {d : DomePlace} {p : Slot} {e : Slot × Nat} :
    s.pointShare d p = some e ↔ e.1 = p ∧ ∃ c0 c1 c2, s.liveClaim (cornersOf d.triangle).1 p = some c0 ∧
      s.liveClaim (cornersOf d.triangle).2.1 p = some c1 ∧ s.liveClaim (cornersOf d.triangle).2.2 p = some c2 ∧
      e.2 = (d.b0 * c0.liveWeight + d.b1 * c1.liveWeight + d.b2 * c2.liveWeight + 128) / 256 := by
  unfold State.pointShare blend
  obtain ⟨q, w⟩ := e
  dsimp only
  constructor
  · intro h
    split at h
    · next c0 c1 c2 h0 h1 h2 =>
      obtain ⟨rfl, rfl⟩ := Prod.mk.inj (Option.some.inj h)
      exact ⟨rfl, c0, c1, c2, h0, h1, h2, rfl⟩
    · cases h
  · rintro ⟨rfl, c0, c1, c2, h0, h1, h2, rfl⟩
    rw [h0, h1, h2]

theorem zenithShare_eq_some {s : State} {p : Slot} {e : Slot × Nat} :
    ((s.liveClaim Config.zenith p).map fun c => (p, c.liveWeight)) = some e ↔
      e.1 = p ∧ ∃ c, s.liveClaim 2048 p = some c ∧ e.2 = c.liveWeight := by
  obtain ⟨q, w⟩ := e
  rw [Option.map_eq_some_iff]
  constructor
  · rintro ⟨c, hc, e⟩
    obtain ⟨rfl, rfl⟩ := Prod.mk.inj e
    exact ⟨rfl, c, hc, rfl⟩
  · rintro ⟨rfl, c, hc, rfl⟩
    exact ⟨c, hc, rfl⟩

theorem mem_slots_filterMap {f : Slot → Option (Slot × Nat)} (hf : ∀ p e, f p = some e → e.1 = p) {e : Slot × Nat} :
    e ∈ slots.filterMap f ↔ f e.1 = some e := by
  rw [List.mem_filterMap]
  exact ⟨fun ⟨p, _, hp⟩ => (hf p e hp).symm ▸ hp, fun h => ⟨e.1, mem_slots _, h⟩⟩

theorem slots_filterMap_ascending {f : Slot → Option (Slot × Nat)} (hf : ∀ p e, f p = some e → e.1 = p) :
    (slots.filterMap f).Pairwise fun a b => a.1 < b.1 := by
  have hslots : slots.Pairwise (· < ·) := by decide
  rw [List.pairwise_filterMap]
  exact hslots.imp fun {p q} hlt e he e' he' => by rw [hf p e he, hf q e' he']; exact hlt

/-- Settles O11: the answer by the elevation, and the shares as searches of the slots. -/
theorem readPointReportsShares : Obligations.ReadPointReportsShares := by
  refine ⟨fun s tag a0 a1 e0 e1 rest hw => ?reads, fun s d p w => ?shares, fun s p w => ?zenith, fun s d => ?ascending⟩
  case reads =>
    have hexec {b : Answer} (h : pointAnswer s (word a0 a1) (word e0 e1) = b) :
        exec .readPoint s = .next (answered s rest tag b.result b.fields) :=
      congrArg Host.Outcome.next (runRequest_of_waits_same (run := readPointRequest) hw rfl rfl rfl (h ▸ rfl))
    refine ⟨fun h => hexec (pointAnswer_below s _ h), fun h => hexec (pointAnswer_zenith s _ h),
      fun h => hexec (pointAnswer_above s _ h)⟩
  case shares =>
    unfold State.pointShares
    rw [mem_slots_filterMap fun p e h => (pointShare_eq_some.1 h).1, pointShare_eq_some]
    exact and_iff_right rfl
  case zenith =>
    unfold State.zenithShares
    rw [mem_slots_filterMap fun p e h => (zenithShare_eq_some.1 h).1, zenithShare_eq_some]
    exact and_iff_right rfl
  case ascending =>
    exact ⟨slots_filterMap_ascending fun p e h => (pointShare_eq_some.1 h).1,
      slots_filterMap_ascending fun p e h => (zenithShare_eq_some.1 h).1⟩

/-! ### The Map Cursor (R20, R21) -/

theorem resolveNode_lattice {ring : Nat} (h : ring < 32) (sector : Nat) :
    resolveNode ring sector = some (ring * 64 + sector % 64) := if_pos h

theorem placeCursorRequest_of_some {r : Request} {s : State} {n : Nat}
    (h : resolveNode (byteAt r.fields 0) (byteAt r.fields 1) = some n) :
    placeCursorRequest r s = (s.placeCursor n, .ok (nodeField n)) := by unfold placeCursorRequest; rw [h]

theorem placeCursorRequest_of_none {r : Request} {s : State}
    (h : resolveNode (byteAt r.fields 0) (byteAt r.fields 1) = none) :
    placeCursorRequest r s = (s, .bare .badNode) := by unfold placeCursorRequest; rw [h]

theorem walkOf_code_of_mem {d k : Nat} {walk : Walk} (h : (k, walk) ∈ [(0, Walk.east), (1, .west), (2, .north), (3, .south)])
    (hd : d % 4 = k) : walkOf d = walk ∧ walk.code = k := by
  have hwalk : walkOf d = walkOf k := by unfold walkOf; rw [hd, show k % 4 = k by omega]
  rw [hwalk]
  simp only [List.mem_cons, Prod.mk.injEq, List.not_mem_nil, or_false] at h
  rcases h with ⟨rfl, rfl⟩ | ⟨rfl, rfl⟩ | ⟨rfl, rfl⟩ | ⟨rfl, rfl⟩ <;> exact ⟨rfl, rfl⟩

/-- Settles O12: PLACE CURSOR by the ring, SET WALK by the direction. -/
theorem cursorRequestsSetCursorAndWalk : Obligations.CursorRequestsSetCursorAndWalk := by
  refine ⟨fun s tag ring sector rest hw => ⟨fun h => ?lattice, fun h => ?zenith, fun h => ?refused⟩,
    fun s tag d rest hw k walk hk hd => ?walk⟩
  case lattice =>
    have hsec : sector.toNat % 64 < 64 := Nat.mod_lt _ (by decide)
    have hplaced : s.placeCursor (ring.toNat * 64 + sector.toNat % 64) = { s with dome := { s.dome with
        cursor := ring.toNat * 64 + sector.toNat % 64, remembered := sector.toNat % 64 } } := by
      unfold State.placeCursor
      rw [if_pos (lattice_lt_zenith (Nat.le_of_lt_succ h) hsec), sectorOf_lattice _ hsec]
    have hfield : nodeField (ring.toNat * 64 + sector.toNat % 64) = [ring, byte (sector.toNat % 64)] := by
      unfold nodeField
      rw [ringOf_lattice _ hsec, sectorOf_lattice _ hsec, u8_eq, u8_eq, byte_toNat]
      rfl
    rw [← hplaced]
    exact congrArg Host.Outcome.next (runRequest_of_waits_reply (run := placeCursorRequest)
      (t := s.placeCursor (ring.toNat * 64 + sector.toNat % 64)) hw rfl rfl rfl
      (placeCursorRequest_of_some (resolveNode_lattice h _)) rfl hfield)
  case zenith =>
    have hn : resolveNode ring.toNat sector.toNat = some 2048 := (if_neg (by omega)).trans (if_pos h)
    exact congrArg Host.Outcome.next (runRequest_of_waits_reply (run := placeCursorRequest)
      (t := s.placeCursor 2048) hw rfl rfl rfl (placeCursorRequest_of_some hn) rfl rfl)
  case refused =>
    have hnone : resolveNode ring.toNat sector.toNat = none := (if_neg (by omega)).trans (if_neg (by omega))
    exact congrArg Host.Outcome.next (runRequest_of_waits_same (run := placeCursorRequest) hw rfl rfl rfl
      (placeCursorRequest_of_none hnone))
  case walk =>
    obtain ⟨hwalk, hcode⟩ := walkOf_code_of_mem hk hd
    subst hwalk
    refine congrArg Host.Outcome.next (runRequest_of_waits_reply (run := setWalkRequest) hw rfl rfl rfl
      (t := { s with dome := { s.dome with walk := walkOf d.toNat } }) (a := .ok (u8 (walkOf d.toNat).code)) rfl rfl ?_)
    rw [hcode]
    rfl

end Sys2Proof.Machine
end

section
/-! PROOF. The raster frame start and the pixels of a frame (O33, O34). -/

namespace Sys2Proof.Machine

open Sys2Proof Sys2Proof.Stating

set_option Elab.async false

/-! ### The frame view (R107) -/

theorem get_of_no_key {α : Type} (d : α) {l : List (Nat × α)} {k : Nat} (h : ∀ e ∈ l, e.1 ≠ k) : Sparse.get d l k = d := by
  induction l with
  | nil => rfl
  | cons e l ih =>
    rw [Sparse.get, if_neg (h e List.mem_cons_self), ih fun f hf => h f (List.mem_cons_of_mem e hf)]

theorem key_of_mem_viewNodes {l : List (Nat × Node)} {e : Nat × List ClaimView} (h : e ∈ viewNodes l) :
    ∃ f ∈ l, f.1 = e.1 := by
  unfold viewNodes at h
  obtain ⟨f, hf, he⟩ := List.mem_filterMap.1 h
  split at he
  · cases he
  · exact ⟨f, hf, congrArg Prod.fst (Option.some.inj he)⟩

theorem get_viewNodes {l : List (Nat × Node)} (h : l.Pairwise fun e f => e.1 < f.1) (n : Nat) :
    Sparse.get [] (viewNodes l) n = (Sparse.get Node.initial l n).claims.map Claim.view := by
  induction l with
  | nil => rfl
  | cons e l ih =>
    obtain ⟨hhead, htail⟩ := List.pairwise_cons.1 h
    have hrest : viewNodes (e :: l) = if e.2.claims.isEmpty then viewNodes l
        else (e.1, e.2.claims.map Claim.view) :: viewNodes l := by
      unfold viewNodes
      rw [List.filterMap_cons]
      cases e.2.claims.isEmpty <;> rfl
    rw [hrest, Sparse.get]
    by_cases hn : e.1 = n
    · rw [if_pos hn]
      split
      · next hempty =>
        rw [List.isEmpty_iff.1 hempty]
        refine get_of_no_key _ fun f hf => ?_
        obtain ⟨g, hg, hkey⟩ := key_of_mem_viewNodes hf
        rw [← hkey, ← hn]
        exact (hhead g hg).ne'
      · rw [Sparse.get, if_pos hn]
    · rw [if_neg hn, ← ih htail]
      split
      · rfl
      · rw [Sparse.get, if_neg hn]

/-! ### The raster frame start (R106, R108) -/

theorem streams_startFrame (s : State) (p : Slot) :
    (startFrame s).raster.streams.get p = if (s.chan p).lock = .locked ∧ (s.proj p).state ≠ .vacant then some 0 else none := by
  have hdrawn : s.drawn p = true ↔ (s.chan p).lock = .locked ∧ (s.proj p).state ≠ .vacant := by
    simp [State.drawn]
  unfold startFrame
  simp only [Vector.get_eq_getElem, Vector.getElem_ofFn, hdrawn]

theorem links_startFrame (s : State) (p : Slot) : (startFrame s).raster.links.get p = none := by
  unfold startFrame
  simp [Vector.get_eq_getElem]

theorem slots_frameView (s : State) (p : Slot) : s.frameView.slots.get p = (s.proj p).slotView := by
  simp [State.frameView, State.proj, Vector.get_eq_getElem]

/-- Settles O33: the start is one equation, and the view is read slot by slot and node by node. -/
theorem rasterFrameStartTakesView : Obligations.RasterFrameStartTakesView := by
  intro s hraster hswap hfade hslew hnodes
  have hended : s.owed.blankingEnded = true := by
    unfold Owed.blankingEnded
    rw [hraster, hswap, hfade, hslew]
    rfl
  obtain ⟨⟨-, hsorted⟩, -⟩ : ((∀ k, none = some k → ∀ e ∈ s.dome.nodes, k < e.1) ∧
      s.dome.nodes.Pairwise fun e f => e.1 < f.1) ∧ _ := by
    rw [State.NodesCanonical, Sparse.wf, Bool.and_eq_true, Sparse.rising_iff] at hnodes
    exact hnodes
  refine ⟨startFrame s, s.frameView, congrArg Host.Outcome.next (if_pos hended), rfl, rfl, rfl, fun p => ?slots,
    fun n => get_viewNodes hsorted n, fun p => ⟨links_startFrame s p, streams_startFrame s p⟩⟩
  rw [slots_frameView]
  rfl

/-! ### A pixel is sent (R109, R112, R119) -/

theorem sendPixel_of_stream {s : State} {p : Slot} {f : RasterFrame} {k : Nat} (hf : s.raster.frame = some f)
    (hk : s.raster.streams.get p = some k) :
    sendPixel p s = if k < (f.slots.get p).width * (f.slots.get p).height then
      placePixel p k (f.pixel p (k % (f.slots.get p).width) (k / (f.slots.get p).width)) s else s := by
  unfold sendPixel
  rw [hf, hk]

theorem find_eq_none {f : RasterFrame} {p : Slot} {x y : Nat} (h : ∀ i < 4032, f.hit p (pixelCentre x y) i = none) :
    f.find p x y = none :=
  List.findSome?_eq_none_iff.2 fun i hi => h i (List.mem_range.1 hi)

theorem range_eq_append_cons {i n : Nat} (h : i < n) :
    List.range n = List.range i ++ i :: List.range' (i + 1) (n - (i + 1)) := by
  rw [← List.range'_succ, List.range_eq_range', List.range_eq_range']
  have happend := List.range'_append (s := 0) (m := i) (n := n - (i + 1) + 1) (step := 1)
  rw [Nat.zero_add, Nat.one_mul, show i + (n - (i + 1) + 1) = n by omega] at happend
  exact happend.symm

/-- The first triangle that holds the centre is the one found (R112). -/
theorem find_eq_some {f : RasterFrame} {p : Slot} {x y i : Nat} {e : Hit × Nat} (hi : i < 4032)
    (h : f.hit p (pixelCentre x y) i = some e) (hfirst : ∀ j < i, f.hit p (pixelCentre x y) j = none) :
    f.find p x y = some e := by
  unfold RasterFrame.find triangles
  rw [range_eq_append_cons hi, List.findSome?_append, List.findSome?_eq_none_iff.2 fun j hj => hfirst j (List.mem_range.1 hj),
    List.findSome?_cons, h]
  rfl

theorem pixel_of_find_none {f : RasterFrame} {p : Slot} {x y : Nat} (h : f.find p x y = none) :
    f.pixel p x y = { x := x, y := y, red := 0, green := 0, blue := 0 } := by unfold RasterFrame.pixel; rw [h]

theorem pixel_of_find_some {f : RasterFrame} {p : Slot} {x y : Nat} {h : Hit} {w : Nat} (hfind : f.find p x y = some (h, w)) :
    f.pixel p x y = {
      x := x, y := y
      red := drive (sampleAt f.content h.domePoint.1 h.domePoint.2).red w (f.slots.get p).gainLive
      green := drive (sampleAt f.content h.domePoint.1 h.domePoint.2).green w (f.slots.get p).gainLive
      blue := drive (sampleAt f.content h.domePoint.1 h.domePoint.2).blue w (f.slots.get p).gainLive } := by
  unfold RasterFrame.pixel
  rw [hfind]

/-! ### The corners of a triangle (R2) -/

theorem cornersOf_even {r sec : Nat} (hsec : sec < 64) (hr : r ≤ 30) :
    cornersOf (2 * (r * 64 + sec)) = (r * 64 + sec, r * 64 + (sec + 1) % 64, (r + 1) * 64 + (sec + 1) % 64) := by
  unfold cornersOf nodeIndex
  rw [if_pos (by omega)]
  dsimp only
  rw [if_pos (by omega), show 2 * (r * 64 + sec) / 128 = r by omega, show 2 * (r * 64 + sec) / 2 % 64 = sec by omega]

theorem cornersOf_odd {r sec : Nat} (hsec : sec < 64) (hr : r ≤ 30) :
    cornersOf (2 * (r * 64 + sec) + 1) = (r * 64 + sec, (r + 1) * 64 + (sec + 1) % 64, (r + 1) * 64 + sec) := by
  unfold cornersOf nodeIndex
  rw [if_pos (by omega)]
  dsimp only
  rw [if_neg (by omega), show (2 * (r * 64 + sec) + 1) / 128 = r by omega,
    show (2 * (r * 64 + sec) + 1) / 2 % 64 = sec by omega]

theorem cornersOf_cap (sec : Nat) : cornersOf (3968 + sec) = (31 * 64 + sec, 31 * 64 + (sec + 1) % 64, 2048) := by
  unfold cornersOf nodeIndex
  rw [if_neg (by omega)]
  dsimp only
  rw [Nat.add_sub_cancel_left]
  rfl

/-! ### A triangle that holds a centre (R110, R111) -/

theorem corner_eq_some {f : RasterFrame} {p : Slot} {n : Nat} {q : Place × Nat} :
    f.corner p n = some q ↔ ∃ c : ClaimView, (Sparse.get [] f.nodes n).find? (fun e => e.projector == p) = some c ∧
      c.pendingNew = false ∧ c.place = some q.1 ∧ c.weight = q.2 := by
  unfold RasterFrame.corner
  obtain ⟨place, w⟩ := q
  constructor
  · intro h
    split at h
    · next c hc =>
      split at h
      · cases h
      · next hnew =>
        obtain ⟨r, hr, e⟩ := Option.map_eq_some_iff.1 h
        obtain ⟨rfl, rfl⟩ := Prod.mk.inj e
        exact ⟨c, hc, Bool.not_eq_true _ ▸ hnew, hr, rfl⟩
    · cases h
  · rintro ⟨c, hc, hnew, hplace, hw⟩
    rw [hc]
    dsimp only
    rw [hnew, if_neg Bool.false_ne_true, hplace, hw]
    rfl

/-- The coordinates of a centre in a triangle that holds it (R111). -/
theorem locate_eq_some {c p0 p1 p2 : Place} {b : Nat × Nat × Nat} {cross turn b1 b2 : Int}
    (hcross : (p1.x - p0.x) * (p2.y - p0.y) - (p2.x - p0.x) * (p1.y - p0.y) = cross)
    (hturn : (if cross < 0 then -1 else 1) = turn)
    (hb1 : Int.fdiv (512 * (turn * ((c.x - p0.x) * (p2.y - p0.y) - (p2.x - p0.x) * (c.y - p0.y))) + turn * cross - 1)
      (2 * (turn * cross)) = b1)
    (hb2 : Int.fdiv (512 * (turn * ((p1.x - p0.x) * (c.y - p0.y) - (c.x - p0.x) * (p1.y - p0.y))) + turn * cross - 1)
      (2 * (turn * cross)) = b2) :
    locate c p0 p1 p2 = some b ↔ cross ≠ 0 ∧ 0 ≤ 256 - b1 - b2 ∧ 0 ≤ b1 ∧ 0 ≤ b2 ∧
      b = ((256 - b1 - b2).toNat, b1.toNat, b2.toNat) := by
  have hpos : 0 ≤ 2 * (turn * cross) := by
    rw [← hturn]
    split <;> omega
  rw [Int.fdiv_eq_ediv_of_nonneg _ hpos] at hb1 hb2
  unfold locate
  dsimp only
  rw [hcross]
  by_cases hzero : cross = 0
  · rw [if_pos hzero]
    exact ⟨nofun, fun h => absurd hzero h.1⟩
  · rw [if_neg hzero, hturn, hb1, hb2, and_iff_right hzero]
    by_cases hin : 0 ≤ 256 - b1 - b2 ∧ 0 ≤ b1 ∧ 0 ≤ b2
    · rw [if_pos hin, Option.some.injEq]
      exact ⟨fun h => ⟨hin.1, hin.2.1, hin.2.2, h.symm⟩, fun h => h.2.2.2.symm⟩
    · rw [if_neg hin]
      exact ⟨nofun, fun ⟨h0, h1, h2, _⟩ => absurd ⟨h0, h1, h2⟩ hin⟩

theorem hit_eq_some {f : RasterFrame} {p : Slot} {centre : Place} {i : Nat} {h : Hit} {w : Nat} :
    f.hit p centre i = some (h, w) ↔ ∃ q0 q1 q2 b, f.corner p (cornersOf i).1 = some q0 ∧
      f.corner p (cornersOf i).2.1 = some q1 ∧ f.corner p (cornersOf i).2.2 = some q2 ∧
      locate centre q0.1 q1.1 q2.1 = some b ∧ h = { triangle := i, b0 := b.1, b1 := b.2.1, b2 := b.2.2 } ∧
      w = blend b.1 b.2.1 b.2.2 q0.2 q1.2 q2.2 := by
  unfold RasterFrame.hit
  dsimp only
  constructor
  · intro hhit
    split at hhit
    · next q0 q1 q2 h0 h1 h2 =>
      obtain ⟨b, hb, e⟩ := Option.map_eq_some_iff.1 hhit
      obtain ⟨rfl, rfl⟩ := Prod.mk.inj e
      exact ⟨q0, q1, q2, b, h0, h1, h2, hb, rfl, rfl⟩
    · cases hhit
  · rintro ⟨q0, q1, q2, b, h0, h1, h2, hb, rfl, rfl⟩
    rw [h0, h1, h2]
    dsimp only
    rw [hb]
    rfl

/-! ### The dome point (R114, R115) -/

theorem domePoint_lattice {h : Hit} (hlattice : h.triangle < 3968) {seam : Prop} [Decidable seam]
    (hseam : seam ↔ (cornersOf h.triangle).1 % 64 = 63 ∨ (cornersOf h.triangle).2.1 % 64 = 63 ∨
      (cornersOf h.triangle).2.2 % 64 = 63) {az el : Nat → Nat}
    (haz : ∀ n, az n = if seam ∧ n % 64 = 0 then 65536 else n % 64 * 1024) (hel : ∀ n, el n = n / 64 * 512) :
    h.domePoint = ((h.b0 * az (cornersOf h.triangle).1 + h.b1 * az (cornersOf h.triangle).2.1
        + h.b2 * az (cornersOf h.triangle).2.2 + 128) / 256 % 65536,
      (h.b0 * el (cornersOf h.triangle).1 + h.b1 * el (cornersOf h.triangle).2.1
        + h.b2 * el (cornersOf h.triangle).2.2 + 128) / 256) := by
  have hwrapped : (sectorOf (cornersOf h.triangle).1 == 63 || sectorOf (cornersOf h.triangle).2.1 == 63
      || sectorOf (cornersOf h.triangle).2.2 == 63) = decide seam := by
    rw [Bool.eq_iff_iff, decide_eq_true_iff, hseam]
    simp only [Bool.or_eq_true, beq_iff_eq, or_assoc, sectorOf]
  have hazimuth (n : Nat) : cornerAzimuth (decide seam) n = az n := by
    unfold cornerAzimuth azimuthOf sectorOf
    rw [haz]
    refine if_congr ?_ rfl rfl
    simp
  have helevation (n : Nat) : elevationOf n = el n := (hel n).symm
  unfold Hit.domePoint
  dsimp only
  rw [if_pos hlattice, hwrapped]
  simp only [hazimuth, helevation]

theorem domePoint_cap {h : Hit} {sec : Nat} (hsec : sec < 64) (hcap : h.triangle = 3968 + sec) :
    h.domePoint = (if h.b0 + h.b1 = 0 then 1024 * sec else (1024 * sec + h.b1 * 1024 / (h.b0 + h.b1)) % 65536,
      (h.b0 * 15872 + h.b1 * 15872 + h.b2 * 16384 + 128) / 256) := by
  have h0 : elevationOf (31 * 64 + sec) = 15872 := by unfold elevationOf ringOf; omega
  have h1 : elevationOf (31 * 64 + (sec + 1) % 64) = 15872 := by unfold elevationOf ringOf; omega
  unfold Hit.domePoint
  dsimp only
  rw [if_neg (by omega), hcap, cornersOf_cap, Nat.add_sub_cancel_left]
  dsimp only
  rw [h0, h1]
  rfl

/-- Settles O34: the pixel by the first triangle found, the triangle by its corners and the coordinates of the centre, the
dome point by the triangle's kind. -/
theorem pixelIsSentInRowOrder : Obligations.PixelIsSentInRowOrder := by
  refine ⟨fun s p f k hf hk => ?sends, fun r sec hsec => ⟨fun hr => ⟨cornersOf_even hsec hr, cornersOf_odd hsec hr⟩,
    cornersOf_cap sec⟩, fun f p centre i h weight => ?hits, fun h => ⟨fun hlattice => ?lattice,
    fun sec hsec hcap => domePoint_cap hsec hcap⟩, fun azimuth elevation => ⟨rfl, fun content => rfl⟩⟩
  case sends =>
    intro w centre sent
    have hexec : exec (.sendPixel p) s = .next (sendPixel p s) := rfl
    rw [hexec, sendPixel_of_stream hf hk]
    refine ⟨fun hmore => ?more, fun hdone => ?done⟩
    case done => rw [if_neg (Nat.not_lt.2 hdone)]
    rw [if_pos hmore]
    refine ⟨fun hnone => ?black, fun i hi h weight hhit hfirst => ?drawn⟩
    case black => rw [pixel_of_find_none (find_eq_none hnone)]; rfl
    case drawn => intro c out; rw [pixel_of_find_some (find_eq_some hi hhit hfirst)]; rfl
  case hits =>
    rw [hit_eq_some]
    constructor
    · rintro ⟨⟨p0, w0⟩, ⟨p1, w1⟩, ⟨p2, w2⟩, b, h0, h1, h2, hb, rfl, rfl⟩
      obtain ⟨c0, hc0, hn0, hp0, rfl⟩ := corner_eq_some.1 h0
      obtain ⟨c1, hc1, hn1, hp1, rfl⟩ := corner_eq_some.1 h1
      obtain ⟨c2, hc2, hn2, hp2, rfl⟩ := corner_eq_some.1 h2
      obtain ⟨hcross, hb0, hb1, hb2, rfl⟩ := (locate_eq_some rfl rfl rfl rfl).1 hb
      exact ⟨c0, c1, c2, p0, p1, p2, ⟨⟨hc0, hn0, hp0⟩, ⟨hc1, hn1, hp1⟩, hc2, hn2, hp2⟩, hcross, hb0, hb1, hb2, rfl, rfl⟩
    · rintro ⟨c0, c1, c2, p0, p1, p2, ⟨⟨hc0, hn0, hp0⟩, ⟨hc1, hn1, hp1⟩, hc2, hn2, hp2⟩, hcross, hb0, hb1, hb2, rfl, rfl⟩
      exact ⟨(p0, c0.weight), (p1, c1.weight), (p2, c2.weight), _, corner_eq_some.2 ⟨c0, hc0, hn0, hp0, rfl⟩,
        corner_eq_some.2 ⟨c1, hc1, hn1, hp1, rfl⟩, corner_eq_some.2 ⟨c2, hc2, hn2, hp2, rfl⟩,
        (locate_eq_some rfl rfl rfl rfl).2 ⟨hcross, hb0, hb1, hb2, rfl⟩, rfl, rfl⟩
  case lattice =>
    intro k seam az el
    exact domePoint_lattice hlattice Iff.rfl (fun n => rfl) fun n => rfl

end Sys2Proof.Machine
end

section
/-! PROOF. The frame of an operation as an equation, the events that it raises, and the recomputation of the gain targets
(O31, O32). -/

namespace Sys2Proof.Machine

open Sys2Proof Sys2Proof.Stating

set_option Elab.async false

/-! ### Frames as equations -/

/-- The state with the fields of a list taken from another state. -/
def State.taking (s : State) (fs : List Field) (t : State) : State where
  pending := if fs.contains .pending then t.pending else s.pending
  dome := if fs.contains .dome then t.dome else s.dome
  solver := if fs.contains .solver then t.solver else s.solver
  edit := if fs.contains .edit then t.edit else s.edit
  projectors := if fs.contains .projectors then t.projectors else s.projectors
  gain := if fs.contains .gain then t.gain else s.gain
  raster := if fs.contains .raster then t.raster else s.raster
  content := if fs.contains .content then t.content else s.content
  channels := if fs.contains .channels then t.channels else s.channels
  timer := if fs.contains .timer then t.timer else s.timer
  owed := if fs.contains .owed then t.owed else s.owed
  align := if fs.contains .align then t.align else s.align
  loader := if fs.contains .loader then t.loader else s.loader
  port := if fs.contains .port then t.port else s.port
  attention := if fs.contains .attention then t.attention else s.attention

theorem ite_contains_eq {α : Type} {fs : List Field} {f : Field} {a b : α} (h : fs.contains f = false → a = b) :
    (if fs.contains f then a else b) = a := by
  split
  · rfl
  · next hf => exact (h (Bool.eq_false_of_not_eq_true hf)).symm

/-- A step that touches listed fields alone leaves the others as they stood. -/
theorem Touches.frame {fs : List Field} {s t : State} (h : Touches fs s t) : t = s.taking fs t := by
  unfold State.taking
  rw [ite_contains_eq fun hf => h.pending hf, ite_contains_eq fun hf => h.dome hf,
    ite_contains_eq fun hf => h.solver hf, ite_contains_eq fun hf => h.edit hf,
    ite_contains_eq fun hf => h.projectors hf, ite_contains_eq fun hf => h.gain hf,
    ite_contains_eq fun hf => h.raster hf, ite_contains_eq fun hf => h.content hf,
    ite_contains_eq fun hf => h.channels hf, ite_contains_eq fun hf => h.timer hf, ite_contains_eq fun hf => h.owed hf,
    ite_contains_eq fun hf => h.align hf, ite_contains_eq fun hf => h.loader hf, ite_contains_eq fun hf => h.port hf,
    ite_contains_eq fun hf => h.attention hf]

/-! ### Raisings (R192) -/

/-- Every class of the second state holds what raising these events, in this order, makes of it. -/
def Raises (s t : State) (es : List Event) : Prop :=
  ∀ k, t.eventRecord k = (es.filter fun e => e.cls = k).foldl afterRaising (s.eventRecord k)

namespace Raises

variable {s t u : State} {es fs : List Event}

theorem of_attention (h : t.attention = s.attention) : Raises s t [] := fun k => by
  rw [State.eventRecord, h]; rfl

theorem refl (s : State) : Raises s s [] := of_attention rfl

theorem trans (h : Raises s t es) (h' : Raises t u fs) : Raises s u (es ++ fs) := fun k => by
  rw [h' k, h k, List.filter_append, List.foldl_append]

theorem congr_left {s' : State} (h : Raises s t es) (hs : s'.attention = s.attention) : Raises s' t es :=
  (of_attention hs.symm).trans h

theorem congr_right {t' : State} (h : Raises s t es) (ht : t'.attention = t.attention) : Raises s t' es := by
  simpa using h.trans (of_attention ht)

theorem raise (s : State) (e : Event) : Raises s (s.raise e) [e] := fun k => by
  by_cases hk : k = e.cls
  · subst hk
    rw [eventRecord_raise_self, List.filter_cons_of_pos (by simp)]
    rfl
  · rw [eventRecord_raise_other s hk, List.filter_cons_of_neg (by simpa using Ne.symm hk)]
    rfl

theorem thenRaise (h : Raises s t es) (e : Event) : Raises s (t.raise e) (es ++ [e]) := h.trans (raise t e)

/-- A fold of steps raises what its steps raise, one after the other. -/
theorem foldl {α : Type} {g : State → α → State} {es : α → List Event} (h : ∀ t a, Raises t (g t a) (es a)) (l : List α)
    (s : State) : Raises s (l.foldl g s) (l.flatMap es) := by
  induction l generalizing s with
  | nil => exact refl s
  | cons a l ih => exact (h s a).trans (ih (g s a))

/-- A class that none of the events has stands. -/
theorem stands (h : Raises s t es) {k : ClassNumber} (hk : ∀ e ∈ es, e.cls ≠ k) : t.eventRecord k = s.eventRecord k := by
  rw [h k, List.filter_eq_nil_iff.2 fun e he => by simpa using hk e he]
  rfl

/-- The raisings of the classes other than GAIN_LIMIT. -/
theorem raised (h : Raises s t es) (hfs : es.filter (fun e => e.cls ≠ 8) = fs) : Raised s t fs := fun k hk => by
  rw [h k, ← hfs, List.filter_filter]
  congr 1
  refine List.filter_congr fun e _ => ?_
  by_cases he : e.cls = k
  · simp [he, hk]
  · simp [he]

end Raises

/-! ### The reference luminance (R98) -/

theorem mem_contributingLuminances {s : State} {l : Nat} :
    l ∈ s.projectors.toList.filterMap (fun r => if r.state.contributing then r.luminance else none) ↔
      ∃ p, (s.proj p).state.contributing = true ∧ (s.proj p).luminance = some l := by
  rw [projectors_toList, List.mem_filterMap]
  constructor
  · rintro ⟨r, hr, he⟩
    obtain ⟨p, -, rfl⟩ := List.mem_map.1 hr
    split at he
    · next hc => exact ⟨p, hc, he⟩
    · cases he
  · rintro ⟨p, hc, hl⟩
    exact ⟨s.proj p, List.mem_map.2 ⟨p, List.mem_finRange p, rfl⟩, by rw [if_pos hc, hl]⟩

theorem reference_eq_some_iff (s : State) (l : Nat) : s.reference = some l ↔ IsReference s l := by
  unfold State.reference IsReference
  rw [List.min?_eq_some_iff, mem_contributingLuminances]
  exact and_congr_right fun _ => ⟨fun h p k hc hk => h k (mem_contributingLuminances.2 ⟨p, hc, hk⟩),
    fun h k hk => by obtain ⟨p, hc, hl⟩ := mem_contributingLuminances.1 hk; exact h p k hc hl⟩

theorem reference_eq_none_iff (s : State) :
    s.reference = none ↔ ∀ p, (s.proj p).state.contributing = true → (s.proj p).luminance = none := by
  unfold State.reference
  rw [List.min?_eq_none_iff, List.eq_nil_iff_forall_not_mem]
  constructor
  · intro h p hc
    by_contra hl
    obtain ⟨l, hl⟩ := Option.ne_none_iff_exists'.1 hl
    exact h l (mem_contributingLuminances.2 ⟨p, hc, hl⟩)
  · intro h l hl
    obtain ⟨p, hc, hl⟩ := mem_contributingLuminances.1 hl
    rw [h p hc] at hl
    cases hl

/-- The reference follows from the states and the luminances alone. -/
theorem reference_congr {s t : State}
    (h : ∀ p, (t.proj p).state.contributing = (s.proj p).state.contributing ∧ (t.proj p).luminance = (s.proj p).luminance) :
    t.reference = s.reference := by
  unfold State.reference
  rw [projectors_toList, projectors_toList, List.filterMap_map, List.filterMap_map]
  refine congrArg List.min? (List.filterMap_congr fun p _ => ?_)
  obtain ⟨hc, hl⟩ := h p
  simp only [Function.comp_apply, hc, hl]

/-! ### A recomputation (R98, R99) -/

theorem gain_mapProj (s : State) (f : Projector → Projector) : (s.mapProj f).gain = s.gain := rfl

theorem projectors_raiseLimits (ps : List Slot) (s : State) : (raiseLimits ps s).projectors = s.projectors :=
  (raiseLimits_touches ps s).projectors

/-- The events of a recomputation (R99). -/
def limits (s : State) : List Event := ((List.finRange 16).filter fun p => (s.proj p).limited).map .gainLimit

theorem slots_eq_finRange : slots = List.finRange 16 := by decide

theorem raiseLimits_raises (ps : List Slot) (s : State) :
    Raises s (raiseLimits ps s) ((ps.filter fun p => (s.proj p).limited).map .gainLimit) := by
  induction ps generalizing s with
  | nil => exact Raises.refl s
  | cons p ps ih =>
    have hcons : raiseLimits (p :: ps) s = raiseLimits ps (if (s.proj p).limited then s.raise (.gainLimit p) else s) := rfl
    rw [hcons, List.filter_cons]
    split
    · next hlimited => exact (Raises.raise s (.gainLimit p)).trans (ih (s.raise (.gainLimit p)))
    · exact ih s

theorem recomputeGains_raises (s : State) : Raises s (recomputeGains s) (limits (recomputeGains s)) := by
  have h := raiseLimits_raises slots (s.mapProj fun r => r.retargeted s.gain.floor s.reference)
  have hlimits : limits (recomputeGains s)
      = (slots.filter fun p => ((s.mapProj fun r => r.retargeted s.gain.floor s.reference).proj p).limited).map .gainLimit := by
    unfold limits
    rw [slots_eq_finRange]
    refine congrArg (List.map Event.gainLimit) (List.filter_congr fun p _ => ?_)
    rw [proj_recomputeGains, proj_mapProj]
  rw [hlimits]
  exact h.congr_left rfl

/-- A record is the one that a recomputation leaves. -/
theorem sameButForTarget_iff (r q : Projector) :
    SameButForTarget r q ↔ ∃ t l, q = { r with gainTarget := t, limited := l } :=
  ⟨fun h => ⟨_, _, h⟩, fun ⟨t, l, h⟩ => by subst h; rfl⟩

theorem SameButForTarget.refl (r : Projector) : SameButForTarget r r := rfl

theorem SameButForTarget.retargeted (r : Projector) (floor : Nat) (reference : Option Nat) :
    SameButForTarget r (r.retargeted floor reference) := rfl

theorem SameButForTarget.trans {a b c : Projector} (h : SameButForTarget a b) (h' : SameButForTarget b c) :
    SameButForTarget a c := by
  obtain ⟨t, l, rfl⟩ := (sameButForTarget_iff _ _).1 h
  obtain ⟨t', l', rfl⟩ := (sameButForTarget_iff _ _).1 h'
  rfl

theorem sameButForTarget_recomputeGains (s : State) (p : Slot) : SameButForTarget (s.proj p) ((recomputeGains s).proj p) := by
  rw [proj_recomputeGains]
  exact SameButForTarget.retargeted _ _ _

theorem projectors_ext {s t : State} (h : ∀ p, s.proj p = t.proj p) : s.projectors = t.projectors :=
  Vector.ext fun i hi => h ⟨i, hi⟩

theorem targetsSettled_iff (t : State) :
    TargetsSettled t ↔ ∀ p, (t.proj p).retargeted t.gain.floor t.reference = t.proj p := by
  refine ⟨fun h p => ?_, fun h => projectors_ext fun p => ?_⟩
  · rw [← proj_recomputeGains]
    exact proj_congr h p
  · rw [proj_recomputeGains, h p]

/-- Targets that are settled stay so while the projectors and the floor stand. -/
theorem TargetsSettled.congr {s t : State} (h : TargetsSettled s) (hp : t.projectors = s.projectors)
    (hg : t.gain.floor = s.gain.floor) : TargetsSettled t := by
  rw [targetsSettled_iff] at h ⊢
  intro p
  rw [proj_congr hp p, hg, reference_congr (s := s) fun q => by rw [proj_congr hp q]; exact ⟨rfl, rfl⟩]
  exact h p

theorem reference_recomputeGains (s : State) : (recomputeGains s).reference = s.reference :=
  reference_congr fun p => by rw [proj_recomputeGains]; exact ⟨rfl, rfl⟩

theorem targetsSettled_recomputeGains (s : State) : TargetsSettled (recomputeGains s) := by
  rw [targetsSettled_iff]
  intro p
  rw [proj_recomputeGains, reference_recomputeGains, gain_recomputeGains]
  rfl

/-- The raisings of GAIN_LIMIT in a list that ends with those of a recomputation. -/
theorem foldl_limits (s : State) (r : EventRecord) :
    ((limits s).filter fun e => e.cls = 8).foldl afterRaising r
      = ((List.finRange 16).filter fun p => (s.proj p).limited).foldl (fun r p => afterRaising r (.gainLimit p)) r := by
  unfold limits
  rw [List.filter_eq_self.2 fun e he => by obtain ⟨p, -, rfl⟩ := List.mem_map.1 he; rfl, List.foldl_map]

theorem cls_of_mem_limits {s : State} {e : Event} (he : e ∈ limits s) : e.cls = 8 := by
  obtain ⟨p, -, rfl⟩ := List.mem_map.1 he
  rfl

/-- Settles O31: a recomputation is the retargeting of every record, and the raisings of the limited ones. -/
theorem recomputationSetsGainTargets : Obligations.RecomputationSetsGainTargets := by
  intro s t
  have hproj (p : Slot) : t.proj p = (s.proj p).retargeted s.gain.floor s.reference := proj_recomputeGains s p
  have hraises : Raises s t (limits t) := recomputeGains_raises s
  refine ⟨(recomputeGains_touches s).frame, sameButForTarget_recomputeGains s, fun hnone p => ?noReference,
    fun l hl p => ?reference, (hraises 8).trans (foldl_limits t _), fun k hk => hraises.stands fun e he => ?others⟩
  case noReference =>
    rw [hproj, (reference_eq_none_iff s).2 hnone]
    exact ⟨rfl, rfl⟩
  case reference =>
    rw [hproj, (reference_eq_some_iff s l).2 hl]
    refine ⟨fun hnone => ?absent, fun k hk => ?present⟩
    case absent => unfold Projector.retargeted; rw [hnone]; exact ⟨rfl, rfl⟩
    case present =>
      unfold Projector.retargeted gainTargetFor Config.unity
      rw [hk]
      dsimp only
      refine ⟨fun hhigh => ?high, fun hfloor hlow => ?between, fun hbelow hlow => ?clamped⟩
      case high => rw [if_pos hhigh]; exact ⟨rfl, rfl⟩
      case between => rw [if_neg (Nat.not_lt.2 hlow), if_pos hfloor]; exact ⟨rfl, rfl⟩
      case clamped => rw [if_neg (Nat.not_lt.2 hlow), if_neg (Nat.not_le.2 hbelow)]; exact ⟨rfl, rfl⟩
  case others => rw [cls_of_mem_limits he]; exact hk.symm

end Sys2Proof.Machine
end

section
/-! PROOF. The shared operations stay inside: what stands outside the map, the solver, the Projector Table and the loader is
neither read nor changed by them. -/

namespace Sys2Proof.Machine

open Sys2Proof Sys2Proof.Stating

set_option Elab.async false

namespace Inward

/-! ### Single changes -/

theorem modNode (n : Nat) (f : Node → Node) : Inward fun s => s.modNode n f := fun _ _ => rfl
theorem putNode (n : Nat) (r : Node) : Inward fun s => s.putNode n r := fun _ _ => rfl
theorem modProj (p : Slot) (f : Projector → Projector) : Inward fun s => s.modProj p f := fun _ _ => rfl
theorem modChan (p : Slot) (f : Channel → Channel) : Inward fun s => s.modChan p f := fun _ _ => rfl
theorem raise (e : Event) : Inward fun s => s.raise e := fun _ _ => rfl
theorem setSolver (v : Solver) : Inward fun s => s.setSolver v := fun _ _ => rfl
theorem setEdit (e : EditControl) : Inward fun s => s.setEdit e := fun _ _ => rfl
theorem setLoader (l : Loader) : Inward fun s => s.setLoader l := fun _ _ => rfl

/-- One operation after another. -/
theorem andThen {f g : State → State} (hf : Inward f) (hg : Inward g) : Inward fun s => g (f s) := comp hg hf

theorem thenRaise {f : State → State} (hf : Inward f) (e : Event) : Inward fun s => (f s).raise e := comp (raise e) hf

/-! ### The Solve Queue -/

theorem queueNode (cls : QueueClass) (n : Nat) : Inward (Machine.queueNode cls n) := fun s o => by
  have hnode : (s.outside o).node n = s.node n := rfl
  unfold Machine.queueNode
  rw [hnode]
  cases (s.node n).queued with
  | none => cases cls <;> rfl
  | some c => cases c <;> cases cls <;> rfl

theorem memberLost : Inward Machine.memberLost := fun _ _ => rfl

theorem hardInvalidate (cls : QueueClass) (n : Nat) : Inward (Machine.hardInvalidate cls n) :=
  have hqueued : Inward fun s => Machine.queueNode cls n (s.modNode n Node.invalidated) := comp (queueNode cls n) (modNode n _)
  ite (fun _ _ => Iff.rfl) (comp memberLost hqueued) hqueued

theorem invalidateAll (cls : QueueClass) (ns : List Nat) : Inward (Machine.invalidateAll cls ns) :=
  foldl (fun n => hardInvalidate cls n) ns

theorem refreshAll (ns : List Nat) : Inward (Machine.refreshAll ns) := foldl (fun n => queueNode .normal n) ns

/-- The nodes that hold a claim of a projector stand in the map. -/
theorem claimNodes_outside (s o : State) (p : Slot) : (s.outside o).claimNodes p = s.claimNodes p := by
  unfold State.claimNodes
  rfl

theorem refreshClaimed (p : Slot) : Inward (Machine.refreshClaimed p) := fun s o => by
  unfold Machine.refreshClaimed
  rw [claimNodes_outside]
  exact refreshAll (s.claimNodes p) s o

theorem invalidateClaimed (p : Slot) : Inward (Machine.invalidateClaimed p) := fun s o => by
  unfold Machine.invalidateClaimed
  rw [claimNodes_outside]
  exact invalidateAll .urgent (s.claimNodes p) s o

theorem startSolve : Inward Machine.startSolve := fun s o => by
  have hsolver : (s.outside o).solver = s.solver := rfl
  unfold Machine.startSolve
  rw [hsolver]
  rcases s.solver with ⟨_ | ⟨n, urgent⟩, _ | ⟨m, normal⟩, _ | f⟩ <;> rfl

/-! ### Gains, claims and failovers -/

theorem recomputeGains : Inward Machine.recomputeGains := by
  have hlimits (ps : List Slot) : Inward (raiseLimits ps) :=
    foldl (fun p => ite (fun _ _ => Iff.rfl) (raise (.gainLimit p)) id) ps
  intro s o
  unfold Machine.recomputeGains
  exact hlimits slots (s.mapProj fun r => r.retargeted s.gain.floor s.reference) o

theorem reportYield : Inward Machine.reportYield := ite (fun _ _ => Iff.rfl) (fun _ _ => rfl) id

theorem lowerFailover (p : Slot) : Inward (Machine.lowerFailover p) :=
  have hset : Inward fun s => s.setFailover p ((s.proj p).failover - 1) := fun _ _ => rfl
  ite (fun _ _ => Iff.rfl) id (ite (fun _ _ => Iff.rfl) (comp reportYield (hset.thenRaise _)) hset)

theorem oweFailover (p : Slot) : Inward (Machine.oweFailover p) :=
  have hset : Inward fun s => s.setFailover p (s.proj p).claimCount := fun _ _ => rfl
  ite (fun _ _ => Iff.rfl) (hset.thenRaise _) hset

theorem freeClaim (p : Slot) (n : Nat) : Inward (Machine.freeClaim p n) :=
  show Inward fun s => Machine.lowerFailover p (countFreed p (s.modNode n fun r => r.dropClaim p)) from
    comp (lowerFailover p) fun _ _ => rfl

/-! ### The Projector Table -/

theorem emptySlot (p : Slot) : Inward (Machine.emptySlot p) :=
  have hemptied : Inward fun s => (Machine.recomputeGains (turnOff p (s.modProj p Projector.emptied))).raise (.fadeDone p true) :=
    (show Inward fun s => Machine.recomputeGains (turnOff p (s.modProj p Projector.emptied)) from
      comp recomputeGains fun _ _ => rfl).thenRaise _
  ite (fun _ _ => Iff.rfl) (comp reportYield hemptied) hemptied

theorem emptyIfDone (p : Slot) : Inward (Machine.emptyIfDone p) := ite (fun _ _ => Iff.rfl) (emptySlot p) id

theorem withdrawAt (p : Slot) (n : Nat) : Inward fun s => Machine.withdrawAt p s n := by
  refine pick (fun s => claimBy (s.node n).claims p) (fun _ _ => rfl)
    (k := fun c s => match c with
      | none => s
      | some c => if c.pendingNew then Machine.freeClaim p n s
        else s.modNode n fun r => r.modClaim p fun d => { d with withdrawn := true }) fun c => ?_
  cases c with
  | none => exact id
  | some c => exact ite (fun _ _ => Iff.rfl) (freeClaim p n) (modNode n _)

theorem enterRetiring (p : Slot) : Inward (Machine.enterRetiring p) := by
  have hcontributing (ns : List Nat) : Inward fun s => if (s.proj p).state.contributing then
        Machine.recomputeGains (Machine.invalidateAll .urgent ns (ns.foldl (Machine.withdrawAt p) (s.modProj p Projector.retired)))
      else Machine.invalidateAll .urgent ns (ns.foldl (Machine.withdrawAt p) (s.modProj p Projector.retired)) :=
    have hinvalidated : Inward fun s =>
        Machine.invalidateAll .urgent ns (ns.foldl (Machine.withdrawAt p) (s.modProj p Projector.retired)) :=
      comp (invalidateAll .urgent ns) (comp (foldl (withdrawAt p) ns) (modProj p _))
    ite (fun _ _ => Iff.rfl) (comp recomputeGains hinvalidated) hinvalidated
  intro s o
  unfold Machine.enterRetiring
  rw [claimNodes_outside]
  exact comp (emptyIfDone p) (hcontributing (s.claimNodes p)) s o

theorem enterFailed (p : Slot) (cause : FailCause) : Inward (Machine.enterFailed p cause) :=
  have hfailed : Inward fun s => (s.modProj p fun r => r.failedWith cause).raise (.projFault p cause) :=
    (modProj p _).thenRaise _
  ite (fun _ _ => Iff.rfl) (comp recomputeGains (comp (invalidateClaimed p) (comp (oweFailover p) hfailed))) hfailed

theorem failContributing (p : Slot) (cause : FailCause) : Inward (Machine.failContributing p cause) :=
  have hretiring : Inward (failRetiring p cause) :=
    show Inward fun s => Machine.enterRetiring p ((Machine.oweFailover p s).raise (.projFault p cause)) from
      comp (enterRetiring p) ((oweFailover p).thenRaise _)
  ite (fun _ _ => Iff.rfl) hretiring (enterFailed p cause)

theorem takeLockFault (p : Slot) (cause : FailCause) : Inward (Machine.takeLockFault p cause) := by
  refine pick (fun s => (s.proj p).state) (fun _ _ => rfl)
    (k := fun st s => match st with
      | .vacant => s
      | .parked => Machine.enterFailed p cause s
      | .fadingIn | .live | .fadingOut => Machine.failContributing p cause s
      | .failed => replaceCause p cause s
      | .retiring => s.raise (.projFault p cause)) fun st => ?_
  cases st
  case vacant => exact id
  case parked => exact enterFailed p cause
  case failed => exact (modProj p _).thenRaise _
  case retiring => exact raise _
  all_goals exact failContributing p cause

theorem lockLoss (p : Slot) : Inward (Machine.lockLoss p) := by
  have hfault := takeLockFault p .lockLost
  refine fun s o => ?_
  unfold Machine.lockLoss
  dsimp only
  rw [hfault s o]
  exact ite (f := fun t => t) (g := fun t => beginSequence p (stopStream p t))
    (c := fun t => (t.proj p).state = .vacant) (fun _ _ => Iff.rfl) id (fun _ _ => rfl) _ o

theorem cutIn (p : Slot) : Inward (Machine.cutIn p) :=
  have hcut : Inward fun s => Machine.refreshClaimed p (s.modProj p fun r => { r with state := .live, phi := 256, fade := none }) :=
    comp (refreshClaimed p) (modProj p _)
  ite (fun _ _ => Iff.rfl) (comp recomputeGains hcut) hcut

theorem cutOut (p : Slot) : Inward (Machine.cutOut p) :=
  show Inward fun s => Machine.recomputeGains
      (Machine.invalidateClaimed p (s.modProj p fun r => { r with state := .parked, phi := 0, fade := none })) from
    comp recomputeGains (comp (invalidateClaimed p) (modProj p _))

theorem startFade (p : Slot) (st : ProjState) (f : Fade) : Inward (Machine.startFade p st f) :=
  have hstarted : Inward fun s => Machine.refreshClaimed p (s.modProj p fun r => { r with state := st, fade := some f }) :=
    comp (refreshClaimed p) (modProj p _)
  ite (fun _ _ => Iff.rfl) (comp recomputeGains hstarted) hstarted

theorem setRamp (p : Slot) (ramp : Nat) : Inward (Machine.setRamp p ramp) :=
  show Inward fun s => Machine.refreshClaimed p (s.modProj p fun r => { r with ramp := ramp }) from
    comp (refreshClaimed p) (modProj p _)

theorem retire (p : Slot) (length : Nat) : Inward (Machine.retire p length) := by
  refine pick (fun s => ((s.proj p).state, (s.proj p).phi)) (fun _ _ => rfl)
    (k := fun v s => match v.1 with
      | .parked | .failed => Machine.enterRetiring p s
      | .live => if length = 0 then Machine.enterRetiring p s else startFadeOut p 256 length true s
      | .fadingIn => if length = 0 then Machine.enterRetiring p s else startFadeOut p v.2 length true s
      | .fadingOut => s.modProj p fun r => { r with fade := r.fade.map fun f => { f with retireAfter := true } }
      | .retiring | .vacant => s) fun v => ?_
  obtain ⟨st, phi⟩ := v
  cases st
  case parked => exact enterRetiring p
  case failed => exact enterRetiring p
  case live => exact ite (fun _ _ => Iff.rfl) (enterRetiring p) (startFade p _ _)
  case fadingIn => exact ite (fun _ _ => Iff.rfl) (enterRetiring p) (startFade p _ _)
  case fadingOut => exact modProj p _
  all_goals exact id

/-! ### Edit Control -/

theorem openNode (n : Nat) : Inward (Machine.openNode n) := modNode n _

theorem openSet_outside (s o : State) : (s.outside o).openSet = s.openSet := by
  unfold State.openSet
  rfl

theorem sealOpenSet : Inward Machine.sealOpenSet := by
  have hseal (n : Nat) : Inward fun s => sealNode s n := comp (hardInvalidate .normal n) (modNode n _)
  intro s o
  unfold Machine.sealOpenSet
  rw [openSet_outside]
  have hall : s.openSet.foldl sealNode (s.outside o) = (s.openSet.foldl sealNode s).outside o := foldl hseal s.openSet s o
  rw [hall]
  generalize s.openSet.foldl sealNode s = t
  rfl

theorem discardNode (n : Nat) : Inward fun s => Machine.discardNode s n := by
  have hfreed (ps : List Slot) : Inward fun s => ps.foldl (fun u p => Machine.freeClaim p n u) s :=
    foldl (fun p => freeClaim p n) ps
  intro s o
  have hnode : (s.outside o).node n = s.node n := rfl
  unfold Machine.discardNode
  dsimp only
  rw [hnode]
  exact comp (modNode n _) (hfreed (s.node n).newSlots) s o

theorem discardEdits : Inward Machine.discardEdits := by
  intro s o
  unfold Machine.discardEdits
  rw [openSet_outside]
  exact foldl discardNode s.openSet s o

theorem clearMap : Inward Machine.clearMap := by
  have hall (ps : List Slot) : Inward fun s => ps.foldl (fun u p => Machine.emptyIfDone p u) (emptyMap s) :=
    comp (foldl emptyIfDone ps) fun _ _ => rfl
  have hemptied := hall slots
  exact ite (fun _ _ => Iff.rfl) (comp reportYield hemptied) hemptied

end Inward

end Sys2Proof.Machine
end

section
/-! PROOF. Gain settings and the slew (O32), enrolment (O25), and the reply of READ PROJECTOR. -/

namespace Sys2Proof.Machine

open Sys2Proof Sys2Proof.Stating

set_option Elab.async false

/-! ### Gain settings and the slew (R101, R103, R104) -/

theorem limitedCount_eq (s : State) : u8 s.limitedCount = [byte (s.projectors.toList.countP fun r => r.limited)] :=
  u8_eq s.limitedCount

/-- The floor replaced and the live gains raised to it, before the recomputation (R103). -/
def floored (k : Nat) (s : State) : State :=
  { s with gain := { s.gain with floor := k } }.mapProj fun r => { r with gainLive := max k r.gainLive }

theorem setFloor_eq (k : Nat) (s : State) : setFloor k s = recomputeGains (floored k s) := by
  unfold setFloor floored
  rfl

theorem proj_floored (k : Nat) (s : State) (p : Slot) :
    (floored k s).proj p = { s.proj p with gainLive := max k (s.proj p).gainLive } := by
  rw [floored, proj_mapProj]
  rfl

theorem Inward.floored (k : Nat) : Inward (Machine.floored k) := fun _ _ => rfl

theorem Inward.setFloor (k : Nat) : Inward (Machine.setFloor k) := by
  have h := Inward.recomputeGains.comp (Inward.floored k)
  intro s o
  rw [setFloor_eq, setFloor_eq]
  exact h s o

theorem gainTarget_setFloor_between {k : Nat} (hk : k ≤ 4096) (s : State) (p : Slot) :
    k ≤ ((setFloor k s).proj p).gainTarget ∧ ((setFloor k s).proj p).gainTarget ≤ 4096 := by
  rw [setFloor_eq, proj_recomputeGains]
  exact gainTargetFor_between hk _ _

theorem sameButForTarget_setFloor (k : Nat) (s : State) (p : Slot) :
    SameButForTarget { s.proj p with gainLive := max k (s.proj p).gainLive } ((setFloor k s).proj p) := by
  rw [setFloor_eq, ← proj_floored]
  exact sameButForTarget_recomputeGains (floored k s) p

theorem exec_setGainFloor {s : State} {tag v0 v1 : Byte} {rest : List Request} (hw : Waits s 0x28 tag [v0, v1] rest) :
    exec .setGainFloor s = .next (answered (setFloor (max 1024 (min 4096 (word v0 v1))) s) rest tag .ok
      (twoBytes (max 1024 (min 4096 (word v0 v1)))
        ++ [byte ((setFloor (max 1024 (min 4096 (word v0 v1))) s).projectors.toList.countP fun r => r.limited)])) := by
  refine congrArg Host.Outcome.next ?_
  generalize hk : max 1024 (min 4096 (word v0 v1)) = k
  have hgain : (setFloor k s).gain.floor = k := by rw [setFloor_eq, gain_recomputeGains]; rfl
  have hmoved := (Inward.setFloor k).setPort s { s.port with requests := rest }
  refine runRequest_of_waits_reply (run := setGainFloorRequest) hw rfl rfl rfl (t := setFloor k s)
    (a := .ok (u16 (setFloor k s).gain.floor ++ u8 (setFloor k s).limitedCount)) ?_ ((Inward.setFloor k).port s) ?_
  · have hrun : setGainFloorRequest { code := 0x28, tag := tag, fields := [v0, v1] } (s.setPort { s.port with requests := rest })
        = (setFloor k (s.setPort { s.port with requests := rest }),
          .ok (u16 (setFloor k (s.setPort { s.port with requests := rest })).gain.floor
            ++ u8 (setFloor k (s.setPort { s.port with requests := rest })).limitedCount)) := by
      have hclamped : clamp 1024 4096 (wordAt [v0, v1] 0) = k := hk
      unfold setGainFloorRequest
      dsimp only
      rw [hclamped]
    rw [hrun, hmoved]
    generalize setFloor k s = t
    rfl
  · rw [limitedCount_eq, hgain]
    rfl

/-- Settles O32: the floor by the rules of a recomputation, the slew by its three cases. -/
theorem gainSettingsAndSlew : Obligations.GainSettingsAndSlew := by
  refine ⟨⟨fun s tag v0 v1 rest hw => ?floor, fun s tag v0 v1 rest hw => ?step⟩, fun s ho => ?slew⟩
  case floor =>
    intro floor raised t
    have hfloor : floor ≤ 4096 := max_le (by omega) (min_le_left _ _)
    exact ⟨exec_setGainFloor hw, fun p => ⟨sameButForTarget_setFloor floor s p, gainTarget_setFloor_between hfloor s p⟩⟩
  case step =>
    exact congrArg Host.Outcome.next (runRequest_of_waits_run (run := setGainSlewRequest) hw rfl rfl rfl
      (t := { s with gain := { s.gain with slew := max 1 (min 4096 (word v0 v1)) } })
      (a := .ok (twoBytes (max 1 (min 4096 (word v0 v1))))) rfl rfl)
  case slew =>
    refine ⟨{ slewGains s with owed := { s.owed with slew := s.owed.slew - 1 } },
      congrArg Host.Outcome.next (if_neg (by omega)), rfl, fun p => ?_⟩
    intro live target
    have hproj : (slewGains s).proj p = { s.proj p with gainLive := slewed live target s.gain.slew } :=
      proj_mapProj s _ p
    refine ⟨fun hlt => hproj.trans ?up, fun hlt => hproj.trans ?down, fun heq => hproj.trans ?level⟩
    case up => rw [slewed, if_pos hlt]
    case down => rw [slewed, if_neg (by omega), if_pos hlt]
    case level => rw [slewed, if_neg (by omega), if_neg (by omega)]

/-! ### ENROL PROJECTOR (R77) -/

theorem enrolFields_eq (r : Projector) : enrolFields r = twoBytes r.width ++ twoBytes r.height ++ twoBytes r.ramp
    ++ threeBytes r.pixelClock ++ [if r.autoFailover then 1 else 0] := by
  have hauto : packBits [r.autoFailover] = [if r.autoFailover then (1 : Byte) else 0] := by cases r.autoFailover <;> rfl
  rw [enrolFields, hauto, u24_eq]
  rfl

theorem proj_enrol (p : Slot) (w h ramp clock : Nat) (auto : Bool) (s : State) (q : Slot) :
    (enrol p w h ramp clock auto s).proj q = if q = p then (s.proj p).enrolled w h ramp clock auto else s.proj q := by
  rw [enrol, beginSequence, proj_modChan, proj_modChan, proj_modProj]

theorem chan_enrol (p : Slot) (w h ramp clock : Nat) (auto : Bool) (s : State) (q : Slot) :
    (enrol p w h ramp clock auto s).chan q
      = if q = p then { (s.chan p).begun clock with changeFlag := false } else s.chan q := by
  rw [enrol, beginSequence, chan_modChan, chan_modChan, chan_modChan, proj_modProj]
  by_cases hq : q = p <;> simp [hq, Projector.enrolled]

theorem exec_enrolProjector_of_vacant {s : State} {tag slot w0 w1 h0 h1 r0 r1 c0 c1 c2 auto : Byte} {rest : List Request}
    (hw : Waits s 0x20 tag [slot, w0, w1, h0, h1, r0, r1, c0, c1, c2, auto] rest) {p : Slot} (hp : slot.toNat = p.val)
    (hv : (s.proj p).state = .vacant) {w h r clock : Nat} (hw' : max 256 (min 4096 (word w0 w1)) = w)
    (hh : max 256 (min 4096 (word h0 h1)) = h) (hr : max 1 (min 2047 (word r0 r1)) = r)
    (hc : max 25000 (min 600000 (triple c0 c1 c2)) = clock) :
    exec .enrolProjector s = .next (answered (enrol p w h r clock (decide (auto ≠ 0)) s) rest tag .ok
      (twoBytes w ++ twoBytes h ++ twoBytes r ++ threeBytes clock ++ [if auto = 0 then 0 else 1])) := by
  refine congrArg Host.Outcome.next ?_
  refine runRequest_of_waits_reply (run := enrolRequest) hw rfl rfl rfl (t := enrol p w h r clock (decide (auto ≠ 0)) s)
    (a := .ok (enrolFields ((enrol p w h r clock (decide (auto ≠ 0)) s).proj p))) ?run rfl ?fields
  case run =>
    have hauto : yesNo (byteAt [slot, w0, w1, h0, h1, r0, r1, c0, c1, c2, auto] 10) = decide (auto ≠ 0) := yesNo_eq auto
    rw [← hauto]
    subst hw' hh hr hc
    exact (withSlot_val hp _ _).trans (if_pos hv)
  case fields =>
    rw [Answer.ok, enrolFields_eq, proj_enrol, if_pos rfl]
    by_cases ha : auto = 0#8 <;> simp [Projector.enrolled, ha]

/-- Settles O25: a vacant slot is filled, and its channel begins its start sequence. -/
theorem enrolFillsVacantSlot : Obligations.EnrolFillsVacantSlot := by
  intro s tag slot w0 w1 h0 h1 r0 r1 c0 c1 c2 auto rest hw
  refine ⟨fun hslot => ?unknown, fun p hp => ⟨fun hv => ?taken, fun hv => ?vacant⟩⟩
  case unknown =>
    exact congrArg Host.Outcome.next (runRequest_of_waits_same (run := enrolRequest) hw rfl rfl rfl
      (withSlot_none hslot _ _))
  case taken =>
    exact congrArg Host.Outcome.next (runRequest_of_waits_same (run := enrolRequest) (a := .bare .state) hw rfl rfl rfl
      ((withSlot_val hp _ _).trans (if_neg hv)))
  case vacant =>
    intro w h r clock expected
    refine ⟨enrol p w h r clock (decide (auto ≠ 0)) s, exec_enrolProjector_of_vacant hw hp hv rfl rfl rfl rfl, rfl,
      fun q hq => ⟨?_, ?_⟩, ?_, ?_⟩
    · rw [proj_enrol, if_neg hq]
    · rw [chan_enrol, if_neg hq]
    · rw [proj_enrol, if_pos rfl]
      rfl
    · rw [chan_enrol, if_pos rfl]
      rfl

/-! ### READ PROJECTOR (R94) -/

theorem code_state_eq (st : ProjState) : byte st.code = place st projStates := by cases st <;> rfl

theorem code_failCause_eq (k : FailCause) : byte k.code = place k [.line, .lockLost, .lockFailed] := by cases k <;> rfl

theorem code_lock_eq (k : LockState) :
    byte k.code = place k [.off, .starting, .awaitLock, .validating, .locked, .lockFailed] := by cases k <;> rfl

theorem code_taken_eq (k : TakenLevel) : byte k.code = place k [.unsettled, .ready, .notReady] := by cases k <;> rfl

theorem fadeFields_eq (f : Fade) :
    fadeFields f = twoBytes f.start ++ twoBytes f.target ++ [byte f.length, byte f.elapsed] := by
  simp only [fadeFields, u8_eq, u16_eq_twoBytes, List.append_assoc, List.cons_append, List.nil_append]

theorem retireAfter_eq (r : Projector) :
    (match r.fade with | some f => f.retireAfter | none => false) = (r.fade.map Fade.retireAfter).getD false := by
  cases r.fade <;> rfl

theorem projectorAnswer_fields (p : Slot) (r : Projector) (c : Channel) :
    (projectorAnswer p r c).fields = projectorBytes p r c := by
  have hflags (a b d e : Bool) : packBits [a, b, d, e] = [byte (flags [a, b, d, e])] := packBits_byte (by simp)
  have hu24 : u24 = threeBytes := funext u24_eq
  unfold projectorAnswer projectorBytes Answer.ok
  dsimp only
  rw [hflags, hflags, ← retireAfter_eq]
  simp only [optional_eq_ifPresent, ← code_state_eq, ← code_failCause_eq, ← code_lock_eq, ← code_taken_eq, u8_eq,
    u16_eq_twoBytes, hu24, funext fadeFields_eq, List.append_assoc, List.cons_append, List.nil_append] <;> rfl

end Sys2Proof.Machine
end

section
/-! PROOF. The Solve Queue (O21, O22) and the completion of a solve (O23). -/

namespace Sys2Proof.Machine

open Sys2Proof Sys2Proof.Stating

set_option Elab.async false

/-! ### One node queued (R29) -/

/-- The Solve Queue after a request to queue a node in a class, by the entry that the node has (R29). -/
def Solver.joined (cls : QueueClass) (n : Nat) (q : Option QueueClass) (v : Solver) : Solver :=
  match q, cls with
  | none, .normal => { v with normal := v.normal ++ [n] }
  | none, .urgent => { v with urgent := v.urgent ++ [n] }
  | some .normal, .urgent => { v with urgent := v.urgent ++ [n], normal := v.normal.erase n }
  | some .normal, .normal => v
  | some .urgent, _ => v

theorem solver_queueNode (cls : QueueClass) (n : Nat) (s : State) :
    (queueNode cls n s).solver = s.solver.joined cls n (s.node n).queued := by
  unfold queueNode
  cases (s.node n).queued with
  | none => cases cls <;> rfl
  | some c => cases c <;> cases cls <;> rfl

theorem queueNode_onlyNodesAndSolver (cls : QueueClass) (n : Nat) (s : State) :
    OnlyNodesAndSolver s (queueNode cls n s) := by
  unfold OnlyNodesAndSolver queueNode
  cases (s.node n).queued with
  | none => cases cls <;> rfl
  | some c => cases c <;> cases cls <;> rfl

/-- A node that is queued in its class already, or URGENT, stays as it is. -/
theorem queueNode_of_queued {cls : QueueClass} {n : Nat} {s : State} {q : QueueClass} (hq : (s.node n).queued = some q)
    (h : q = .urgent ∨ cls = .normal) : queueNode cls n s = s := by
  unfold queueNode
  rw [hq]
  cases q
  case urgent => rfl
  case normal =>
    obtain rfl : cls = .normal := h.resolve_left (by decide)
    rfl

/-! ### One node hard-invalidated (R31) -/

theorem solver_hardInvalidate (cls : QueueClass) (n : Nat) (s : State) :
    (hardInvalidate cls n s).solver = s.solver.joined cls n (s.node n).queued := by
  have hqueued : (queueNode cls n (s.modNode n Node.invalidated)).solver = s.solver.joined cls n (s.node n).queued := by
    rw [solver_queueNode, node_modNode, if_pos rfl]
    rfl
  unfold hardInvalidate
  dsimp only
  split
  · exact hqueued
  · exact hqueued

theorem hardInvalidate_frame (cls : QueueClass) (n : Nat) (s : State) : hardInvalidate cls n s = { s with
    dome := { s.dome with nodes := (hardInvalidate cls n s).dome.nodes }
    solver := (hardInvalidate cls n s).solver, edit := (hardInvalidate cls n s).edit } := by
  have hqueued := queueNode_onlyNodesAndSolver cls n (s.modNode n Node.invalidated)
  unfold OnlyNodesAndSolver at hqueued
  unfold hardInvalidate
  dsimp only
  generalize queueNode cls n (s.modNode n Node.invalidated) = t at hqueued ⊢
  rw [hqueued]
  split <;> rfl

theorem hardened_eq (cls : QueueClass) (r : Node) : r.hardened cls = { r with
    nextValid := false
    dirty := r.dirty || r.inFlight
    queued := if r.queued = some .urgent then some .urgent else if cls = .urgent then some .urgent else some .normal } := by
  unfold Node.hardened Node.invalidated queuedAs
  cases cls <;> rcases r.queued with _ | (_ | _) <;> rfl

/-- Settles O21: one node queued, hard-invalidated and soft-refreshed, each by its node, its solver and its counts. -/
theorem queueRequestsAndInvalidations : Obligations.QueueRequestsAndInvalidations := by
  refine ⟨fun s n => ?queue, fun s n => ⟨fun cls => ?hard, ?soft⟩⟩
  case queue =>
    intro queuedInto
    have hqueued (cls : QueueClass) : queuedInto (queuedAs cls (s.node n).queued |>.getD .normal)
        (s.solver.joined cls n (s.node n).queued) (queueNode cls n s) := by
      refine ⟨queueNode_onlyNodesAndSolver cls n s, solver_queueNode cls n s, ?_, fun m hm => ?_⟩
      · rw [node_queueNode, if_pos rfl]
        cases cls <;> cases (s.node n).queued <;> rfl
      · rw [node_queueNode, if_neg hm]
    refine ⟨fun hq => ⟨?_, ?_⟩, fun hq => ⟨queueNode_of_queued hq (.inr rfl), ?_⟩,
      fun hq => ⟨queueNode_of_queued hq (.inl rfl), queueNode_of_queued hq (.inl rfl)⟩⟩
    · have h := hqueued .normal
      rw [hq] at h
      exact h
    · have h := hqueued .urgent
      rw [hq] at h
      exact h
    · have h := hqueued .urgent
      rw [hq] at h
      exact h
  case hard =>
    intro t
    have hready : (s.node n).ready = true ↔ (s.node n).groupMark = true ∧ (s.node n).nextValid = true := by
      rw [Node.ready, Bool.and_eq_true]
    refine ⟨?node, fun m hm => ?other, ?frame, fun h => ?lost, fun h => ?stands⟩
    case node => exact ((node_hardInvalidate cls n s n).trans (if_pos rfl)).trans (hardened_eq cls _)
    case other => exact (node_hardInvalidate cls n s m).trans (if_neg hm)
    case frame =>
      have h := hardInvalidate_frame cls n s
      rw [solver_hardInvalidate, ← solver_queueNode] at h
      exact h
    case lost => exact (edit_hardInvalidate cls n s).trans (if_pos (hready.2 h))
    case stands => exact (edit_hardInvalidate cls n s).trans (if_neg (mt hready.1 h))
  case soft =>
    intro t
    refine ⟨queueNode_onlyNodesAndSolver .normal n s, rfl, fun m hm => ?other, ?node⟩
    case other => exact (node_softRefresh n s m).trans (if_neg hm)
    case node =>
      refine ((node_softRefresh n s n).trans (if_pos rfl)).trans ?_
      unfold Node.softened queuedAs
      cases (s.node n).queued <;> rfl

/-! ### A solve begins (R30, R36) -/

theorem startSolve_of_urgent {s : State} {n : Nat} {urgent : List Nat} (hf : s.solver.flight = none)
    (hu : s.solver.urgent = n :: urgent) : startSolve s =
      (s.setSolver { s.solver with urgent := urgent, flight := some (s.flightOf n .urgent) }).modNode n Node.taken := by
  unfold startSolve
  rw [hf, hu]

theorem startSolve_of_normal {s : State} {n : Nat} {normal : List Nat} (hf : s.solver.flight = none)
    (hu : s.solver.urgent = []) (hn : s.solver.normal = n :: normal) : startSolve s =
      (s.setSolver { s.solver with normal := normal, flight := some (s.flightOf n .normal) }).modNode n Node.taken := by
  unfold startSolve
  rw [hf, hu, hn]

theorem startSolve_of_nothing {s : State} (h : NothingToBegin s) : startSolve s = s := by
  unfold startSolve
  rcases h with hf | ⟨hu, hn⟩
  · obtain ⟨f, hf⟩ := Option.ne_none_iff_exists'.1 hf
    rw [hf]
  · rw [hu, hn]
    cases s.solver.flight <;> rfl

/-- Settles O22: the head of the URGENT class, else of the NORMAL class, is taken into flight. -/
theorem solveBeginsAtQueueHead : Obligations.SolveBeginsAtQueueHead := by
  intro s began
  have htaken (n : Nat) (cls : QueueClass) (v : Solver) (hv : v.flight = some (s.flightOf n cls)) :
      began n cls v.urgent v.normal ((s.setSolver v).modNode n Node.taken) := by
    refine ⟨rfl, rfl, rfl, ⟨s.flightOf n cls, hv, rfl, rfl, rfl, rfl⟩, ?_, fun m hm => ?_⟩
    · rw [node_modNode, if_pos rfl]
      rfl
    · rw [node_modNode, if_neg hm]
      rfl
  refine ⟨fun n urgent hf hu => ?urgent, fun n normal hf hu hn => ?normal, startSolve_of_nothing⟩
  case urgent =>
    rw [startSolve_of_urgent hf hu]
    exact htaken n .urgent { s.solver with urgent := urgent, flight := some (s.flightOf n .urgent) } rfl
  case normal =>
    rw [startSolve_of_normal hf hu hn]
    exact (congrArg (fun urgent => began n .normal urgent normal _) hu).mp
      (htaken n .normal { s.solver with normal := normal, flight := some (s.flightOf n .normal) } rfl)

/-! ### A solve completes (R39, R40, R49) -/

theorem finishSolve_frame (f : Flight) (s : State) : finishSolve f s = { s with
    dome := { s.dome with nodes := (finishSolve f s).dome.nodes }, solver := { s.solver with flight := none }
    edit := (finishSolve f s).edit, attention := (finishSolve f s).attention } := by
  unfold finishSolve
  dsimp only
  split
  · rfl
  · split
    · split <;> rfl
    · split <;> rfl

theorem anyOffRaster_iff (f : Flight) : f.anyOffRaster = true ↔ ∃ c ∈ f.claims, c.offRaster f.member = true := by
  unfold Flight.anyOffRaster
  exact List.any_eq_true

theorem finishSolve_raises {f : Flight} {s : State} (hd : (s.node f.node).dirty = false) :
    Raises s (finishSolve f s) (if f.anyOffRaster = true then [.offRaster f.node] else []) := by
  unfold finishSolve
  dsimp only
  rw [hd, if_neg Bool.false_ne_true]
  have hstored (c : Bool) (u : State) (hu : u.attention = s.attention) :
      Raises s (if c = true then memberGained u else u) [] := by
    split
    · exact Raises.of_attention hu
    · exact Raises.of_attention hu
  split
  · refine Raises.thenRaise (es := []) (hstored _ _ ?_) _
    rfl
  · refine hstored _ _ ?_
    rfl

theorem attention_finishSolve_of_dirty {f : Flight} {s : State} (hd : (s.node f.node).dirty = true) :
    (finishSolve f s).attention = s.attention := by
  unfold finishSolve
  dsimp only
  rw [if_pos hd]
  rfl

theorem attention_finishSolve_of_inside {f : Flight} {s : State} (hd : (s.node f.node).dirty = false)
    (h : f.anyOffRaster = false) : (finishSolve f s).attention = s.attention := by
  unfold finishSolve
  dsimp only
  rw [hd, h, if_neg Bool.false_ne_true, if_neg Bool.false_ne_true]
  split <;> rfl

theorem weightFor_of_shared {f : Flight} (hslots : (f.claims.map fun c => c.claim.projector).Nodup) {w : Slot × Nat}
    (hw : w ∈ f.weights) : f.weightFor w.1 = w.2 := by
  have hnodup : (f.weights.map Prod.fst).Nodup := by
    have hmap : f.weights.map Prod.fst = f.claims.map fun c => c.claim.projector := by
      rw [Flight.weights, shareWeights_slots, Flight.affinities, List.map_map]
      rfl
    rw [hmap]
    exact hslots
  have hfind : f.weights.find? (fun o => o.1 == w.1) = some w := by
    have h := find?_pair (key := Prod.fst) Prod.snd hnodup hw
    simpa using h
  rw [Flight.weightFor, hfind]

/-- The claim that a view leaves out (R37). -/
def Claim.Excluded (k : Claim) (member : Bool) : Prop :=
  k.withdrawn = true ∨ (member = true ∧ k.pendingRemoval = true) ∨ (member = false ∧ k.pendingNew = true)

theorem takesPart_eq_false_iff (k : Claim) (member : Bool) : k.takesPart member = false ↔ k.Excluded member := by
  unfold Claim.takesPart Claim.Excluded
  cases k.withdrawn <;> cases member <;> simp

theorem distance_of_excluded {c : ReadClaim} {member : Bool} (h : c.claim.Excluded member) : c.distance member = none := by
  unfold ReadClaim.distance
  rw [(takesPart_eq_false_iff _ _).2 h]
  rfl

theorem distance_of_placed {c : ReadClaim} {member : Bool} (h : ¬c.claim.Excluded member) {q : Pos}
    (hq : c.claim.solvePos member = some q) :
    c.distance member = some (edgeDistance q c.claim.solveTrim c.projector.width c.projector.height) := by
  unfold ReadClaim.distance
  have hpart : c.claim.takesPart member = true := by
    rw [← Bool.not_eq_false, takesPart_eq_false_iff]
    exact h
  rw [if_pos hpart, hq]
  rfl

theorem solvePos_eq (k : Claim) (member : Bool) :
    k.solvePos member = if member ∧ k.pendingPos.isSome then k.pendingPos else k.livePos := by
  unfold Claim.solvePos
  cases member <;> cases k.pendingPos <;> rfl

theorem edgeDistance_eq (q : Pos) (t : Trim) (w h : Nat) : edgeDistance q t w h =
    min (min (Int.fdiv (q.u + t.tu) 16) ((w : Int) - 1 - Int.fdiv (q.u + t.tu) 16))
      (min (Int.fdiv (q.v + t.tv) 16) ((h : Int) - 1 - Int.fdiv (q.v + t.tv) 16)) := by
  rw [Int.fdiv_eq_ediv_of_nonneg _ (by decide), Int.fdiv_eq_ediv_of_nonneg _ (by decide)]
  rfl

theorem contributing_iff (st : ProjState) : st.contributing = true ↔ st ∈ [ProjState.fadingIn, .live, .fadingOut] := by
  cases st <;> decide

/-- Settles O23: the completed solve by its rules, the weights by the share of each slot, and a claim as read by the
stages of the solve. -/
theorem solveCompletionStoresOrDiscards : Obligations.SolveCompletionStoresOrDiscards := by
  refine ⟨fun s f hf => ⟨finishSolve f s, ?exec, finishSolve_frame f s, fun m hm => ?other, fun hd => ?dirty, fun hd => ?clean⟩,
    fun f hslots w hw => weightFor_of_shared hslots hw, fun f p h => weightFor_eq_zero_of_unread h, fun c member => ?claim⟩
  case exec =>
    refine congrArg Host.Outcome.next ?_
    rw [hf]
  case other => rw [node_finishSolve, if_neg hm]
  case dirty =>
    refine ⟨by rw [edit_finishSolve, if_pos hd], attention_finishSolve_of_dirty hd, ?_⟩
    rw [node_finishSolve, if_pos rfl, if_pos hd]
    rfl
  case clean =>
    have hedit := edit_finishSolve f s
    rw [hd, if_neg Bool.false_ne_true] at hedit
    refine ⟨?node, fun hg hv => ?gained, fun h => ?stands, fun h => ?off, fun h => ?inside⟩
    case node =>
      rw [node_finishSolve, if_pos rfl, if_neg (by rw [hd]; exact Bool.false_ne_true)]
      rfl
    case gained => exact hedit.trans (if_pos (by rw [hg, hv]; rfl))
    case stands => exact hedit.trans (if_neg (by rcases h with h | h <;> simp [h]))
    case off =>
      have hraises := finishSolve_raises hd
      rw [if_pos ((anyOffRaster_iff f).2 h)] at hraises
      exact ⟨hraises.raised rfl, hraises.stands (by simp [Event.cls])⟩
    case inside =>
      refine attention_finishSolve_of_inside hd (Bool.eq_false_iff.2 fun hoff => ?_)
      obtain ⟨c, hc, hout⟩ := (anyOffRaster_iff f).1 hoff
      rw [h c hc] at hout
      exact Bool.false_ne_true hout
  case claim =>
    intro k excluded
    refine ⟨fun h => ?excluded, fun q h hq => ?placed⟩
    case excluded =>
      have hnone : c.distance member = none := distance_of_excluded h
      rw [ReadClaim.effective, ReadClaim.offRaster, hnone]
      exact ⟨rfl, rfl⟩
    case placed =>
      intro trim pin px py d a
      have hd : c.distance member = some d := by
        rw [distance_of_placed h ((solvePos_eq k member).trans hq), edgeDistance_eq]
        have htrim : c.claim.solveTrim = trim := by
          unfold Claim.solveTrim
          change k.nextTrim.getD k.liveTrim = match k.nextTrim with | some n => n | none => k.liveTrim
          cases k.nextTrim <;> rfl
        rw [htrim]
      have heffective : c.effective member = effectiveAffinity a c.projector := by
        rw [ReadClaim.effective, hd]
        rfl
      rw [heffective, ReadClaim.offRaster, hd, ← contributing_iff]
      exact ⟨decide_eq_true_iff, fun hc => if_pos hc, fun hc => if_neg hc⟩

end Sys2Proof.Machine
end

section
/-! PROOF. What the soft refresh and the hard invalidation of a set of nodes make of the Solve Queue and of the group's
counts (R34), and the ramp (O30). -/

namespace Sys2Proof.Machine

open Sys2Proof Sys2Proof.Stating

set_option Elab.async false

/-! ### Soft refresh of a set -/

theorem edit_refreshAll (ns : List Nat) (s : State) : (refreshAll ns s).edit = s.edit :=
  foldl_keeps (fun t => t.edit = s.edit) (fun t n => softRefresh n t)
    (fun t n ht => (edit_queueNode .normal n t).trans ht) ns s rfl

theorem solver_softRefresh (n : Nat) (s : State) : (softRefresh n s).solver =
    { s.solver with normal := s.solver.normal ++ [n].filter fun m => (s.node m).queued = none } := by
  rw [softRefresh, solver_queueNode]
  rcases hq : (s.node n).queued with _ | (_ | _) <;> simp [Solver.joined, hq]

theorem solver_refreshAll {ns : List Nat} (hns : ns.Nodup) (s : State) : (refreshAll ns s).solver =
    { s.solver with normal := s.solver.normal ++ ns.filter fun n => (s.node n).queued = none } := by
  induction ns generalizing s with
  | nil => simp [refreshAll]
  | cons n ns ih =>
    obtain ⟨hn, hns⟩ := List.nodup_cons.1 hns
    have hother (m : Nat) (hm : m ∈ ns) : m ≠ n := ne_of_mem_of_not_mem hm hn
    have hrest : (ns.filter fun m => ((softRefresh n s).node m).queued = none)
        = ns.filter fun m => (s.node m).queued = none :=
      List.filter_congr fun m hm => by rw [node_softRefresh, if_neg (hother m hm)]
    have hcons : refreshAll (n :: ns) s = refreshAll ns (softRefresh n s) := rfl
    rw [hcons, ih hns, hrest, solver_softRefresh]
    by_cases hq : (s.node n).queued = none <;> simp [hq]

/-- The nodes that a projector claims, as the statements list them. -/
theorem claimed_eq (s : State) (p : Slot) : claimed s p = s.claimNodes p := by
  unfold claimed State.claimNodes
  refine List.filter_congr fun n _ => ?_
  rw [Bool.eq_iff_iff, decide_eq_true_iff, Node.claimedBy, List.any_eq_true]
  exact exists_congr fun c => and_congr_right fun _ => beq_iff_eq.symm

theorem nodup_claimNodes (s : State) (p : Slot) : (s.claimNodes p).Nodup := nodup_nodeIndices.filter _

theorem softened_of_unqueued {r : Node} (h : r.queued = none) : r.softened = { r with queued := some .normal } := by
  rw [Node.softened, h]
  rfl

theorem softened_of_queued {r : Node} (h : r.queued ≠ none) : r.softened = r := by
  obtain ⟨c, hc⟩ := Option.ne_none_iff_exists'.1 h
  unfold Node.softened queuedAs
  rw [hc]
  dsimp only [Option.getD_some]
  rw [← hc]

theorem nodesRefreshed_of_refreshAll {s u : State} {p : Slot} (hnode : ∀ n, u.node n = s.node n)
    (hsolver : u.solver = s.solver) (hedit : u.edit = s.edit) : NodesRefreshed s (refreshAll (s.claimNodes p) u) p := by
  unfold NodesRefreshed
  rw [claimed_eq]
  have hjoining (n : Nat) : (n ∈ (s.claimNodes p).filter fun n => (s.node n).queued = none) ↔
      n ∈ s.claimNodes p ∧ (s.node n).queued = none := by rw [List.mem_filter, decide_eq_true_iff]
  refine ⟨?solver, (edit_refreshAll _ u).trans hedit, fun n hn => ?joined, fun n hn => ?stands⟩
  case solver =>
    rw [solver_refreshAll (nodup_claimNodes s p), hsolver]
    simp only [hnode]
  case joined =>
    obtain ⟨hmem, hq⟩ := (hjoining n).1 hn
    rw [node_refreshAll, if_pos hmem, hnode, softened_of_unqueued hq]
  case stands =>
    rw [node_refreshAll, hnode]
    split
    · next hmem => exact softened_of_queued fun hq => hn ((hjoining n).2 ⟨hmem, hq⟩)
    · rfl

/-- The claimed nodes of a projector soft-refreshed after a change of the Projector Table. -/
theorem nodesRefreshed_refreshClaimed (p : Slot) (s : State) (f : Projector → Projector) :
    NodesRefreshed s (refreshClaimed p (s.modProj p f)) p := by
  have h := nodesRefreshed_of_refreshAll (s := s) (u := s.modProj p f) (p := p) (fun _ => rfl) rfl rfl
  unfold refreshClaimed
  have hsame : (s.modProj p f).claimNodes p = s.claimNodes p := rfl
  rw [hsame]
  exact h

theorem NodesRefreshed.congr_right {s t u : State} {p : Slot} (h : NodesRefreshed s t p) (hdome : u.dome = t.dome)
    (hsolver : u.solver = t.solver) (hedit : u.edit = t.edit) : NodesRefreshed s u p := by
  unfold NodesRefreshed State.node at *
  rw [hdome, hsolver, hedit]
  exact h

/-! ### Hard invalidation of a set -/

/-- The Solve Queue after these nodes, each of which has no URGENT entry, have joined the URGENT class (R29). -/
theorem solver_invalidateUrgent {ns : List Nat} (hns : ns.Nodup) (s : State) : (invalidateAll .urgent ns s).solver =
    { s.solver with
      urgent := s.solver.urgent ++ ns.filter fun n => (s.node n).queued ≠ some .urgent
      normal := s.solver.normal.diff ((ns.filter fun n => (s.node n).queued ≠ some .urgent).filter
        fun n => (s.node n).queued = some .normal) } := by
  induction ns generalizing s with
  | nil => simp [invalidateAll]
  | cons n ns ih =>
    obtain ⟨hn, hns⟩ := List.nodup_cons.1 hns
    have hother (m : Nat) (hm : m ∈ ns) : m ≠ n := ne_of_mem_of_not_mem hm hn
    have hstands (m : Nat) (hm : m ∈ ns) : (hardInvalidate .urgent n s).node m = s.node m := by
      rw [node_hardInvalidate, if_neg (hother m hm)]
    have hjoining : (ns.filter fun m => ((hardInvalidate .urgent n s).node m).queued ≠ some .urgent)
        = ns.filter fun m => (s.node m).queued ≠ some .urgent :=
      List.filter_congr fun m hm => by rw [hstands m hm]
    have hleaving : ((ns.filter fun m => (s.node m).queued ≠ some .urgent).filter
          fun m => ((hardInvalidate .urgent n s).node m).queued = some .normal)
        = (ns.filter fun m => (s.node m).queued ≠ some .urgent).filter fun m => (s.node m).queued = some .normal :=
      List.filter_congr fun m hm => by rw [hstands m (List.mem_of_mem_filter hm)]
    have hcons : invalidateAll .urgent (n :: ns) s = invalidateAll .urgent ns (hardInvalidate .urgent n s) := rfl
    rw [hcons, ih hns, hjoining, hleaving, solver_hardInvalidate]
    rcases hq : (s.node n).queued with _ | (_ | _) <;> simp [Solver.joined, hq]

/-- The counts of Edit Control after a number of members have lost their next weights (R61). -/
def EditControl.lost (e : EditControl) (k : Nat) : EditControl :=
  { e with
    readyCount := e.readyCount - k
    groupState := if 0 < k ∧ e.groupState = .ready then .solving else e.groupState }

theorem EditControl.lost_zero (e : EditControl) : e.lost 0 = e := by simp [lost]

theorem EditControl.lost_succ (e : EditControl) (k : Nat) : (e.lost 1).lost k = e.lost (k + 1) := by
  have hcount : e.readyCount - 1 - k = e.readyCount - (k + 1) := by omega
  by_cases hr : e.groupState = .ready <;> simp [lost, hr, hcount]

theorem edit_hardInvalidate_lost (cls : QueueClass) (n : Nat) (s : State) :
    (hardInvalidate cls n s).edit = s.edit.lost (s.node n).ready.toNat := by
  rw [edit_hardInvalidate]
  cases (s.node n).ready
  · exact (EditControl.lost_zero _).symm
  · simp [memberLost, EditControl.lost]

theorem edit_invalidateAll (cls : QueueClass) {ns : List Nat} (hns : ns.Nodup) (s : State) :
    (invalidateAll cls ns s).edit = s.edit.lost (ns.countP fun n => (s.node n).groupMark && (s.node n).nextValid) := by
  induction ns generalizing s with
  | nil => exact (EditControl.lost_zero _).symm
  | cons n ns ih =>
    obtain ⟨hn, hns⟩ := List.nodup_cons.1 hns
    have hother (m : Nat) (hm : m ∈ ns) : m ≠ n := ne_of_mem_of_not_mem hm hn
    have hrest : (ns.countP fun m => ((hardInvalidate cls n s).node m).groupMark && ((hardInvalidate cls n s).node m).nextValid)
        = ns.countP fun m => (s.node m).groupMark && (s.node m).nextValid :=
      List.countP_congr fun m hm => by rw [node_hardInvalidate, if_neg (hother m hm)]
    have hcons : invalidateAll cls (n :: ns) s = invalidateAll cls ns (hardInvalidate cls n s) := rfl
    rw [hcons, ih hns, hrest, edit_hardInvalidate_lost, List.countP_cons]
    unfold Node.ready
    cases (s.node n).groupMark && (s.node n).nextValid
    · simp [EditControl.lost_zero]
    · simp [EditControl.lost_succ]

/-- The claimed nodes of a projector hard-invalidated URGENT, in a state that differs from the first in their claims
alone. -/
theorem nodesInvalidated_of_invalidateAll {s u : State} {p : Slot}
    (hnode : ∀ n, u.node n = { s.node n with claims := (u.node n).claims })
    (hstands : ∀ n, n ∉ s.claimNodes p → u.node n = s.node n) (hsolver : u.solver = s.solver) (hedit : u.edit = s.edit) :
    NodesInvalidated s (invalidateAll .urgent (s.claimNodes p) u) p := by
  have hqueued (n : Nat) : (u.node n).queued = (s.node n).queued := by rw [hnode]
  have hready (n : Nat) : ((u.node n).groupMark && (u.node n).nextValid) = ((s.node n).groupMark && (s.node n).nextValid) := by
    rw [hnode]
  unfold NodesInvalidated
  rw [claimed_eq]
  refine ⟨?solver, ?edit, fun n hn => ?member, fun n hn => ?other⟩
  case solver =>
    rw [solver_invalidateUrgent (nodup_claimNodes s p), hsolver]
    simp only [hqueued]
  case edit =>
    rw [edit_invalidateAll .urgent (nodup_claimNodes s p), hedit]
    simp only [hready]
    rfl
  case member =>
    rw [node_invalidateAll, if_pos hn]
    unfold Node.hardened Node.invalidated
    dsimp only
    rw [hnode n]
    rfl
  case other => rw [node_invalidateAll, if_neg hn, hstands n hn]

theorem nodesInvalidated_invalidateClaimed {s u : State} (p : Slot) (hdome : u.dome = s.dome) (hsolver : u.solver = s.solver)
    (hedit : u.edit = s.edit) : NodesInvalidated s (invalidateClaimed p u) p := by
  have hnode (n : Nat) : u.node n = s.node n := by rw [State.node, hdome]; rfl
  have hnodes : u.claimNodes p = s.claimNodes p := by unfold State.claimNodes; simp only [hnode]
  unfold invalidateClaimed
  rw [hnodes]
  exact nodesInvalidated_of_invalidateAll (fun n => by rw [hnode]) (fun n _ => hnode n) hsolver hedit

theorem NodesInvalidated.congr_right {s t u : State} {p : Slot} (h : NodesInvalidated s t p) (hdome : u.dome = t.dome)
    (hsolver : u.solver = t.solver) (hedit : u.edit = t.edit) : NodesInvalidated s u p := by
  unfold NodesInvalidated State.node at *
  rw [hdome, hsolver, hedit]
  exact h

end Sys2Proof.Machine
end

section
/-! PROOF. What a step of the Projector Table that touches no claim leaves unchanged, and the ramp (O30). -/

namespace Sys2Proof.Machine

open Sys2Proof Sys2Proof.Stating

set_option Elab.async false

/-! ### The frame of a step of the Projector Table -/

theorem Rewrites.dome_eq {s t : State} (h : Rewrites s t) :
    t.dome = { s.dome with nodes := t.dome.nodes, freeCount := t.dome.freeCount } := by
  dsimp only
  rw [← h.cursor, ← h.remembered, ← h.walk]

theorem free_foldl {α : Type} {g : State → α → State} (h : ∀ s a, (g s a).dome.freeCount = s.dome.freeCount)
    (l : List α) (s : State) : (l.foldl g s).dome.freeCount = s.dome.freeCount :=
  foldl_keeps (fun t => t.dome.freeCount = s.dome.freeCount) g (fun t a ht => (h t a).trans ht) l s rfl

/-- A step that changes the node store, and neither the cursor nor the pool nor a claim. -/
structure KeepsClaims (s t : State) : Prop where
  rewrites : Rewrites s t
  free : t.dome.freeCount = s.dome.freeCount
  claims : ∀ n, (t.node n).claims = (s.node n).claims

namespace KeepsClaims

variable {s t u : State}

theorem refl (s : State) : KeepsClaims s s := ⟨Rewrites.refl s, rfl, fun _ => rfl⟩

theorem trans (h : KeepsClaims s t) (h' : KeepsClaims t u) : KeepsClaims s u :=
  ⟨h.rewrites.trans h'.rewrites, h'.free.trans h.free, fun n => (h'.claims n).trans (h.claims n)⟩

theorem of_touches {fs : List Field} (h : Touches fs s t) (hf : fs.contains Field.dome = false := by rfl) :
    KeepsClaims s t :=
  ⟨Rewrites.of_touches h hf, congrArg DomeMap.freeCount (h.dome hf), fun n => congrArg Node.claims (h.node n hf)⟩

theorem ite {c : Prop} [Decidable c] (ht : KeepsClaims s t) (hu : KeepsClaims s u) :
    KeepsClaims s (if c then t else u) := by
  split <;> assumption

theorem refreshAll (ns : List Nat) (s : State) : KeepsClaims s (Machine.refreshAll ns s) where
  rewrites := Rewrites.foldl (fun t n => queueNode_rewrites .normal n t) ns s
  free := free_foldl (fun t n => free_queueNode .normal n t) ns s
  claims n := by
    rw [node_refreshAll]
    split <;> rfl

theorem invalidateAll (cls : QueueClass) (ns : List Nat) (s : State) : KeepsClaims s (Machine.invalidateAll cls ns s) where
  rewrites := Rewrites.foldl (fun t n => hardInvalidate_rewrites cls n t) ns s
  free := free_foldl (fun t n => free_hardInvalidate cls n t) ns s
  claims n := by
    rw [node_invalidateAll]
    split <;> rfl

theorem refreshClaimed (p : Slot) (s : State) : KeepsClaims s (Machine.refreshClaimed p s) := by
  unfold Machine.refreshClaimed
  exact refreshAll (s.claimNodes p) s

theorem invalidateClaimed (p : Slot) (s : State) : KeepsClaims s (Machine.invalidateClaimed p s) := by
  unfold Machine.invalidateClaimed
  exact invalidateAll .urgent (s.claimNodes p) s

/-- A step of the Projector Table that changes no claim. -/
theorem tableStep (h : KeepsClaims s t) (ht : Touches [.dome, .solver, .edit, .projectors, .attention] s t) :
    TableStep s t := by
  refine ⟨?_, h.claims⟩
  have hdome : { s.dome with nodes := t.dome.nodes } = t.dome := by
    rw [h.rewrites.dome_eq, h.free]
  rw [hdome]
  exact ht.frame

end KeepsClaims

/-! ### SET RAMP (R93) -/

theorem setRamp_keepsClaims (p : Slot) (ramp : Nat) (s : State) : KeepsClaims s (setRamp p ramp s) := by
  unfold setRamp
  exact (KeepsClaims.of_touches (modProj_touches s p _)).trans (KeepsClaims.refreshClaimed p _)

theorem proj_refreshClaimed (p : Slot) (s : State) (q : Slot) : (refreshClaimed p s).proj q = s.proj q :=
  proj_congr (refreshClaimed_touches p s).projectors q

theorem proj_setRamp (p : Slot) (ramp : Nat) (s : State) (q : Slot) :
    (setRamp p ramp s).proj q = if q = p then { s.proj p with ramp := ramp } else s.proj q := by
  unfold setRamp
  rw [proj_refreshClaimed, proj_modProj]

/-- Settles O30: the ramp by the soft refresh of the projector's nodes, READ PROJECTOR by its reply. -/
theorem rampAndProjectorRead : Obligations.RampAndProjectorRead := by
  refine ⟨fun s tag slot r0 r1 rest hw => ⟨fun hslot => ?unknown, fun p hp => ⟨fun hv => ?vacant, fun hv => ?ramp⟩⟩,
    fun s tag slot rest hw => ⟨fun hslot => ?unread, fun p hp => ?read⟩⟩
  case unknown =>
    exact congrArg Host.Outcome.next (runRequest_of_waits_same (run := setRampRequest) hw rfl rfl rfl
      (withSlot_none hslot _ _))
  case vacant =>
    exact congrArg Host.Outcome.next (runRequest_of_waits_same (run := setRampRequest) (a := .bare .badProjector) hw rfl rfl
      rfl ((withSlot_val hp _ _).trans (if_pos hv)))
  case ramp =>
    intro ramp
    refine ⟨setRamp p ramp s, ?_, (setRamp_keepsClaims p ramp s).tableStep (setRamp_touches p ramp s).mono,
      nodesRefreshed_refreshClaimed p s _, (setRamp_touches p ramp s).attention, fun q hq => ?_, ?_⟩
    · exact congrArg Host.Outcome.next (runRequest_of_waits (run := setRampRequest) hw rfl rfl rfl
        (f := fun u => startSolve (setRamp p ramp u)) (Inward.startSolve.comp (Inward.setRamp p ramp))
        (a := .ok (twoBytes ramp)) ((withSlot_val hp _ _).trans (if_neg hv)))
    · rw [proj_setRamp, if_neg hq]
    · rw [proj_setRamp, if_pos rfl]
  case unread =>
    exact congrArg Host.Outcome.next (runRequest_of_waits_same (run := readProjectorRequest) hw rfl rfl rfl
      (withSlot_none hslot _ _))
  case read =>
    exact congrArg Host.Outcome.next (runRequest_of_waits_reply (run := readProjectorRequest) hw rfl rfl rfl
      (t := s.modChan p fun c => { c with changeFlag := false }) (a := projectorAnswer p (s.proj p) (s.chan p))
      (withSlot_val hp _ _) rfl (projectorAnswer_fields p _ _))

end Sys2Proof.Machine
end

section
/-! PROOF. The reads that change nothing, and the frame counter by which READ FRAME counts the swaps (O51). -/

namespace Sys2Proof.Machine

open Sys2Proof Sys2Proof.Stating

set_option Elab.async false

/-! ### The codes of the enumerations are their places (R197) -/

theorem code_rate_eq (k : LineRate) : byte k.code = place k [.r115200, .r230400, .r460800, .r921600] := by cases k <;> rfl

theorem code_mode_eq (k : ErrorMode) : byte k.code = place k [.discardReport, .halt] := by cases k <;> rfl

theorem code_receiver_eq (k : ReceiverState) : byte k.code = place k [.disabled, .listening, .halted, .lineDown] := by
  cases k <;> rfl

theorem code_resume_eq (k : ResumeState) : byte k.code = place k [.listening, .halted] := by cases k <;> rfl

theorem code_reportType_eq (k : ReportType) : byte k.code = place k [.drift, .luma, .step] := by cases k <;> rfl

theorem code_loader_eq (k : LoaderState) : byte k.code = place k [.idle, .running, .held, .waiting] := by cases k <;> rfl

theorem code_waitReason_eq (k : WaitReason) : byte k.code = place k [.quota, .step, .yield] := by cases k <;> rfl

theorem code_format_eq (k : RecordFormat) : byte k.code = place k [.compact, .full] := by cases k <;> rfl

theorem code_pacing_eq (k : Pacing) : byte k.code = place k [.burst, .perFrame, .step] := by cases k <;> rfl

theorem code_outcome_eq (k : LoadOutcome) : byte k.code = place k loadOutcomes := by cases k <;> rfl

theorem code_faultReason_eq (k : FaultReason) : byte k.code = place k faultList := by cases k <;> rfl

theorem code_dropReason_eq (k : DropReason) : byte k.code = place k [.dropped, .truncated, .malformed] := by cases k <;> rfl

theorem mask_eq_errorByte (e : ErrorSet) : byte e.mask = errorByte e := by
  unfold ErrorSet.mask errorByte
  rw [bitsToNat_eq_flags]

/-! ### READ ALIGN STATUS (R167) -/

theorem lastField_eq (e : Report × ReportOutcome) : lastField e = lastBytes e := by
  obtain ⟨r, o⟩ := e
  cases r with
  | drift p ring sector du dv =>
    simp only [lastField, lastBytes, Report.type, Report.fieldBytes, u8_eq, s16_eq, byte_toNat]
    cases o <;> rfl
  | luma p v =>
    simp only [lastField, lastBytes, Report.type, Report.fieldBytes, u8_eq, u16_eq, byte_toNat]
    cases o <;> rfl
  | step => cases o <;> rfl

theorem alignAnswer_fields (a : AlignPort) : (alignAnswer a).fields = alignBytes a := by
  have hparts (x y z w : Bool) : packBits [x, y, z, w] = [byte (flags [x, y, z, w])] := packBits_byte (by simp)
  have hflags (x y : Bool) : packBits [x, y] = [byte (flags [x, y])] := packBits_byte (by simp)
  unfold alignAnswer alignBytes Answer.ok
  dsimp only
  rw [hparts, hflags]
  cases a.assembler <;>
    simp only [optional_eq_ifPresent, u8_eq, code_rate_eq, code_mode_eq, code_receiver_eq, code_resume_eq,
      code_reportType_eq, mask_eq_errorByte, funext lastField_eq, List.append_assoc, List.cons_append, List.nil_append] <;> rfl

/-! ### READ LOADER (R181) -/

theorem descriptorFields_eq (d : Descriptor) : descriptorFields d = threeBytes d.start ++ twoBytes d.count
    ++ [place d.format [.compact, .full], place d.pacing [.burst, .perFrame, .step]] ++ twoBytes d.quota := by
  simp only [descriptorFields, u24_eq, u16_eq, u8_eq, code_format_eq, code_pacing_eq, List.append_assoc, List.cons_append,
    List.nil_append]

theorem loaderAnswer_fields (l : Loader) : (loaderAnswer l).fields = loaderBytes l := by
  have hparts (x y z w : Bool) : packBits [x, y, z, w] = [byte (flags [x, y, z, w])] := packBits_byte (by simp)
  have hflags (x y : Bool) : packBits [x, y] = [byte (flags [x, y])] := packBits_byte (by simp)
  unfold loaderAnswer loaderBytes Answer.ok
  dsimp only
  cases hd : l.descriptor <;> cases ha : l.applyResult <;>
    simp only [hparts, hflags, optional_eq_ifPresent, u8_eq, u16_eq_twoBytes, u24_eq, funext descriptorFields_eq,
      code_loader_eq, code_waitReason_eq, code_outcome_eq, code_faultReason_eq, List.append_assoc, List.cons_append,
      List.nil_append] <;> rfl

/-! ### READ EVENTS (R194) -/

theorem detailBytes_eq : Event.detailBytes = detailBytes := by
  funext e
  cases e with
  | fadeDone p retired => cases retired <;> rfl
  | alignError e => exact congrArg (fun b => [b]) (mask_eq_errorByte e)
  | projFault p k => exact congrArg (fun b => [byte p.val, b]) (code_failCause_eq k)
  | loadDone o stored => simp only [Event.detailBytes, detailBytes, u8_eq, u24_eq, code_outcome_eq, List.cons_append, List.nil_append]
  | loadFault o index reason =>
    simp only [Event.detailBytes, detailBytes, u8_eq, u24_eq, code_outcome_eq, code_faultReason_eq, List.cons_append,
      List.nil_append]
  | portDrop r => exact congrArg (fun b => [b]) (code_dropReason_eq r)
  | alignLine up => cases up <;> rfl
  | genlock regained => cases regained <;> rfl
  | _ => rfl

theorem attention_length (s : State) : s.attention.toList.length = 16 := by simp

theorem eventsAnswer_fields (s : State) : (eventsAnswer s).fields = eventsBytes s := by
  have hparts : packBits (s.leadClass.isSome :: (s.attention.toList.map EventRecord.detail).map Option.isSome)
      = threeBytes (flags (s.leadClass.isSome :: (s.attention.toList.map EventRecord.detail).map Option.isSome)) := by
    rw [packBits_eq, ← u24_eq]
    simp only [List.length_cons, List.length_map, attention_length]
    rfl
  unfold eventsAnswer eventsBytes Answer.ok State.statusSet State.maskSet State.maskedSet State.overflowSet
  dsimp only
  rw [hparts, classSet_eq_classesWith, classSet_eq_classesWith, classSet_eq_classesWith, classSet_eq_classesWith,
    detailBytes_eq, optional_eq_ifPresent, funext (optional_eq_ifPresent detailBytes)]
  rfl

/-- One flag or presence bit (R197). -/
theorem packBits_one (b : Bool) : packBits [b] = [if b then 1 else 0] := by cases b <;> rfl

/-! ### READ SOLVER, READ GAINS and READ FRAME (R50, R105, R148) -/

theorem solverAnswer_fields (s : State) : (solverAnswer s).fields = match s.solver.flight with
    | none => [0, 0] ++ twoBytes s.solver.urgent.length ++ twoBytes s.solver.normal.length
    | some f => [7, 1] ++ twoBytes s.solver.urgent.length ++ twoBytes s.solver.normal.length ++ twoBytes f.node
      ++ [(match f.cls with | .normal => 0 | .urgent => 1), (if (s.node f.node).dirty then 1 else 0)] := by
  unfold solverAnswer Answer.ok
  dsimp only
  cases s.solver.flight with
  | none => rfl
  | some f =>
    have hcls : u8 f.cls.code = [match f.cls with | .normal => 0 | .urgent => 1] := by cases f.cls <;> rfl
    have hbusy : packBits [true, true, true] = [7] := rfl
    have hsolving : u8 (if True then 1 else 0) = [1] := rfl
    simp only [Option.isSome_some, hbusy, hsolving, optional_eq_ifPresent, ifPresent, u16_eq_twoBytes, hcls, packBits_one,
      List.append_assoc, List.cons_append, List.nil_append]

theorem packBits_two {bs : List Bool} (h : bs.length = 16) : packBits bs = twoBytes (flags bs) := by
  rw [packBits_eq, h]
  rfl

theorem projectors_length (s : State) : s.projectors.toList.length = 16 := by simp

theorem gainEntry_eq (r : Projector) : gainEntry r = [place r.state projStates] ++ ifPresent twoBytes r.luminance
    ++ twoBytes r.gainTarget ++ twoBytes r.gainLive := by
  rw [gainEntry, u8_eq, code_state_eq, optional_eq_ifPresent]
  rfl

theorem gainsAnswer_fields (s : State) : (gainsAnswer s).fields = gainsBytes s s.reference := by
  have hlimited : packBits (s.projectors.toList.map fun r => r.limited) = twoBytes (flags (s.projectors.toList.map Projector.limited)) :=
    packBits_two (by rw [List.length_map, projectors_length])
  have hluminance : packBits (s.projectors.toList.map fun r => r.luminance.isSome)
      = twoBytes (flags (s.projectors.toList.map fun r => r.luminance.isSome)) :=
    packBits_two (by rw [List.length_map, projectors_length])
  have hreference : packBits [s.reference.isSome] = [byte (flags [s.reference.isSome])] := packBits_byte (by simp)
  unfold gainsAnswer gainsBytes Answer.ok
  dsimp only
  rw [hlimited, hluminance, hreference, optional_eq_ifPresent, funext gainEntry_eq]
  rfl

theorem frameAnswer_fields (t : FrameTimer) : (frameAnswer t).fields =
    [(if t.measured.isSome then 1 else 0 : Byte), (match t.state with | .seeking => 0 | .genlocked => 1 | .freeRun => 2)]
      ++ twoBytes t.period ++ (match t.measured with | some m => twoBytes m | none => []) ++ [byte t.run.length]
      ++ [byte t.counter.toNat, byte (t.counter.toNat / 256), byte (t.counter.toNat / 65536),
        byte (t.counter.toNat / 16777216), (match t.content with | .present => 0 | .absent => 1)] := by
  have hcounter : u32 t.counter.toNat = [byte t.counter.toNat, byte (t.counter.toNat / 256), byte (t.counter.toNat / 65536),
      byte (t.counter.toNat / 16777216)] := by
    simp only [u32, leBytes, byte, Nat.div_div_eq_div_mul]
  have hstate : u8 t.state.code = [match t.state with | .seeking => 0 | .genlocked => 1 | .freeRun => 2] := by
    cases t.state <;> rfl
  have hcontent : u8 t.content.code = [match t.content with | .present => 0 | .absent => 1] := by cases t.content <;> rfl
  have hmeasured : optional u16 t.measured = match t.measured with | some m => twoBytes m | none => [] := by
    cases t.measured <;> rfl
  unfold frameAnswer Answer.ok
  dsimp only
  rw [hcounter, hstate, hcontent, hmeasured, packBits_one, u8_eq, u16_eq]
  simp only [List.append_assoc, List.cons_append, List.nil_append]

/-- A read: the request is answered and nothing else changes. -/
theorem runRequest_read {s : State} {code tag : Byte} {rest : List Request} (hw : Waits s code tag [] rest) {c : Nat}
    (hc : code.toNat = c) (hk : requiredLength c = some 2) {read : State → Answer} {fields : List Byte}
    (hread : ∀ p, read (s.setPort p) = .ok fields) :
    runRequest c (fun _ t => (t, read t)) s = answered s rest tag .ok fields :=
  runRequest_of_waits_same (a := .ok fields) hw hc hk rfl (by rw [hread])

/-! ### The frame counter (R142, R148) -/

/-- The counter and the owed swaps move together: the counter less the owed swaps stands. -/
def Counted (s t : State) : Prop :=
  t.timer.counter + BitVec.ofNat 32 s.owed.swap = s.timer.counter + BitVec.ofNat 32 t.owed.swap

theorem Counted.of_eq {s t : State} (hcounter : t.timer.counter = s.timer.counter) (howed : t.owed.swap = s.owed.swap) :
    Counted s t := by
  unfold Counted
  rw [hcounter, howed]

theorem counted_boundary {s u : State} (hcounter : u.timer.counter = s.timer.counter) (howed : u.owed.swap = s.owed.swap) :
    Counted s (boundary u) := by
  have hnext : (boundary u).timer.counter = s.timer.counter + 1 := congrArg (· + 1) hcounter
  have hswaps : (boundary u).owed.swap = s.owed.swap + 1 := congrArg (· + 1) howed
  unfold Counted
  rw [hnext, hswaps, BitVec.ofNat_add, BitVec.add_assoc, BitVec.add_comm 1]
  rfl

theorem counted_searchPulse (now : Nat) (s : State) : Counted s (searchPulse now s) := by
  have hrun (run : List Nat) : Counted s (s.setRun run) := Counted.of_eq rfl rfl
  unfold searchPulse
  split
  · exact hrun _
  · split
    · exact hrun _
    · exact hrun _
  · split
    · split
      · exact counted_boundary (u := s.setTimer (s.timer.acquired now _)) rfl rfl
      · exact hrun _
    · exact hrun _

theorem counted_followPulse (now : Nat) (s : State) : Counted s (followPulse now s) := by
  unfold followPulse
  dsimp only
  split
  · exact Counted.of_eq rfl rfl
  · exact counted_boundary (u := s.setTimer (s.timer.followed now _)) rfl rfl

theorem exec_counted {c : Instr} {s t : State} (e : exec c s = .next t) (hline : c ≠ .resetLine) (hdevice : c ≠ .resetDevice)
    (hswap : c ≠ .swap) : Counted s t := by
  have hframe := exec_touches c s t e
  cases c
  case resetLine => exact absurd rfl hline
  case resetDevice => exact absurd rfl hdevice
  case swap => exact absurd rfl hswap
  case setFramePeriod =>
    obtain rfl := Host.Outcome.next.inj e
    refine runRequest_keeps (P := Counted s) (fun _ _ h => h) (fun r t ht => ?_) (Counted.of_eq rfl rfl)
    exact ht
  case periodTimerExpiry =>
    obtain rfl := Host.Outcome.next.inj e
    split
    · exact Counted.of_eq rfl rfl
    · exact counted_boundary (u := s.setTimer _) rfl rfl
  case genlockPulse =>
    obtain rfl := Host.Outcome.next.inj e
    split
    · exact counted_followPulse _ s
    · exact counted_searchPulse _ s
    · exact counted_searchPulse _ s
  case lossWatchdogExpiry =>
    obtain rfl := Host.Outcome.next.inj e
    split
    · exact Counted.of_eq rfl rfl
    · exact counted_boundary (u := s.setTimer (s.timer.lost _)) rfl rfl
  case rasterFrameStart =>
    obtain rfl := Host.Outcome.next.inj e
    split
    · exact Counted.of_eq rfl rfl
    · exact Counted.of_eq rfl rfl
  case fadeStep =>
    obtain rfl := Host.Outcome.next.inj e
    split
    · exact Counted.of_eq rfl rfl
    · next howed =>
      have hsteps := Touches.foldl (fs := Field.inner) fadeStepSlot fadeStepSlot_touches slots
        { s with owed := { s.owed with fade := s.owed.fade - 1 } }
      exact Counted.of_eq (congrArg FrameTimer.counter hsteps.timer) (Eq.trans (congrArg Owed.swap hsteps.owed) rfl)
  case gainSlew =>
    obtain rfl := Host.Outcome.next.inj e
    split
    · exact Counted.of_eq rfl rfl
    · exact Counted.of_eq rfl rfl
  case quotaRenewal =>
    obtain rfl := Host.Outcome.next.inj e
    split
    · exact Counted.of_eq rfl rfl
    · next howed =>
      have hquota := renewQuota_touches { s with owed := { s.owed with quota := s.owed.quota - 1 } }
      exact Counted.of_eq (congrArg FrameTimer.counter hquota.timer) (Eq.trans (congrArg Owed.swap hquota.owed) rfl)
  all_goals exact Counted.of_eq (congrArg FrameTimer.counter hframe.timer) (congrArg Owed.swap hframe.owed)

theorem exec_swap_counted {s t : State} (e : exec .swap s = .next t) :
    t.timer.counter + BitVec.ofNat 32 s.owed.swap
      = s.timer.counter + BitVec.ofNat 32 t.owed.swap + if 0 < s.owed.swap then 1 else 0 := by
  obtain rfl := Host.Outcome.next.inj e
  split
  · next hnone =>
    rw [hnone, if_neg (Nat.lt_irrefl 0)]
    exact (BitVec.add_zero _).symm
  · next howed =>
    have hswap := swapAll_touches { s with owed := { s.owed with swap := s.owed.swap - 1 } }
    have hless : BitVec.ofNat 32 s.owed.swap = BitVec.ofNat 32 (s.owed.swap - 1) + 1 := by
      change _ = _ + BitVec.ofNat 32 1
      rw [← BitVec.ofNat_add, Nat.sub_add_cancel (Nat.pos_of_ne_zero howed)]
    rw [if_pos (Nat.pos_of_ne_zero howed), hswap.timer, hswap.owed, hless, BitVec.add_assoc]

/-! ### The reads -/

theorem gainsBytes_length {s : State} (h : ∀ p, (s.proj p).luminance.isSome = true) (l : Nat) :
    (gainsBytes s (some l)).length = 123 := by
  have hentry (r : Projector) (hr : r.luminance.isSome = true) :
      ([place r.state projStates] ++ ifPresent twoBytes r.luminance ++ twoBytes r.gainTarget ++ twoBytes r.gainLive).length
        = 7 := by
    obtain ⟨k, hk⟩ := Option.isSome_iff_exists.1 hr
    rw [hk]
    rfl
  have hentries : (s.projectors.toList.map fun r => ([place r.state projStates] ++ ifPresent twoBytes r.luminance
      ++ twoBytes r.gainTarget ++ twoBytes r.gainLive).length) = List.replicate 16 7 := by
    refine List.eq_replicate_iff.2 ⟨by simp, fun k hk => ?_⟩
    rw [projectors_toList, List.map_map] at hk
    obtain ⟨p, -, rfl⟩ := List.mem_map.1 hk
    exact hentry _ (h p)
  have hsum : (s.projectors.toList.flatMap fun r => [place r.state projStates] ++ ifPresent twoBytes r.luminance
      ++ twoBytes r.gainTarget ++ twoBytes r.gainLive).length = 112 := by
    rw [List.length_flatMap, hentries]
    rfl
  unfold gainsBytes
  dsimp only
  rw [List.length_append, hsum]
  rfl

/-- Settles O51: the reads by their replies, and the counter's difference by the swaps taken between. -/
theorem readsReplyAndChangeNothing : Obligations.ReadsReplyAndChangeNothing := by
  refine ⟨fun s tag rest c code fields hc hw => ?unit, fun s tag rest hw hnone => ?frame, fun s tag rest hw howed => ?wait,
    fun c s t e hline hdevice => ?counter, fun s tag rest hw => ?solver, fun s tag rest hw => ⟨fun l hl => ?gains, fun h => ?noGains⟩,
    fun s tag rest hw hall hsome => ?length⟩
  case unit =>
    simp only [List.mem_cons, List.not_mem_nil, or_false, Prod.mk.injEq] at hc
    rcases hc with ⟨rfl, rfl, rfl⟩ | ⟨rfl, rfl, rfl⟩ | ⟨rfl, rfl, rfl⟩
    · exact congrArg Host.Outcome.next (runRequest_read (read := fun t => alignAnswer t.align) hw rfl rfl
        fun p => congrArg Answer.ok (alignAnswer_fields s.align))
    · exact congrArg Host.Outcome.next (runRequest_read (read := fun t => loaderAnswer t.loader) hw rfl rfl
        fun p => congrArg Answer.ok (loaderAnswer_fields s.loader))
    · exact congrArg Host.Outcome.next (runRequest_read (read := eventsAnswer) hw rfl rfl
        fun p => congrArg Answer.ok (eventsAnswer_fields (s.setPort p)))
  case frame =>
    have hturn : ¬(0 < s.owed.swap ∧ s.readsFrame = true) := fun h => by omega
    refine congrArg Host.Outcome.next ((if_neg hturn).trans ?_)
    exact runRequest_read (read := fun t => frameAnswer t.timer) hw rfl rfl
      fun p => congrArg Answer.ok (frameAnswer_fields s.timer)
  case wait =>
    have hreads : s.readsFrame = true := by
      obtain ⟨hhead, -⟩ := hw
      rw [State.readsFrame, hhead]
      rfl
    exact congrArg Host.Outcome.next (if_pos ⟨howed, hreads⟩)
  case counter =>
    by_cases hswap : c = .swap
    · subst hswap
      simpa using exec_swap_counted e
    · have h := exec_counted e hline hdevice hswap
      simp only [hswap, false_and, if_false]
      exact h.trans (BitVec.add_zero _).symm
  case solver =>
    exact congrArg Host.Outcome.next (runRequest_read (read := solverAnswer) hw rfl rfl
      fun p => congrArg Answer.ok (solverAnswer_fields (s.setPort p)))
  case gains =>
    refine congrArg Host.Outcome.next (runRequest_read (read := gainsAnswer) hw rfl rfl
      fun p => congrArg Answer.ok ((gainsAnswer_fields (s.setPort p)).trans ?_))
    rw [show (s.setPort p).reference = some l from (reference_eq_some_iff s l).2 hl]
    rfl
  case noGains =>
    refine congrArg Host.Outcome.next (runRequest_read (read := gainsAnswer) hw rfl rfl
      fun p => congrArg Answer.ok ((gainsAnswer_fields (s.setPort p)).trans ?_))
    rw [show (s.setPort p).reference = none from (reference_eq_none_iff s).2 h]
    rfl
  case length =>
    obtain ⟨p, hp⟩ := hsome
    obtain ⟨k, hk⟩ := Option.isSome_iff_exists.1 (hall p)
    have href : s.reference ≠ none := fun hnone => by
      have hp' := (reference_eq_none_iff s).1 hnone p hp
      rw [hk] at hp'
      cases hp'
    obtain ⟨l, hl⟩ := Option.ne_none_iff_exists'.1 href
    refine ⟨gainsBytes s (some l), ?_, by rw [gainsBytes_length hall]⟩
    refine congrArg Host.Outcome.next (runRequest_read (read := gainsAnswer) hw rfl rfl
      fun p => congrArg Answer.ok ((gainsAnswer_fields (s.setPort p)).trans ?_))
    rw [show (s.setPort p).reference = some l from hl]
    rfl

end Sys2Proof.Machine
end

section
/-! PROOF. The lock sequence of an Output Channel, and the recovery check (O37). -/

namespace Sys2Proof.Machine

open Sys2Proof Sys2Proof.Stating

set_option Elab.async false

/-! ### What stands after a step that recomputes nothing -/

theorem TargetsStand.of_raises {s t : State} {es : List Event} (h : Raises s t es) (hes : ∀ e ∈ es, e.cls ≠ 8)
    (hp : ∀ p, (t.proj p).gainTarget = (s.proj p).gainTarget ∧ (t.proj p).limited = (s.proj p).limited) :
    TargetsStand s t := ⟨h.stands hes, hp⟩

/-- One record changed, and neither its target nor its limited flag. -/
theorem targets_modProj (s : State) (p : Slot) {f : Projector → Projector}
    (hf : (f (s.proj p)).gainTarget = (s.proj p).gainTarget ∧ (f (s.proj p)).limited = (s.proj p).limited) (q : Slot) :
    ((s.modProj p f).proj q).gainTarget = (s.proj q).gainTarget ∧ ((s.modProj p f).proj q).limited = (s.proj q).limited := by
  rw [proj_modProj]
  split
  · next hq => rw [hq]; exact hf
  · exact ⟨rfl, rfl⟩

/-! ### The recovery check (R91) -/

/-- What the recovery check asks (R91). -/
def Recovers (s : State) (p : Slot) : Prop :=
  (s.proj p).state = .failed ∧ (s.chan p).taken = .ready ∧ (s.chan p).lock = .locked

theorem recoveryCheck_of_not {s : State} {p : Slot} (h : ¬Recovers s p) : recoveryCheck p s = s := if_neg h

theorem recoveryCheck_of_recovers {s : State} {p : Slot} (h : Recovers s p) : recoveryCheck p s =
    (s.modProj p fun r => { r with state := .parked, failCause := none }).raise (.projRecover p) := if_pos h

theorem recovered_recoveryCheck {s : State} {p : Slot} (h : Recovers s p) : Recovered s (recoveryCheck p s) p := by
  rw [recoveryCheck_of_recovers h]
  have hraises : Raises s ((s.modProj p fun r => { r with state := .parked, failCause := none }).raise (.projRecover p))
      [.projRecover p] := (Raises.raise _ _).congr_left rfl
  refine ⟨?_, hraises.raised rfl, TargetsStand.of_raises hraises (by simp [Event.cls]) fun q => ?_, rfl, rfl, rfl, rfl⟩
  · rw [proj_raise, proj_modProj, if_pos rfl]
  · rw [proj_raise]
    exact targets_modProj s p (f := fun r => { r with state := .parked, failCause := none }) ⟨rfl, rfl⟩ q

theorem proj_recoveryCheck_of_ne (s : State) {p q : Slot} (hq : q ≠ p) : (recoveryCheck p s).proj q = s.proj q := by
  by_cases h : Recovers s p
  · rw [recoveryCheck_of_recovers h]
    rw [proj_raise, proj_modProj, if_neg hq]
  · rw [recoveryCheck_of_not h]

/-! ### The lock sequence (R125 to R129) -/

theorem modChan_modChan (s : State) (p : Slot) (f g : Channel → Channel) :
    (s.modChan p f).modChan p g = s.modChan p fun c => g (f c) := by
  have hchan : (s.modChan p f).chan p = f (s.chan p) := by rw [chan_modChan, if_pos rfl]
  unfold State.modChan at *
  rw [hchan]
  simp

theorem attemptFails_of_retry {s : State} {p : Slot} (h : (s.chan p).attempts < 3) : attemptFails p s =
    s.modChan p fun c => { c with lock := .awaitLock, attempts := c.attempts + 1, starts := c.starts + 1 } := if_pos h

theorem startSolve_modChan {s : State} (h : NothingToBegin s) (p : Slot) (f : Channel → Channel) :
    startSolve (s.modChan p f) = s.modChan p f := startSolve_of_nothing h

theorem current_iff (c : Channel) (k : Nat) : c.current k = true ↔ k = c.starts := by
  unfold Channel.current
  rw [beq_iff_eq]

theorem passes_iff (c : Channel) (n : Nat) :
    c.passes n = true ↔ n ≤ c.expected + c.tolerance ∧ c.expected ≤ n + c.tolerance := decide_eq_true_iff

theorem exec_lockIndicationFall_of_stale {s : State} {p : Slot} {k : Nat}
    (h : (s.chan p).lock ≠ .validating ∧ (s.chan p).lock ≠ .locked ∨ k ≠ (s.chan p).starts) :
    exec (.lockIndicationFall ⟨p, k⟩) s = .next s := by
  refine congrArg Host.Outcome.next ?_
  rcases h with ⟨hv, hl⟩ | hk
  · have hfall : takeFall p s = s := by
      unfold takeFall
      cases hlock : (s.chan p).lock
      case validating => exact absurd hlock hv
      case locked => exact absurd hlock hl
      all_goals rfl
    exact (if_congr Iff.rfl hfall rfl).trans (ite_self s)
  · exact if_neg fun hc => hk ((current_iff _ _).1 hc)

theorem exec_lockIndicationFall_of_last {s : State} {p : Slot} :
    exec (.lockIndicationFall ⟨p, (s.chan p).starts⟩) s = .next (takeFall p s) :=
  congrArg Host.Outcome.next (if_pos ((current_iff _ _).2 rfl))

theorem takeFall_of_validating {s : State} {p : Slot} (h : (s.chan p).lock = .validating) :
    takeFall p s = startSolve (attemptFails p s) := by
  unfold takeFall
  rw [h]

theorem exec_windowCompletion_of_fail {s : State} {p : Slot} {n : Nat} (hv : (s.chan p).lock = .validating)
    (hn : (s.chan p).passes (min n 1048575) = false) : exec (.windowCompletion p n) s =
      .next (startSolve (attemptFails p (s.modChan p fun c => { c with lastCount := some (min n 1048575) }))) := by
  refine congrArg Host.Outcome.next ((if_pos hv).trans ?_)
  exact if_neg (by rw [show recordedCount n = min n 1048575 from rfl, hn]; exact Bool.false_ne_true)

theorem exec_windowCompletion_of_pass {s : State} {p : Slot} {n : Nat} (hv : (s.chan p).lock = .validating)
    (hn : (s.chan p).passes (min n 1048575) = true) : exec (.windowCompletion p n) s =
      .next (recoveryCheck p (s.modChan p fun c => { c with lock := .locked, lastCount := some (min n 1048575) })) := by
  refine congrArg Host.Outcome.next ((if_pos hv).trans ((if_pos hn).trans ?_))
  unfold attemptPasses
  rw [modChan_modChan]
  rfl

/-- Settles O37: the lock sequence by its states, and a passing window by the recovery check. -/
theorem lockAttemptsFollowTable : Obligations.LockAttemptsFollowTable := by
  refine ⟨fun s p => ?attempt, fun s p n hv hlow hhigh => ?passing⟩
  case attempt =>
    intro next last retried
    refine ⟨fun h => ?started, fun k h => ?notStarted, fun h => ?risen, fun k h => ?notRisen, fun h h3 hn => ?timeout,
      fun h h3 hn => ?fall, fun k h => exec_lockIndicationFall_of_stale h, fun n h h3 hn hout => ?window⟩
    case started => exact congrArg Host.Outcome.next (if_pos ⟨h, (current_iff _ _).2 rfl⟩)
    case notStarted =>
      exact congrArg Host.Outcome.next (if_neg fun ⟨hl, hc⟩ => h.elim (· hl) (· ((current_iff _ _).1 hc)))
    case risen => exact congrArg Host.Outcome.next (if_pos ⟨h, (current_iff _ _).2 rfl⟩)
    case notRisen =>
      exact congrArg Host.Outcome.next (if_neg fun ⟨hl, hc⟩ => h.elim (· hl) (· ((current_iff _ _).1 hc)))
    case timeout =>
      refine congrArg Host.Outcome.next ((if_pos h).trans ?_)
      rw [attemptFails_of_retry h3, startSolve_modChan hn]
      rfl
    case fall =>
      rw [exec_lockIndicationFall_of_last, takeFall_of_validating h, attemptFails_of_retry h3, startSolve_modChan hn]
      rfl
    case window =>
      have hfails : (s.chan p).passes (min n 1048575) = false := by
        rw [Bool.eq_false_iff, ne_eq, passes_iff]
        omega
      have hattempts : ((s.modChan p fun c => { c with lastCount := some (min n 1048575) }).chan p).attempts < 3 := by
        rw [chan_modChan, if_pos rfl]
        exact h3
      rw [exec_windowCompletion_of_fail h hfails, attemptFails_of_retry hattempts, modChan_modChan, startSolve_modChan hn]
      rfl
  case passing =>
    have hpasses : (s.chan p).passes (min n 1048575) = true := (passes_iff _ _).2 ⟨hhigh, hlow⟩
    generalize hu : (s.modChan p fun c => { c with lock := .locked, lastCount := some (min n 1048575) }) = u
    have hchan : u.chan p = { s.chan p with lock := .locked, lastCount := some (min n 1048575) } := by
      rw [← hu, chan_modChan, if_pos rfl]
    refine ⟨recoveryCheck p u, by rw [exec_windowCompletion_of_pass hv hpasses, hu], ?frame, fun q hq => ?other,
      fun hfailed hready => ?recovered, fun h => ?stands⟩
    case frame =>
      refine (recoveryCheck_touches p u).frame.trans ?_
      subst hu
      rfl
    case other =>
      rw [proj_recoveryCheck_of_ne u hq, ← hu]
      rfl
    case recovered =>
      have h : Recovers u p := ⟨by rw [← hu]; exact hfailed, by rw [hchan]; exact hready, by rw [hchan]⟩
      have hrecovered := recovered_recoveryCheck h
      generalize recoveryCheck p u = t at hrecovered ⊢
      subst hu
      exact hrecovered
    case stands =>
      have hnot : ¬Recovers u p := fun ⟨hf, hr, _⟩ => by
        rw [hchan] at hr
        rw [← hu] at hf
        exact h.elim (· hf) (· hr)
      rw [recoveryCheck_of_not hnot, ← hu]
      exact ⟨rfl, rfl⟩

end Sys2Proof.Machine
end

section
/-! PROOF. The Report Executor's three reports (O44). -/

namespace Sys2Proof.Machine

open Sys2Proof Sys2Proof.Stating

set_option Elab.async false

/-! ### A report taken from the head of the queue (R159) -/

/-- A report applied by an operation that neither reads nor changes the port it came from. -/
theorem runReport_of_inward {s : State} {r : Report} {queue : List Report} (hq : s.align.queue = r :: queue)
    {f : State → State} (hf : Inward f) {o : ReportOutcome} {apply : Report → State → Option (State × ReportOutcome)}
    (happly : apply r (s.setAlign { s.align with queue := queue }) = some (f (s.setAlign { s.align with queue := queue }), o)) :
    runReport apply s = { f s with align := { s.align with queue := queue, last := some (r, o) } } := by
  unfold runReport
  rw [hq]
  dsimp only
  rw [happly, hf.setAlign]
  rfl

theorem runReport_of_same {s : State} {r : Report} {queue : List Report} (hq : s.align.queue = r :: queue)
    {o : ReportOutcome} {apply : Report → State → Option (State × ReportOutcome)}
    (happly : apply r (s.setAlign { s.align with queue := queue }) = some (s.setAlign { s.align with queue := queue }, o)) :
    runReport apply s = { s with align := { s.align with queue := queue, last := some (r, o) } } :=
  runReport_of_inward hq Inward.id happly

/-! ### DRIFT (R160) -/

/-- A claim changed, as the statements write it. -/
theorem modClaim_eq (r : Node) (p : Slot) (f : Claim → Claim) :
    r.modClaim p f = { r with claims := r.claims.map fun d => if d.projector = p then f d else d } := by
  simp only [Node.modClaim, beq_iff_eq]

theorem slotOf_eq_some_iff {b : Nat} {p : Slot} : slotOf b = some p ↔ b = p.val := by
  refine ⟨fun h => ?_, fun h => by rw [h, slotOf_val]⟩
  by_cases hb : b < 16
  · rw [slotOf, dif_pos hb, Option.some.injEq] at h
    exact congrArg Fin.val h
  · rw [slotOf_none (by omega)] at h
    cases h

theorem driftTarget_eq_some_iff {s : State} {slot ring sector n : Nat} {p : Slot} {c : Claim} :
    driftTarget s slot ring sector = some (n, p, c) ↔
      slot = p.val ∧ resolveNode ring sector = some n ∧ claimBy (s.node n).claims p = some c ∧ c.pendingNew = false := by
  rw [← slotOf_eq_some_iff]
  unfold driftTarget
  cases slotOf slot with
  | none => simp
  | some q =>
    cases resolveNode ring sector with
    | none => simp
    | some m =>
      dsimp only
      cases hc : claimBy (s.node m).claims q with
      | none =>
        refine ⟨fun h => (by cases h), fun ⟨hp, hn, hclaim, _⟩ => ?_⟩
        obtain rfl := Option.some.inj hp
        obtain rfl := Option.some.inj hn
        rw [hc] at hclaim
        cases hclaim
      | some d =>
        dsimp only
        constructor
        · intro h
          split at h
          · cases h
          · next hnew =>
            cases h
            exact ⟨rfl, rfl, hc, Bool.eq_false_iff.2 hnew⟩
        · rintro ⟨hp, hn, hclaim, hnew⟩
          obtain rfl := Option.some.inj hp
          obtain rfl := Option.some.inj hn
          rw [hc] at hclaim
          obtain rfl := Option.some.inj hclaim
          rw [hnew, if_neg Bool.false_ne_true]

theorem driftSaturates_eq (c : Claim) (du dv : Int) : c.driftSaturates du dv =
    !decide (saturate (c.driftBase.tu + du) = c.driftBase.tu + du ∧ saturate (c.driftBase.tv + dv) = c.driftBase.tv + dv) := by
  unfold Claim.driftSaturates Claim.drifted
  refine congrArg Bool.not ?_
  rw [Bool.eq_iff_iff, beq_iff_eq, decide_eq_true_iff, Trim.mk.injEq]

theorem Inward.correctClaim (n : Nat) (p : Slot) (c : Claim) (du dv : Int) : Inward (Machine.correctClaim n p c du dv) := by
  have hinvalidated : Inward fun s => Machine.hardInvalidate .normal n
      (s.modNode n fun r => r.modClaim p fun d => { d with nextTrim := some (c.drifted du dv) }) :=
    comp (Inward.hardInvalidate .normal n) (Inward.modNode n _)
  unfold Machine.correctClaim
  cases c.driftSaturates du dv
  · exact comp Inward.startSolve hinvalidated
  · exact comp Inward.startSolve (hinvalidated.thenRaise _)

/-! ### The obligation -/

theorem releaseLoader_eq (credit : Bool) (s : State) : releaseLoader credit s =
    s.setLoader (({ s.loader with state := .running, reason := none } : Loader).decide credit s.failoverOwed) := rfl

/-- Settles O44: each report by its rule. -/
theorem reportsAreApplied : Obligations.ReportsAreApplied := by
  intro s r queue hq recorded
  refine ⟨fun slot ring sector du dv hr => ⟨fun hnone => ?noTarget, fun p n c hp hn hc hnew => ?drift⟩,
    fun slot value hr => ⟨fun hnone => ?noSlot, fun p hp hv => ?luma⟩,
    fun hr => ⟨fun hw hstep => ?credit, fun h => ?ignored⟩⟩
  case noTarget =>
    subst hr
    refine congrArg Host.Outcome.next (runReport_of_same hq ?_)
    have htarget : driftTarget s slot.toNat ring.toNat sector.toNat = none := by
      refine Option.eq_none_iff_forall_not_mem.2 fun ⟨n, p, c⟩ h => ?_
      obtain ⟨hp, hn, hc, hnew⟩ := driftTarget_eq_some_iff.1 h
      rw [hnone p n c hp hn hc] at hnew
      cases hnew
    refine congrArg some ?_
    unfold applyDrift
    rw [show driftTarget (s.setAlign { s.align with queue := queue }) slot.toNat ring.toNat sector.toNat = none from htarget]
  case drift =>
    subst hr
    intro base u' v' exact'
    have htarget : driftTarget s slot.toNat ring.toNat sector.toNat = some (n, p, c) :=
      driftTarget_eq_some_iff.2 ⟨hp, hn, hc, hnew⟩
    have hexec : exec .driftReport s = .next (recorded (correctClaim n p c du dv s)
        (if c.driftSaturates du dv then .saturated else .applied)) := by
      refine congrArg Host.Outcome.next (runReport_of_inward hq (Inward.correctClaim n p c du dv) ?_)
      refine congrArg some ?_
      unfold applyDrift
      rw [show driftTarget (s.setAlign { s.align with queue := queue }) slot.toNat ring.toNat sector.toNat = some (n, p, c)
        from htarget]
    have hsaturates : c.driftSaturates du dv = !exact' := driftSaturates_eq c du dv
    refine ⟨s.modNode n fun r => r.modClaim p fun d => { d with nextTrim := some (c.drifted du dv) }, rfl,
      fun m hm => ?other, ?node, fun he => ?exact, fun he => ?saturated⟩
    case other => rw [node_modNode, if_neg hm]
    case node =>
      rw [node_modNode, if_pos rfl, modClaim_eq]
      rfl
    case exact =>
      rw [hexec, correctClaim, hsaturates, he]
      rfl
    case saturated =>
      rw [hexec, correctClaim, hsaturates, he]
      rfl
  case noSlot =>
    subst hr
    refine congrArg Host.Outcome.next (runReport_of_same hq (congrArg some ?_))
    unfold applyLuma
    cases hslot : slotOf slot.toNat with
    | none => rfl
    | some p => exact if_pos (hnone p (slotOf_eq_some_iff.1 hslot))
  case luma =>
    subst hr
    have hstored : Inward (storeLuminance p value) := by
      intro u o
      unfold storeLuminance
      exact Inward.recomputeGains (u.modProj p fun r => { r with luminance := if value = 0 then none else some value }) o
    refine congrArg Host.Outcome.next (runReport_of_inward hq hstored (congrArg some ?_))
    unfold applyLuma
    rw [slotOf_eq_some_iff.2 hp]
    exact if_neg hv
  case credit =>
    subst hr
    have hwaits : s.loader.waitsFor .step = true := (waitsFor_iff _ _).2 ⟨hw, hstep⟩
    refine congrArg Host.Outcome.next ?_
    refine (runReport_of_inward hq (f := releaseLoader true) (fun _ _ => rfl) (congrArg some (if_pos hwaits))).trans ?_
    rw [releaseLoader_eq, failoverOwed_eq]
    rfl
  case ignored =>
    subst hr
    have hnot : ¬s.loader.waitsFor .step = true := fun hwaits => by
      obtain ⟨hw, hstep⟩ := (waitsFor_iff _ _).1 hwaits
      exact h.elim (· hw) (· hstep)
    exact congrArg Host.Outcome.next (runReport_of_same hq (congrArg some (if_neg hnot)))

end Sys2Proof.Machine
end

section
/-! PROOF. The yield report, which releases a loader that waits for failovers (R173), and what the freeing of a claim does
to the counts and the events (R14, R76). -/

namespace Sys2Proof.Machine

open Sys2Proof Sys2Proof.Stating

set_option Elab.async false

/-! ### The yield report (R173) -/

/-- No step of these raises a failover outstanding from none, and the yield report follows the last. -/
structure Yields (s t : State) : Prop where
  lowers : FailoverOwed t → FailoverOwed s
  follows : YieldFollows s t

namespace Yields

variable {s t u : State}

/-- A step that leaves the loader, and leaves failovers outstanding if there were any. -/
theorem of_owed (hloader : t.loader = s.loader) (howed : FailoverOwed t ↔ FailoverOwed s) : Yields s t :=
  ⟨howed.1, fun _ _ hs ht => absurd (howed.2 hs) ht, fun _ => hloader⟩

theorem of_same (hloader : t.loader = s.loader) (h : ∀ p, (t.proj p).failover = (s.proj p).failover) : Yields s t :=
  of_owed hloader (exists_congr fun p => by rw [h p])

theorem refl (s : State) : Yields s s := of_owed rfl Iff.rfl

theorem trans (h : Yields s t) (h' : Yields t u) : Yields s u := by
  obtain ⟨hlower, hrelease, hstand⟩ := h
  obtain ⟨hlower', hrelease', hstand'⟩ := h'
  refine ⟨fun hu => hlower (hlower' hu), fun hw hr hs hu => ?_, fun hor => ?_⟩
  · by_cases ht : FailoverOwed t
    · have hl : t.loader = s.loader := hstand (.inr (.inr (.inr ht)))
      rw [← hl]
      exact hrelease' (by rw [hl]; exact hw) (by rw [hl]; exact hr) ht hu
    · rw [hstand' (.inr (.inr (.inl ht)))]
      exact hrelease hw hr hs ht
  · have hl : t.loader = s.loader := hstand (hor.imp_right (.imp_right (.imp_right hlower')))
    refine (hstand' ?_).trans hl
    rw [hl]
    exact hor.imp_right (.imp_right (.imp_left fun hs ht => hs (hlower ht)))

theorem ite {c : Prop} [Decidable c] (ht : c → Yields s t) (hu : ¬c → Yields s u) : Yields s (if c then t else u) := by
  split
  · next h => exact ht h
  · next h => exact hu h

theorem foldl {α : Type} {g : State → α → State} (h : ∀ s a, Yields s (g s a)) (l : List α) (s : State) :
    Yields s (l.foldl g s) :=
  foldl_keeps (Yields s) g (fun _ a ht => ht.trans (h _ a)) l s (refl s)

/-- A step that leaves the loader, and the yield report after it. -/
theorem report (hloader : t.loader = s.loader) (hlower : FailoverOwed t → FailoverOwed s) (howed : FailoverOwed s) :
    Yields s (reportYield t) := by
  have hkept : FailoverOwed (reportYield t) ↔ FailoverOwed t := exists_congr fun p => by rw [proj_reportYield]
  have hreported : (t.failoverOwed = false ∧ t.loader.waitsFor .yield = true) ↔
      ¬FailoverOwed t ∧ s.loader.state = .waiting ∧ s.loader.reason = some .yield := by
    rw [hloader, waitsFor_iff, ← Bool.not_eq_true, failoverOwed_iff]
  refine ⟨fun h => hlower (hkept.1 h), fun hw hr _ ht => ?_, fun h => ?_⟩
  · rw [hkept] at ht
    unfold reportYield
    rw [if_pos (hreported.2 ⟨ht, hw, hr⟩), releaseLoader_eq, hloader]
    have hnone : t.failoverOwed = false := Bool.eq_false_iff.2 fun h => ht ((failoverOwed_iff t).1 h)
    rw [hnone]
    rfl
  · rw [hkept] at h
    unfold reportYield
    rw [if_neg fun hc => ?_]
    · exact hloader
    · obtain ⟨ht, hw, hr⟩ := hreported.1 hc
      rcases h with h | h | h | h
      · exact h hw
      · exact h hr
      · exact h howed
      · exact ht h

end Yields

theorem attention_reportYield (s : State) : (reportYield s).attention = s.attention := (reportYield_touches s).attention

/-! ### One failover fewer (R76) -/

theorem lowerFailover_yields (p : Slot) (s : State) : Yields s (lowerFailover p s) := by
  have hlower (k : Nat) (hk : k ≤ (s.proj p).failover) :
      FailoverOwed (s.setFailover p k) → FailoverOwed s := fun ⟨q, hq⟩ => by
    rw [proj_setFailover] at hq
    split at hq
    · next h => exact ⟨p, by dsimp only at hq; omega⟩
    · exact ⟨q, hq⟩
  unfold lowerFailover
  dsimp only
  refine Yields.ite (fun _ => Yields.refl s) fun hk => Yields.ite (fun h1 => ?last) fun h1 => ?more
  case last => exact Yields.report rfl (hlower _ (Nat.sub_le _ _)) ⟨p, Nat.pos_of_ne_zero hk⟩
  case more =>
    refine Yields.of_owed rfl ⟨hlower _ (Nat.sub_le _ _), fun _ => ⟨p, ?_⟩⟩
    rw [proj_setFailover, if_pos rfl]
    dsimp only
    omega

theorem lowerFailover_raises (p : Slot) (s : State) :
    Raises s (lowerFailover p s) (if (s.proj p).failover = 1 then [.failover p] else []) := by
  unfold lowerFailover
  dsimp only
  by_cases h0 : (s.proj p).failover = 0
  · rw [if_pos h0, if_neg (by omega)]
    exact Raises.refl s
  · rw [if_neg h0]
    by_cases h1 : (s.proj p).failover = 1
    · rw [if_pos h1, if_pos h1]
      exact ((Raises.raise _ _).congr_left rfl).congr_right (attention_reportYield _)
    · rw [if_neg h1, if_neg h1]
      exact Raises.of_attention rfl

/-! ### One claim freed (R14, R76) -/

theorem freeClaim_yields (p : Slot) (n : Nat) (s : State) : Yields s (freeClaim p n s) := by
  have hfreed : Yields s (countFreed p (s.modNode n fun r => r.dropClaim p)) := by
    refine Yields.of_same rfl fun q => ?_
    rw [proj_countFreed]
    split
    · next h => rw [h]; rfl
    · rfl
  unfold freeClaim
  exact hfreed.trans (lowerFailover_yields p _)

theorem freeClaim_raises (p : Slot) (n : Nat) (s : State) :
    Raises s (freeClaim p n s) (if (s.proj p).failover = 1 then [.failover p] else []) := by
  have hfailover : ((countFreed p (s.modNode n fun r => r.dropClaim p)).proj p).failover = (s.proj p).failover := by
    rw [proj_countFreed, if_pos rfl]
    rfl
  have h := lowerFailover_raises p (countFreed p (s.modNode n fun r => r.dropClaim p))
  rw [hfailover] at h
  unfold freeClaim
  exact h.congr_left rfl

theorem record_freeClaim (p : Slot) (n : Nat) (s : State) (q : Slot) : (freeClaim p n s).proj q = if q = p then
    { s.proj p with claimCount := (s.proj p).claimCount - 1, failover := (s.proj p).failover - 1 } else s.proj q := by
  unfold freeClaim
  rw [proj_lowerFailover, proj_countFreed, proj_countFreed, if_pos rfl]
  by_cases h : q = p
  · rw [if_pos h, if_pos h]
    rfl
  · rw [if_neg h, if_neg h, if_neg h]
    rfl

theorem dome_lowerFailover (p : Slot) (s : State) : (lowerFailover p s).dome = s.dome := (lowerFailover_touches p s).dome

theorem free_freeClaim (p : Slot) (n : Nat) (s : State) : (freeClaim p n s).dome.freeCount = s.dome.freeCount + 1 := by
  unfold freeClaim
  rw [dome_lowerFailover]
  rfl

/-- What the freeing of claims touches, but for the pool and the node store (R14, R76). -/
theorem freeClaim_frame (p : Slot) (n : Nat) (s : State) : freeClaim p n s = { s with
    dome := { s.dome with nodes := (freeClaim p n s).dome.nodes, freeCount := (freeClaim p n s).dome.freeCount }
    projectors := (freeClaim p n s).projectors, loader := (freeClaim p n s).loader
    attention := (freeClaim p n s).attention } := by
  rw [← (freeClaim_rewrites p n s).dome_eq]
  exact (freeClaim_touches p n s).frame

end Sys2Proof.Machine
end

section
/-! PROOF. SET CLAIM and DROP CLAIM (O15, O16). -/

namespace Sys2Proof.Machine

open Sys2Proof Sys2Proof.Stating

set_option Elab.async false

/-! ### SET CLAIM (R54 to R56, R58) -/

theorem pinFieldOf_eq (mode : Byte) (value : Nat) : pinFieldOf mode.toNat value = pinField mode value := by
  unfold pinFieldOf pinField
  exact if_congr (byte_eq_zero_iff mode).symm rfl (if_congr (byte_eq_one_iff mode).symm rfl rfl)

theorem updated_eq (d : Claim) (q : Pos) (pin : PinField) : d.updated q pin =
    { d with pendingPos := some q, pendingPin := pinAsked d.pendingPin d.pendingNew pin, pendingRemoval := false } := by
  cases pin <;> rfl

theorem newClaim_eq (p : Slot) (q : Pos) (pin : PinField) : newClaim p q pin =
    { projector := p, livePos := none, pendingPos := some q, liveTrim := ⟨0, 0⟩, nextTrim := none, livePin := none,
      pendingPin := pinAsked none true pin, pendingNew := true, pendingRemoval := false, withdrawn := false,
      liveWeight := 0, nextWeight := 0 } := by
  cases pin <;> rfl

theorem exists_claim_iff {cs : List Claim} {p : Slot} :
    (∃ c ∈ cs, c.projector.val = p.val) ↔ ∃ c, claimBy cs p = some c := by
  rw [← Option.isSome_iff_exists, ← Option.ne_none_iff_isSome, ne_eq, claimBy_eq_none_iff]
  simp only [not_forall, not_not, exists_prop, Fin.val_inj]

theorem setRefused_eq (s : State) {a b : ResultCode} (h : some a = some b) :
    (s, SetAnswer.refused a) = (s, .refused b) := by rw [Option.some.inj h]

theorem editSetClaim_of_refusal {s : State} {node : Option Nat} {slot : Nat} {code : ResultCode}
    (h : setClaimRefusal s node slot = some code) (q : Pos) (pin : PinField) :
    editSetClaim node slot q pin s = (s, .refused code) := by
  unfold setClaimRefusal at h
  unfold editSetClaim
  cases node with
  | none => exact setRefused_eq s h
  | some n =>
    by_cases hs : slot < 16
    · dsimp only at h ⊢
      rw [dif_pos hs] at h
      rw [show slotOf slot = some ⟨slot, hs⟩ from dif_pos hs]
      dsimp only
      generalize hp : (⟨slot, hs⟩ : Slot) = p at h ⊢
      have hslot : slot = p.val := congrArg Fin.val hp
      subst hslot
      by_cases hv : (s.proj p).state = .vacant
      · rw [if_pos hv] at h ⊢
        exact setRefused_eq s h
      rw [if_neg hv] at h ⊢
      by_cases hr : (s.proj p).state = .retiring
      · rw [if_pos hr] at h ⊢
        exact setRefused_eq s h
      rw [if_neg hr] at h ⊢
      by_cases hg : (s.node n).groupMark = true
      · rw [if_pos hg] at h ⊢
        exact setRefused_eq s h
      rw [if_neg hg] at h ⊢
      by_cases hc : ∃ c ∈ (s.node n).claims, c.projector.val = p.val
      · rw [if_pos hc] at h
        cases h
      rw [if_neg hc] at h
      have hnone : claimBy (s.node n).claims p = none := by
        rw [exists_claim_iff] at hc
        exact Option.eq_none_iff_forall_not_mem.2 fun c hmem => hc ⟨c, hmem⟩
      unfold placeClaim
      rw [hnone]
      dsimp only
      by_cases hl : 4 ≤ (s.node n).claims.length
      · rw [if_pos hl] at h
        rw [if_pos (show Config.listLimit ≤ _ from hl)]
        exact setRefused_eq s h
      rw [if_neg hl] at h
      rw [if_neg (show ¬Config.listLimit ≤ _ from hl)]
      by_cases hf : s.dome.freeCount = 0
      · rw [if_pos hf] at h ⊢
        exact setRefused_eq s h
      · rw [if_neg hf] at h
        cases h
    · dsimp only at h ⊢
      rw [dif_neg hs] at h
      rw [show slotOf slot = none from dif_neg hs]
      exact setRefused_eq s h

/-- SET CLAIM passes its checks exactly when no refusal is due: the claim is placed. -/
theorem editSetClaim_of_no_refusal {s : State} {n : Nat} {p : Slot} (h : setClaimRefusal s (some n) p.val = none) (q : Pos)
    (pin : PinField) : editSetClaim (some n) p.val q pin s = placeClaim n p q pin s ∧
      (claimBy (s.node n).claims p = none → (s.node n).claims.length < 4 ∧ s.dome.freeCount ≠ 0) := by
  unfold setClaimRefusal at h
  unfold editSetClaim
  dsimp only at h ⊢
  rw [dif_pos p.isLt] at h
  rw [slotOf_val]
  dsimp only at h ⊢
  split at h
  · cases h
  next hv =>
  split at h
  · cases h
  next hr =>
  split at h
  · cases h
  next hg =>
  refine ⟨by rw [if_neg hv, if_neg hr, if_neg hg], fun hnone => ?_⟩
  have hno : ¬∃ c ∈ (s.node n).claims, c.projector.val = p.val := by
    rw [exists_claim_iff, hnone]
    simp
  rw [if_neg hno] at h
  split at h
  · cases h
  next hl =>
  split at h
  · cases h
  next hf => exact ⟨by omega, hf⟩

theorem claimSet_of_update {s : State} {n : Nat} {p : Slot} {c : Claim} (hc : claimBy (s.node n).claims p = some c) (q : Pos)
    (pin : PinField) : ClaimSet s (openNode n (s.modNode n fun r => r.modClaim p fun d => d.updated q pin)) n p q pin
      (if c.pendingRemoval then 2 else 1) := by
  refine ⟨rfl, fun m hm => ?_, fun _ _ => rfl, fun hnone => ?_, fun d hd => ⟨?_, rfl, rfl, ?_⟩⟩
  · rw [openNode, node_modNode, if_neg hm, node_modNode, if_neg hm]
  · rw [← claimBy_eq_none_iff, hc] at hnone
    cases hnone
  · rw [hc] at hd
    rw [Option.some.inj hd]
  · rw [openNode, node_modNode, if_pos rfl, node_modNode, if_pos rfl, modClaim_eq]
    simp only [updated_eq]

theorem claimSet_of_creation {s : State} {n : Nat} {p : Slot} (hnone : claimBy (s.node n).claims p = none) (q : Pos)
    (pin : PinField) : ClaimSet s (openNode n (allocateClaim (newClaim p q pin) n s)) n p q pin 0 := by
  have hproj (q' : Slot) : (openNode n (allocateClaim (newClaim p q pin) n s)).proj q'
      = if q' = p then { s.proj p with claimCount := (s.proj p).claimCount + 1 } else s.proj q' := by
    rw [openNode, proj_modNode, allocateClaim, proj_setClaimCount]
    rfl
  refine ⟨rfl, fun m hm => ?_, fun q' hq => by rw [hproj, if_neg hq], fun _ => ⟨rfl, rfl, by rw [hproj, if_pos rfl], ?_⟩,
    fun d hd => ?_⟩
  · rw [openNode, node_modNode, if_neg hm, node_allocateClaim, if_neg hm]
  · rw [openNode, node_modNode, if_pos rfl, node_allocateClaim, if_pos rfl, newClaim_eq]
  · rw [hnone] at hd
    cases hd

/-- A SET CLAIM that is not refused sets the claim, with the outcome that it answers. -/
theorem editSetClaim_taken {s : State} {n : Nat} {p : Slot} (h : setClaimRefusal s (some n) p.val = none) (q : Pos)
    (pin : PinField) :
    ∃ t o, editSetClaim (some n) p.val q pin s = (t, .taken o) ∧ ClaimSet s t n p q pin o.code := by
  obtain ⟨hplace, hroom⟩ := editSetClaim_of_no_refusal h q pin
  rw [hplace]
  unfold placeClaim
  cases hc : claimBy (s.node n).claims p with
  | some c =>
    refine ⟨_, _, rfl, ?_⟩
    have hcode : (if c.pendingRemoval then SetOutcome.restored else .updated).code = if c.pendingRemoval then 2 else 1 := by
      cases c.pendingRemoval <;> rfl
    rw [hcode]
    exact claimSet_of_update hc q pin
  | none =>
    obtain ⟨hlist, hpool⟩ := hroom hc
    dsimp only
    rw [if_neg (show ¬Config.listLimit ≤ _ from not_le.2 hlist), if_neg hpool]
    exact ⟨_, _, rfl, claimSet_of_creation hc q pin⟩

theorem placeClaim_setPort (n : Nat) (p : Slot) (q : Pos) (pin : PinField) (s : State) (c : ControlPort) :
    placeClaim n p q pin (s.setPort c) = ((placeClaim n p q pin s).1.setPort c, (placeClaim n p q pin s).2) := by
  have hnode : (s.setPort c).node n = s.node n := rfl
  have hfree : (s.setPort c).dome.freeCount = s.dome.freeCount := rfl
  unfold placeClaim
  rw [hnode, hfree]
  cases claimBy (s.node n).claims p with
  | some d => rfl
  | none =>
    dsimp only
    by_cases hl : Config.listLimit ≤ (s.node n).claims.length
    · simp only [if_pos hl]
    · simp only [if_neg hl]
      split <;> rfl

theorem editSetClaim_setPort (node : Option Nat) (slot : Nat) (q : Pos) (pin : PinField) (s : State) (c : ControlPort) :
    editSetClaim node slot q pin (s.setPort c)
      = ((editSetClaim node slot q pin s).1.setPort c, (editSetClaim node slot q pin s).2) := by
  unfold editSetClaim
  cases node with
  | none => rfl
  | some n =>
    have hnode : (s.setPort c).node n = s.node n := rfl
    have hproj (p : Slot) : (s.setPort c).proj p = s.proj p := rfl
    dsimp only
    cases slotOf slot with
    | none => rfl
    | some p =>
      dsimp only
      rw [hnode, hproj, placeClaim_setPort]
      split
      · rfl
      · split
        · rfl
        · split <;> rfl

theorem setClaimRequest_eq (s : State) (code tag mode ring sector slot u0 u1 v0 v1 pm p0 p1 : Byte) (p : ControlPort) :
    setClaimRequest { code := code, tag := tag, fields := [mode, ring, sector, slot, u0, u1, v0, v1, pm, p0, p1] }
        (s.setPort p)
      = ((advancedUnless (mode = 0) (editSetClaim (addressed s mode ring sector) slot.toNat ⟨word u0 u1, word v0 v1⟩
            (pinField pm (word p0 p1)) s).1).setPort p,
          setAnswer (addressed s mode ring sector) slot.toNat (editSetClaim (addressed s mode ring sector) slot.toNat
            ⟨word u0 u1, word v0 v1⟩ (pinField pm (word p0 p1)) s).1
            (editSetClaim (addressed s mode ring sector) slot.toNat ⟨word u0 u1, word v0 v1⟩
            (pinField pm (word p0 p1)) s).2) := by
  rw [← pinFieldOf_eq, addressed_eq, ← advancedUnless_setPort, ← advancedUnless_eq]
  have h := editSetClaim_setPort (addressedNode s mode.toNat ring.toNat sector.toNat) slot.toNat
    ⟨word u0 u1, word v0 v1⟩ (pinFieldOf pm.toNat (word p0 p1)) s p
  change (let t : State × SetAnswer := editSetClaim (addressedNode s mode.toNat ring.toNat sector.toNat) slot.toNat
            ⟨word u0 u1, word v0 v1⟩ (pinFieldOf pm.toNat (word p0 p1)) (s.setPort p)
    (if mode.toNat = 0 then t.1 else t.1.advance,
      setAnswer (addressedNode s mode.toNat ring.toNat sector.toNat) slot.toNat t.1 t.2)) = _
  rw [h]
  generalize editSetClaim (addressedNode s mode.toNat ring.toNat sector.toNat) slot.toNat
    ⟨word u0 u1, word v0 v1⟩ (pinFieldOf pm.toNat (word p0 p1)) s = t
  obtain ⟨t, a⟩ := t
  cases a <;> rfl

/-- Settles O15: the checks in their order, then the claim created or updated. -/
theorem setClaimChecksCreatesOrUpdates : Obligations.SetClaimChecksCreatesOrUpdates := by
  refine ⟨fun s tag mode ring sector slot u0 u1 v0 v1 pm p0 p1 rest hw code h => ?refused,
    fun s tag mode ring sector slot u0 u1 v0 v1 pm p0 p1 rest hw n p hn hp h => ?taken⟩
  case refused =>
    refine congrArg Host.Outcome.next ?_
    refine runRequest_of_waits_reply (run := setClaimRequest) hw rfl rfl rfl (t := advancedUnless (mode = 0) s)
      (a := .bare code) ?_ (port_advancedUnless _ s) rfl
    rw [setClaimRequest_eq, editSetClaim_of_refusal h]
    rfl
  case taken =>
    rw [hp] at h
    obtain ⟨t, o, hedit, hset⟩ := editSetClaim_taken h ⟨word u0 u1, word v0 v1⟩ (pinField pm (word p0 p1))
    have hport : t.port = s.port := by rw [hset.1]
    refine ⟨t, o.code, congrArg Host.Outcome.next ?_, hset⟩
    refine runRequest_of_waits_reply (run := setClaimRequest) hw rfl rfl rfl (t := advancedUnless (mode = 0) t)
      (a := setAnswer (some n) slot.toNat t (.taken o)) ?_ ((port_advancedUnless _ t).trans hport) ?_
    · rw [setClaimRequest_eq, hn, hp, hedit]
    · have hslot : byte slot.toNat = slot := byte_toNat slot
      simp only [setAnswer, Answer.ok, nodeField, Option.getD_some, u8_eq, u16_eq, hslot, ringOf, sectorOf]
      rfl

/-! ### DROP CLAIM (R57, R58) -/

theorem dropRefused_eq (s : State) {a b : ResultCode} (h : some a = some b) :
    (s, DropAnswer.refused a) = (s, .refused b) := by rw [Option.some.inj h]

theorem editDropClaim_of_refusal {s : State} {node : Option Nat} {slot : Nat} {code : ResultCode}
    (h : dropClaimRefusal s node slot = some code) : editDropClaim node slot s = (s, .refused code) := by
  unfold dropClaimRefusal at h
  unfold editDropClaim
  cases node with
  | none => exact dropRefused_eq s h
  | some n =>
    by_cases hs : slot < 16
    · dsimp only at h ⊢
      rw [if_pos hs] at h
      rw [show slotOf slot = some ⟨slot, hs⟩ from dif_pos hs]
      dsimp only
      generalize hp : (⟨slot, hs⟩ : Slot) = p at h ⊢
      have hslot : slot = p.val := congrArg Fin.val hp
      subst hslot
      by_cases hg : (s.node n).groupMark = true
      · rw [if_pos hg] at h ⊢
        exact dropRefused_eq s h
      rw [if_neg hg] at h ⊢
      by_cases hc : ∃ c ∈ (s.node n).claims, c.projector.val = p.val
      · rw [if_pos hc] at h
        cases h
      rw [if_neg hc] at h
      have hnone : claimBy (s.node n).claims p = none := by
        rw [exists_claim_iff] at hc
        exact Option.eq_none_iff_forall_not_mem.2 fun c hmem => hc ⟨c, hmem⟩
      rw [hnone]
      exact dropRefused_eq s h
    · dsimp only at h ⊢
      rw [if_neg hs] at h
      rw [show slotOf slot = none from dif_neg hs]
      exact dropRefused_eq s h

theorem editDropClaim_of_no_refusal {s : State} {n : Nat} {p : Slot} {c : Claim}
    (h : dropClaimRefusal s (some n) p.val = none) (hc : claimBy (s.node n).claims p = some c) :
    editDropClaim (some n) p.val s = removeClaim n p c s := by
  unfold dropClaimRefusal at h
  unfold editDropClaim
  dsimp only at h ⊢
  rw [if_pos p.isLt] at h
  rw [slotOf_val]
  dsimp only
  split at h
  · cases h
  next hg => rw [if_neg hg, hc]

theorem claimDropped_removeClaim {s : State} {n : Nat} {p : Slot} (c : Claim) : ClaimDropped s (removeClaim n p c s).1 n p c := by
  unfold removeClaim
  by_cases hnew : c.pendingNew = true
  · rw [if_pos hnew]
    have hnode (m : Nat) : (openNode n (freeClaim p n s)).node m
        = if m = n then { (s.node n).dropClaim p with openMark := true } else s.node m := by
      rw [openNode, node_modNode, node_freeClaim]
      by_cases hm : m = n
      · subst hm
        simp
      · simp [hm, node_freeClaim]
    have hproj (q : Slot) : (openNode n (freeClaim p n s)).proj q = (freeClaim p n s).proj q := rfl
    have hraises : Raises s (openNode n (freeClaim p n s)) (if (s.proj p).failover = 1 then [.failover p] else []) :=
      (freeClaim_raises p n s).congr_right rfl
    refine ⟨fun m hm => by rw [hnode, if_neg hm], fun q hq => by rw [hproj, record_freeClaim, if_neg hq],
      fun hold => absurd hold (by rw [hnew]; decide), fun _ => ⟨?frame, ?node, ?record, fun k hk => ?classes, fun h1 => ?none,
        fun h1 => ?one, ?yield⟩⟩
    case frame =>
      have hframe := freeClaim_frame p n s
      have hfree := free_freeClaim p n s
      unfold openNode
      generalize freeClaim p n s = t at hframe hfree ⊢
      rw [hframe]
      dsimp only [State.modNode, State.putNode]
      rw [hfree]
    case node =>
      rw [hnode, if_pos rfl]
      simp [Node.dropClaim, bne, beq_eq_decide]
    case record => rw [hproj, record_freeClaim, if_pos rfl]
    case classes =>
      refine hraises.stands fun e he => ?_
      split at he
      · rw [List.mem_singleton.1 he]
        exact Ne.symm hk
      · cases he
    case none =>
      rw [if_neg h1] at hraises
      exact hraises.stands (by simp)
    case one =>
      rw [if_pos h1] at hraises
      exact hraises 2
    case yield => exact (freeClaim_yields p n s).follows
  · rw [if_neg hnew]
    refine ⟨fun m hm => ?_, fun _ _ => rfl, fun _ => ⟨rfl, ?_⟩, fun h => absurd h hnew⟩
    · rw [openNode, node_modNode, if_neg hm, node_modNode, if_neg hm]
    · rw [openNode, node_modNode, if_pos rfl, node_modNode, if_pos rfl, modClaim_eq]

theorem Inward.removeClaim (n : Nat) (p : Slot) (c : Claim) : Inward fun s => (Machine.removeClaim n p c s).1 := by
  unfold Machine.removeClaim
  cases c.pendingNew
  · exact fun _ _ => rfl
  · exact comp (openNode n) (freeClaim p n)

theorem removeClaim_answer (n : Nat) (p : Slot) (c : Claim) (s : State) :
    removeClaim n p c s = ((removeClaim n p c s).1, .taken (if c.pendingNew then .freed else .marked)) := by
  unfold removeClaim
  cases c.pendingNew <;> rfl

/-- Settles O16: the checks in their order, then the claim freed or marked. -/
theorem dropClaimFreesOrMarks : Obligations.DropClaimFreesOrMarks := by
  intro s tag ring sector slot rest hw
  refine ⟨fun code h => ?refused, fun n p c hn hp h hc => ?taken⟩
  case refused =>
    refine congrArg Host.Outcome.next (runRequest_of_waits_same (run := dropClaimRequest) (a := .bare code) hw rfl rfl rfl ?_)
    have hedit : editDropClaim (resolveNode ring.toNat sector.toNat) slot.toNat (s.setPort { s.port with requests := rest })
        = (s.setPort { s.port with requests := rest }, .refused code) := editDropClaim_of_refusal h
    change (match editDropClaim (resolveNode ring.toNat sector.toNat) slot.toNat (s.setPort { s.port with requests := rest }) with
      | (t, .refused c) => (t, Answer.bare c)
      | (t, .taken o) => (t, .ok (u8 o.code))) = _
    rw [hedit]
  case taken =>
    rw [hp] at h
    have hdropped := claimDropped_removeClaim (s := s) (n := n) (p := p) c
    refine ⟨(removeClaim n p c s).1, congrArg Host.Outcome.next ?_, hdropped⟩
    refine runRequest_of_waits_reply (run := dropClaimRequest) hw rfl rfl rfl (t := (removeClaim n p c s).1)
      (a := .ok (u8 (if c.pendingNew then DropOutcome.freed else .marked).code)) ?_ ((Inward.removeClaim n p c).port s) ?_
    · have hedit : editDropClaim (resolveNode ring.toNat sector.toNat) slot.toNat (s.setPort { s.port with requests := rest })
          = removeClaim n p c (s.setPort { s.port with requests := rest }) := by
        rw [← namedNode_eq, hn, hp]
        exact editDropClaim_of_no_refusal h hc
      change (match editDropClaim (resolveNode ring.toNat sector.toNat) slot.toNat (s.setPort { s.port with requests := rest }) with
        | (t, .refused c) => (t, Answer.bare c)
        | (t, .taken o) => (t, .ok (u8 o.code))) = _
      rw [hedit, removeClaim_answer]
      exact congrArg (fun t => (t, Answer.ok _)) ((Inward.removeClaim n p c).setPort s _)
    · cases c.pendingNew <;> rfl

end Sys2Proof.Machine
end

section
/-! PROOF. The seal of the open set, APPLY EDITS and WITHDRAW EDITS (O17, O18). -/

namespace Sys2Proof.Machine

open Sys2Proof Sys2Proof.Stating

set_option Elab.async false

/-! ### The seal (R60) -/

theorem solver_sealNode (n : Nat) (s : State) : (sealNode s n).solver =
    { s.solver with normal := s.solver.normal ++ [n].filter fun m => (s.node m).queued = none } := by
  have hqueued : ((s.modNode n fun r => { r with openMark := false, groupMark := true }).node n).queued = (s.node n).queued := by
    rw [node_modNode, if_pos rfl]
  unfold sealNode
  rw [solver_hardInvalidate, hqueued]
  rcases hq : (s.node n).queued with _ | (_ | _) <;> simp [Solver.joined, hq]

theorem solver_sealAll {ns : List Nat} (hns : ns.Nodup) (s : State) : (ns.foldl sealNode s).solver =
    { s.solver with normal := s.solver.normal ++ ns.filter fun n => (s.node n).queued = none } := by
  induction ns generalizing s with
  | nil => simp
  | cons n ns ih =>
    obtain ⟨hn, hns⟩ := List.nodup_cons.1 hns
    have hother (m : Nat) (hm : m ∈ ns) : m ≠ n := ne_of_mem_of_not_mem hm hn
    have hrest : (ns.filter fun m => ((sealNode s n).node m).queued = none) = ns.filter fun m => (s.node m).queued = none :=
      List.filter_congr fun m hm => by rw [node_sealNode, if_neg (hother m hm)]
    rw [List.foldl_cons, ih hns, hrest, solver_sealNode]
    by_cases hq : (s.node n).queued = none <;> simp [hq]

theorem nodup_openSet (s : State) : s.openSet.Nodup := nodup_nodeIndices.filter _

theorem free_sealNode (s : State) (n : Nat) : (sealNode s n).dome.freeCount = s.dome.freeCount := by
  rw [sealNode, free_hardInvalidate]
  rfl

theorem free_sealOpenSet (s : State) : (sealOpenSet s).dome.freeCount = s.dome.freeCount := by
  unfold sealOpenSet
  dsimp only
  rw [State.setEdit_dome]
  exact free_foldl free_sealNode s.openSet s

theorem opened_eq (s : State) : ((List.range 2049).filter fun n => (s.node n).openMark) = s.openSet := rfl

theorem solver_sealOpenSet (s : State) : (sealOpenSet s).solver =
    { s.solver with normal := s.solver.normal ++ s.openSet.filter fun n => (s.node n).queued = none } := by
  unfold sealOpenSet
  dsimp only
  rw [State.setEdit_solver]
  exact solver_sealAll (nodup_openSet s) s

theorem sealed_sealOpenSet (s : State) : Sealed s (sealOpenSet s) := by
  have hdome : { s.dome with nodes := (sealOpenSet s).dome.nodes } = (sealOpenSet s).dome := by
    rw [(sealOpenSet_rewrites s).dome_eq, free_sealOpenSet]
  unfold Sealed
  rw [opened_eq]
  refine ⟨?frame, fun n hn => ?member, fun n hn => ?other⟩
  case frame =>
    have hframe := (sealOpenSet_touches s).frame
    rw [hdome, ← solver_sealOpenSet, ← edit_sealOpenSet]
    exact hframe
  case member =>
    rw [node_sealOpenSet, if_pos hn]
    rfl
  case other => rw [node_sealOpenSet, if_neg hn]

/-! ### APPLY EDITS (R59, R60) -/

theorem openSet_eq_nil_iff (s : State) : s.openSet = [] ↔ ∀ n < 2049, (s.node n).openMark = false := by
  rw [List.eq_nil_iff_forall_not_mem]
  refine forall_congr' fun n => ?_
  rw [mem_openSet, not_and, Bool.not_eq_true]

theorem openSet_ne_nil {s : State} (h : ∃ n < 2049, (s.node n).openMark = true) : s.openSet ≠ [] := by
  obtain ⟨n, hn, ho⟩ := h
  exact List.ne_nil_of_mem (mem_openSet.2 ⟨hn, ho⟩)

theorem applyEdits_of_group {s : State} (h : s.edit.groupState ≠ .none) : applyEdits s = (s, .busy) := if_neg h

theorem applyEdits_of_empty {s : State} (h : s.edit.groupState = .none) (ho : s.openSet = []) :
    applyEdits s = (s, .sealed 0) := by
  unfold applyEdits
  rw [if_pos h, ho]
  rfl

theorem applyEdits_of_open {s : State} (h : s.edit.groupState = .none) (ho : s.openSet ≠ []) :
    applyEdits s = (sealOpenSet s, .sealed s.openSet.length) := by
  unfold applyEdits
  rw [if_pos h, if_neg (by rw [List.isEmpty_iff]; exact ho)]

theorem openSet_setPort (s : State) (c : ControlPort) : (s.setPort c).openSet = s.openSet := by
  unfold State.openSet
  rfl

theorem group_setPort (s : State) (c : ControlPort) : (s.setPort c).group = s.group := by
  unfold State.group
  rfl

/-- Settles O17: the group refuses, the empty set answers 0, and any other is sealed. -/
theorem applyEditsSealsOpenSet : Obligations.ApplyEditsSealsOpenSet := by
  intro s tag rest hw
  refine ⟨fun hgroup => ?busy, fun hgroup hempty hnothing => ?empty, fun hgroup hopen => ?sealed⟩
  case busy =>
    refine congrArg Host.Outcome.next (runRequest_of_waits_reply (run := applyEditsRequest) hw rfl rfl rfl (t := s)
      (a := ⟨.busy, u8 s.edit.groupState.code ++ u16 s.edit.members ++ u16 s.edit.readyCount
        ++ packBits [s.edit.applyWaiting]⟩) ?_ rfl ?_)
    · unfold applyEditsRequest
      rw [applyEdits_of_group (s := s.setPort { s.port with requests := rest }) hgroup]
      rfl
    · have hcode : u8 s.edit.groupState.code = [byte (if s.edit.groupState = .ready then 2 else 1)] := by
        cases hstate : s.edit.groupState
        · exact absurd hstate hgroup
        · rfl
        · rfl
      dsimp only
      rw [hcode, packBits_one]
      rfl
  case empty =>
    have ho := (openSet_eq_nil_iff s).2 hempty
    refine congrArg Host.Outcome.next (runRequest_of_waits_reply (run := applyEditsRequest) hw rfl rfl rfl (t := s)
      (a := .ok (u16 0)) ?_ rfl rfl)
    unfold applyEditsRequest
    rw [applyEdits_of_empty (s := s.setPort { s.port with requests := rest }) hgroup ((openSet_setPort s _).trans ho)]
    exact congrArg (fun t => (t, Answer.ok (u16 0))) (startSolve_of_nothing hnothing)
  case sealed =>
    refine ⟨sealOpenSet s, sealed_sealOpenSet s, congrArg Host.Outcome.next ?_⟩
    refine runRequest_of_waits (run := applyEditsRequest) hw rfl rfl rfl (f := fun u => startSolve (sealOpenSet u))
      (Inward.startSolve.comp Inward.sealOpenSet) (a := .ok (u16 s.openSet.length)) ?_
    have ho := openSet_ne_nil hopen
    unfold applyEditsRequest
    rw [applyEdits_of_open (s := s.setPort { s.port with requests := rest }) hgroup (by rw [openSet_setPort]; exact ho),
      openSet_setPort]

/-! ### WITHDRAW EDITS (R63) -/

theorem Inward.withdrawNodes (ns : List Nat) : Inward fun s => ns.foldl withdrawNode s :=
  foldl (k := fun s n => withdrawNode s n) (fun _ _ _ => rfl) ns

/-- The group dissolved and its members returned to the open set, before a waiting apply is taken (R63). -/
def reopened (s : State) : State := disbanded (s.group.foldl withdrawNode s)

theorem withdrawNodes_touches (ns : List Nat) (s : State) : Touches [.dome] s (ns.foldl withdrawNode s) :=
  Touches.foldl withdrawNode withdrawNode_touches ns s

theorem reopened_frame (s : State) : reopened s = { s with
    dome := { s.dome with nodes := (reopened s).dome.nodes }
    edit := { groupState := .none, members := 0, readyCount := 0, applyWaiting := false } } := by
  have hrewrites : Rewrites s (s.group.foldl withdrawNode s) := Rewrites.foldl withdrawNode_rewrites s.group s
  have hnode (t : State) (n : Nat) : (withdrawNode t n).dome.freeCount = t.dome.freeCount := rfl
  have hfree : (s.group.foldl withdrawNode s).dome.freeCount = s.dome.freeCount := free_foldl hnode s.group s
  have hdome : { s.dome with nodes := (s.group.foldl withdrawNode s).dome.nodes } = (s.group.foldl withdrawNode s).dome := by
    rw [hrewrites.dome_eq, hfree]
  have hframe := (withdrawNodes_touches s.group s).frame
  unfold reopened
  generalize s.group.foldl withdrawNode s = t at hdome hframe
  change disbanded t = { s with
    dome := { s.dome with nodes := t.dome.nodes }
    edit := { groupState := .none, members := 0, readyCount := 0, applyWaiting := false } }
  rw [hdome, hframe]
  rfl

theorem node_reopened (s : State) (n : Nat) : (reopened s).node n = if n ∈ s.group then { s.node n with
    openMark := true, groupMark := false, nextValid := false, dirty := (s.node n).dirty || (s.node n).inFlight }
    else s.node n := by
  unfold reopened
  rw [node_withdrawGroup]
  by_cases hn : n ∈ s.group
  · rw [if_pos hn, if_pos hn]
    rfl
  · rw [if_neg hn, if_neg hn]

theorem groupState_reopened (s : State) : (reopened s).edit.groupState = .none := rfl

theorem waiting_withdrawNodes (s : State) : (s.group.foldl withdrawNode s).edit.applyWaiting = s.edit.applyWaiting := by
  rw [(withdrawNodes_touches s.group s).edit]

theorem takeApplyWaiting_of_not {s : State} (h : s.edit.applyWaiting = false) :
    takeApplyWaiting (dissolveGroup s) = (disbanded s, 0) := by
  have hwaiting : (dissolveGroup s).edit.applyWaiting = false := h
  unfold takeApplyWaiting
  rw [hwaiting, if_neg Bool.false_ne_true, disbanded_eq s h]

theorem takeApplyWaiting_of_waiting {s : State} (h : s.edit.applyWaiting = true) {t : State} {k : Nat}
    (ht : applyEdits (disbanded s) = (t, .sealed k)) : takeApplyWaiting (dissolveGroup s) = (t, k) := by
  have hwaiting : (dissolveGroup s).edit.applyWaiting = true := h
  have hcleared : (dissolveGroup s).setEdit { (dissolveGroup s).edit with applyWaiting := false } = disbanded s := rfl
  unfold takeApplyWaiting
  rw [hwaiting, if_pos rfl, hcleared, ht]

/-- No apply waits, or it finds no node open: the members are reopened and nothing is sealed (R63, R65). -/
theorem withdrawGroup_of_none {s : State} (h : s.edit.applyWaiting = false ∨ (reopened s).openSet = []) :
    withdrawGroup s = (reopened s, s.group.length, 0) := by
  have happly : takeApplyWaiting (dissolveGroup (s.group.foldl withdrawNode s)) = (reopened s, 0) := by
    by_cases hw : s.edit.applyWaiting = false
    · exact takeApplyWaiting_of_not ((waiting_withdrawNodes s).trans hw)
    · refine takeApplyWaiting_of_waiting ((waiting_withdrawNodes s).trans ((Bool.not_eq_false _).mp hw)) ?_
      exact applyEdits_of_empty (s := reopened s) (groupState_reopened s) (h.resolve_left hw)
  unfold withdrawGroup
  rw [happly]

/-- A waiting apply seals what the withdrawal has opened (R63, R65). -/
theorem withdrawGroup_of_open {s : State} (h : s.edit.applyWaiting = true) (ho : (reopened s).openSet ≠ []) :
    withdrawGroup s = (sealOpenSet (reopened s), s.group.length, (reopened s).openSet.length) := by
  have happly : takeApplyWaiting (dissolveGroup (s.group.foldl withdrawNode s))
      = (sealOpenSet (reopened s), (reopened s).openSet.length) :=
    takeApplyWaiting_of_waiting ((waiting_withdrawNodes s).trans h)
      (applyEdits_of_open (s := reopened s) (groupState_reopened s) ho)
  unfold withdrawGroup
  rw [happly]

theorem Inward.reopened : Inward Machine.reopened := by
  intro s o
  have hgroup : (s.outside o).group = s.group := by
    unfold State.group
    rfl
  unfold Machine.reopened
  rw [hgroup]
  have hnodes := withdrawNodes s.group s o
  dsimp only at hnodes
  rw [hnodes]
  generalize s.group.foldl withdrawNode s = t
  rfl

theorem exec_withdrawEdits {s : State} {tag : Byte} {rest : List Request} (hw : Waits s 0x13 tag [] rest)
    (hgroup : s.edit.groupState ≠ .none) {f : State → State} (hf : Inward f) {k : Nat}
    (h : ∀ c, withdrawGroup (s.setPort c) = (f (s.setPort c), s.group.length, k)) :
    exec .withdrawEdits s = .next (answered (startSolve (f s)) rest tag .ok (twoBytes s.group.length ++ twoBytes k)) := by
  refine congrArg Host.Outcome.next (runRequest_of_waits (run := withdrawEditsRequest) hw rfl rfl rfl
    (f := fun u => startSolve (f u)) (Inward.startSolve.comp hf) (a := .ok (u16 s.group.length ++ u16 k)) ?_)
  refine (if_neg hgroup).trans ?_
  dsimp only
  rw [h]

theorem reopened_setPort (s : State) (c : ControlPort) : reopened (s.setPort c) = (reopened s).setPort c :=
  Inward.reopened.setPort s c

/-- Settles O18: the members reopened, and a waiting apply taken. -/
theorem withdrawEditsReopensGroup : Obligations.WithdrawEditsReopensGroup := by
  intro s tag rest hw
  refine ⟨fun hnone => ?none, fun hgroup => ?group⟩
  case none =>
    exact congrArg Host.Outcome.next (runRequest_of_waits_same (run := withdrawEditsRequest) (a := .bare .noGroup) hw rfl rfl
      rfl (if_pos hnone))
  case group =>
    intro members done
    have hmembers : members = s.group := rfl
    have hopen (c : ControlPort) : (reopened (s.setPort c)).openSet = (reopened s).openSet := by
      rw [reopened_setPort, openSet_setPort]
    refine ⟨reopened s, reopened_frame s, fun n hn => ?member, fun n hn => ?other, fun h => ?unsealed, fun hwait ho => ?sealed⟩
    case member => rw [node_reopened, if_pos (hmembers ▸ hn)]
    case other => rw [node_reopened, if_neg (hmembers ▸ hn)]
    case unsealed =>
      rw [← openSet_eq_nil_iff] at h
      have hexec := exec_withdrawEdits hw hgroup (f := reopened) Inward.reopened (k := 0) fun c => by
        rw [withdrawGroup_of_none (h.imp_right ((hopen c).trans ·)), group_setPort]
      exact hexec
    case sealed =>
      have ho' := openSet_ne_nil ho
      refine ⟨sealOpenSet (reopened s), sealed_sealOpenSet _, ?_⟩
      have hexec := exec_withdrawEdits hw hgroup (f := fun u => sealOpenSet (reopened u))
        (Inward.sealOpenSet.comp Inward.reopened) (k := (reopened s).openSet.length) fun c => by
          rw [withdrawGroup_of_open (s := s.setPort c) hwait (by rw [hopen]; exact ho'), group_setPort, hopen]
      have hsize : (sealOpenSet (reopened s)).edit.members = (reopened s).openSet.length := by rw [edit_sealOpenSet]
      rw [hsize]
      exact hexec

end Sys2Proof.Machine
end

section
/-! PROOF. A count lowered once for each entry of a list: which counts reach zero, in which order, and at which node. The
failovers outstanding and the claim counts fall so (R14, R76). -/

namespace Sys2Proof.Machine

open Sys2Proof Sys2Proof.Stating

set_option Elab.async false

/-! ### Counts lowered entry by entry -/

/-- The counts after one entry of a slot. -/
def lowered (f : Slot → Nat) (p : Slot) (q : Slot) : Nat := if q = p then f q - 1 else f q

/-- The slots whose counts reach zero as the entries of a list lower them, in that order. -/
def zeroed : (Slot → Nat) → List Slot → List Slot
  | _, [] => []
  | f, p :: ps => (if f p = 1 then [p] else []) ++ zeroed (lowered f p) ps

theorem lowered_self (f : Slot → Nat) (p : Slot) : lowered f p p = f p - 1 := if_pos rfl

theorem lowered_of_ne (f : Slot → Nat) {p q : Slot} (h : q ≠ p) : lowered f p q = f q := if_neg h

theorem mem_zeroed {f : Slot → Nat} {ps : List Slot} {q : Slot} : q ∈ zeroed f ps ↔ 0 < f q ∧ f q ≤ ps.count q := by
  induction ps generalizing f with
  | nil =>
    simp only [zeroed, List.not_mem_nil, List.count_nil, false_iff]
    omega
  | cons p ps ih =>
    rw [zeroed, List.mem_append, ih]
    by_cases hq : q = p
    · subst hq
      rw [lowered_self, List.count_cons_self]
      by_cases h1 : f q = 1
      · simp [h1]
      · simp only [h1, if_false, List.not_mem_nil, false_or]
        omega
    · have hne : ¬q ∈ (if f p = 1 then [p] else []) := by split <;> simp [hq]
      rw [lowered_of_ne f hq, List.count_cons_of_ne (Ne.symm hq)]
      simp only [hne, false_or]

theorem nodup_zeroed (f : Slot → Nat) (ps : List Slot) : (zeroed f ps).Nodup := by
  induction ps generalizing f with
  | nil => exact List.nodup_nil
  | cons p ps ih =>
    rw [zeroed]
    by_cases h1 : f p = 1
    · rw [if_pos h1, List.singleton_append, List.nodup_cons]
      refine ⟨fun hp => ?_, ih _⟩
      obtain ⟨hpos, -⟩ := mem_zeroed.1 hp
      rw [lowered_self] at hpos
      omega
    · rw [if_neg h1]
      exact ih _

theorem lowered_sub_count (f : Slot → Nat) (p : Slot) (ps : List Slot) :
    (fun q => lowered f p q - ps.count q) = fun q => f q - (p :: ps).count q := by
  funext q
  by_cases hq : q = p
  · subst hq
    rw [lowered_self, List.count_cons_self]
    omega
  · rw [lowered_of_ne f hq, List.count_cons_of_ne (Ne.symm hq)]

theorem zeroed_append (f : Slot → Nat) (ps qs : List Slot) :
    zeroed f (ps ++ qs) = zeroed f ps ++ zeroed (fun q => f q - ps.count q) qs := by
  induction ps generalizing f with
  | nil => simp [zeroed]
  | cons p ps ih => rw [List.cons_append, zeroed, zeroed, ih, lowered_sub_count, List.append_assoc]

/-! ### The node at which a count reaches zero -/

theorem sum_range_mono (count : Nat → Nat) {i j : Nat} (h : i ≤ j) :
    ((List.range i).map count).sum ≤ ((List.range j).map count).sum := by
  induction j, h using Nat.le_induction with
  | base => exact le_refl _
  | succ j _ ih => rw [List.range_succ, List.map_append, List.sum_append]; omega

theorem reachedAt_eq {count : Nat → Nat} {k N : Nat} (hN : N < 2049) (hlow : ((List.range N).map count).sum < k)
    (hhigh : k ≤ ((List.range (N + 1)).map count).sum) : reachedAt count k = N := by
  have hfind : (List.range 2049).find? (fun n => decide (k ≤ ((List.range (n + 1)).map count).sum)) = some N := by
    rw [List.find?_range_eq_some]
    refine ⟨decide_eq_true hhigh, List.mem_range.2 hN, fun j hj => ?_⟩
    have hmono := sum_range_mono count (show j + 1 ≤ N by omega)
    rw [Bool.not_eq_true', decide_eq_false_iff_not]
    omega
  rw [reachedAt, hfind]
  rfl

/-- A count reached before a node is reached at one before it. -/
theorem reachedAt_lt {count : Nat → Nat} {k N : Nat} (hN : N ≤ 2049) (hk : 0 < k) (h : k ≤ ((List.range N).map count).sum) :
    reachedAt count k < N := by
  induction N with
  | zero => simp at h; omega
  | succ N ih =>
    by_cases hbefore : k ≤ ((List.range N).map count).sum
    · exact Nat.lt_succ_of_lt (ih (by omega) hbefore)
    · rw [reachedAt_eq (by omega) (by omega) h]
      exact Nat.lt_succ_self N

/-- The entries of a slot among the nodes' lists before a node. -/
theorem count_flatMap_range (block : Nat → List Slot) (p : Slot) (N : Nat) :
    ((List.range N).flatMap block).count p = ((List.range N).map fun n => (block n).count p).sum := List.count_flatMap

/-- Counts lowered node by node reach zero in the order of the nodes at which they are reached. -/
theorem zeroed_reachedAt (f : Slot → Nat) (block : Nat → List Slot) {N : Nat} (hN : N ≤ 2049) :
    ((zeroed f ((List.range N).flatMap block)).Pairwise fun p q =>
      reachedAt (fun n => (block n).count p) (f p) ≤ reachedAt (fun n => (block n).count q) (f q)) := by
  induction N with
  | zero => exact List.Pairwise.nil
  | succ N ih =>
    have hlast {q : Slot} (hq : q ∈ zeroed (fun q => f q - ((List.range N).flatMap block).count q) (block N)) :
        reachedAt (fun n => (block n).count q) (f q) = N := by
      obtain ⟨hpos, hle⟩ := mem_zeroed.1 hq
      rw [count_flatMap_range] at hpos hle
      refine reachedAt_eq (by omega) (by omega) ?_
      rw [List.range_succ, List.map_append, List.sum_append, List.map_singleton, List.sum_singleton]
      omega
    have hbefore {p : Slot} (hp : p ∈ zeroed f ((List.range N).flatMap block)) :
        reachedAt (fun n => (block n).count p) (f p) < N := by
      obtain ⟨hpos, hle⟩ := mem_zeroed.1 hp
      rw [count_flatMap_range] at hle
      exact reachedAt_lt (by omega) hpos hle
    rw [List.range_succ, List.flatMap_append, List.flatMap_singleton, zeroed_append, List.pairwise_append]
    refine ⟨ih (by omega), ?_, fun p hp q hq => ?_⟩
    · exact List.pairwise_of_forall_mem_list fun p hp q hq => by rw [hlast hp, hlast hq]
    · rw [hlast hq]
      exact (hbefore hp).le

end Sys2Proof.Machine
end

section
/-! PROOF. DISCARD EDITS: the pending-new claims of the open set freed, node by node (O19). -/

namespace Sys2Proof.Machine

open Sys2Proof Sys2Proof.Stating

set_option Elab.async false

/-! ### Several claims freed (R14, R76) -/

/-- A projector's record after a number of its claims have been freed outside a swap (R14, R76). -/
def Projector.freed (k : Nat) (r : Projector) : Projector :=
  { r with failover := r.failover - k, claimCount := r.claimCount - k }

theorem Projector.freed_zero (r : Projector) : r.freed 0 = r := rfl

theorem Projector.freed_freed (r : Projector) (j k : Nat) : (r.freed j).freed k = r.freed (j + k) := by
  simp only [freed, Nat.sub_sub]

theorem freed_freeClaim (p : Slot) (n : Nat) (s : State) (q : Slot) :
    (freeClaim p n s).proj q = (s.proj q).freed ([p].count q) := by
  rw [record_freeClaim]
  by_cases hq : q = p
  · subst hq
    simp [Projector.freed]
  · have hnone : [p].count q = 0 := by simp [Ne.symm hq]
    rw [if_neg hq, hnone, Projector.freed_zero]

/-- The failovers outstanding, slot by slot. -/
def State.failovers (s : State) (q : Slot) : Nat := (s.proj q).failover

theorem failovers_of_freed {s t : State} {ps : List Slot} (h : ∀ q, t.proj q = (s.proj q).freed (ps.count q)) :
    t.failovers = fun q => s.failovers q - ps.count q := by
  funext q
  rw [State.failovers, h]
  rfl

/-- What the freeing of claims of a list of slots, in its order, makes of the records, the pool, the loader and the events. -/
structure Frees (s t : State) (ps : List Slot) : Prop where
  record : ∀ q, t.proj q = (s.proj q).freed (ps.count q)
  free : t.dome.freeCount = s.dome.freeCount + ps.length
  yields : Yields s t
  raises : Raises s t ((zeroed s.failovers ps).map .failover)

namespace Frees

variable {s t u : State} {ps qs : List Slot}

theorem refl (s : State) : Frees s s [] := ⟨fun _ => rfl, rfl, Yields.refl s, Raises.refl s⟩

theorem trans (h : Frees s t ps) (h' : Frees t u qs) : Frees s u (ps ++ qs) where
  record q := by rw [h'.record, h.record, Projector.freed_freed, List.count_append]
  free := by rw [h'.free, h.free, List.length_append, Nat.add_assoc]
  yields := h.yields.trans h'.yields
  raises := by
    have hraises := h'.raises
    rw [failovers_of_freed h.record] at hraises
    rw [zeroed_append, List.map_append]
    exact h.raises.trans hraises

theorem freeClaim (p : Slot) (n : Nat) (s : State) : Frees s (Machine.freeClaim p n s) [p] where
  record q := freed_freeClaim p n s q
  free := free_freeClaim p n s
  yields := freeClaim_yields p n s
  raises := by
    have hzeroed : (zeroed s.failovers [p]).map Event.failover = if (s.proj p).failover = 1 then [.failover p] else [] := by
      rw [zeroed, zeroed, List.append_nil]
      change List.map _ (if (s.proj p).failover = 1 then [p] else []) = _
      split <;> rfl
    rw [hzeroed]
    exact freeClaim_raises p n s

theorem freeClaims (ps : List Slot) (n : Nat) (s : State) : Frees s (ps.foldl (fun u p => Machine.freeClaim p n u) s) ps := by
  induction ps generalizing s with
  | nil => exact refl s
  | cons p ps ih => exact (freeClaim p n s).trans (ih _)

/-- A change of the node store alone follows. -/
theorem thenModNode (h : Frees s t ps) (n : Nat) (f : Node → Node) : Frees s (t.modNode n f) ps where
  record := h.record
  free := h.free
  yields := h.yields.trans (Yields.of_same rfl fun _ => rfl)
  raises := h.raises.congr_right rfl

theorem discardNode (s : State) (n : Nat) : Frees s (Machine.discardNode s n) (s.node n).newSlots := by
  unfold Machine.discardNode
  exact (freeClaims (s.node n).newSlots n s).thenModNode n _

theorem discardNodes {ns : List Nat} (hns : ns.Nodup) (s : State) :
    Frees s (ns.foldl Machine.discardNode s) (ns.flatMap fun n => (s.node n).newSlots) := by
  induction ns generalizing s with
  | nil => exact refl s
  | cons n ns ih =>
    obtain ⟨hn, hns⟩ := List.nodup_cons.1 hns
    have hrest : (ns.flatMap fun m => ((Machine.discardNode s n).node m).newSlots) = ns.flatMap fun m => (s.node m).newSlots :=
      List.flatMap_congr fun m hm => by rw [node_discardNode, if_neg (ne_of_mem_of_not_mem hm hn)]
    have h := (discardNode s n).trans (ih hns (Machine.discardNode s n))
    rw [hrest] at h
    exact h

end Frees

/-! ### The open set discarded (R64) -/

theorem flatMap_filter_eq {α : Type} (keeps : Nat → Bool) (g : Nat → List α) (l : List Nat) :
    (l.filter keeps).flatMap g = l.flatMap fun n => if keeps n then g n else [] := by
  induction l with
  | nil => rfl
  | cons n l ih => by_cases hn : keeps n = true <;> simp [hn, ih]

/-- The slots of the claims that DISCARD EDITS frees at a node. -/
def State.discarding (s : State) (n : Nat) : List Slot := if (s.node n).openMark then (s.node n).newSlots else []

theorem discarding_flatMap (s : State) :
    (s.openSet.flatMap fun n => (s.node n).newSlots) = (List.range 2049).flatMap s.discarding :=
  flatMap_filter_eq (fun n => (s.node n).openMark) (fun n => (s.node n).newSlots) _

theorem count_newSlots {r : Node} (ho : r.Ordered) (p : Slot) :
    r.newSlots.count p = if (r.claims.any fun c => c.pendingNew && c.projector == p) = true then 1 else 0 := by
  have hnodup : r.newSlots.Nodup := (nodup_projectors ho).sublist (List.filter_sublist.map _)
  have hmem : p ∈ r.newSlots ↔ (r.claims.any fun c => c.pendingNew && c.projector == p) = true := by
    simp only [Node.newSlots, List.mem_map, List.mem_filter, List.any_eq_true, Bool.and_eq_true, beq_iff_eq, and_assoc]
  rw [hnodup.count]
  exact if_congr hmem rfl rfl

theorem unedited_of_ordered {r : Node} (ho : r.Ordered) : r.unedited = { r with
    openMark := false
    claims := (r.claims.filter fun c => !c.pendingNew).map fun c =>
      { c with pendingPos := none, pendingPin := none, pendingRemoval := false } } := by
  have hfilter : (r.claims.filter fun c => !r.newSlots.contains c.projector) = r.claims.filter fun c => !c.pendingNew := by
    refine List.filter_congr fun c hc => ?_
    refine congrArg Bool.not ?_
    rw [Bool.eq_iff_iff, List.contains_iff_mem]
    exact ⟨fun h => Node.pendingNew_of_newSlots ho hc h, fun h => List.mem_map_of_mem (List.mem_filter.2 ⟨hc, h⟩)⟩
  rw [Node.unedited, hfilter]
  rfl

theorem discardEdits_frees (s : State) : Frees s (discardEdits s) ((List.range 2049).flatMap s.discarding) := by
  rw [← discarding_flatMap]
  unfold discardEdits
  exact Frees.discardNodes (nodup_openSet s) s

theorem discardEdits_rewrites (s : State) : Rewrites s (discardEdits s) := by
  unfold discardEdits
  exact Rewrites.foldl discardNode_rewrites s.openSet s

theorem node_discardEdits (s : State) (n : Nat) :
    (discardEdits s).node n = if n ∈ s.openSet then (s.node n).unedited else s.node n := by
  unfold discardEdits
  exact node_discardNodes s.openSet s n

theorem newClaimCount_setPort (s : State) (c : ControlPort) : (s.setPort c).newClaimCount = s.newClaimCount := by
  unfold State.newClaimCount
  rw [openSet_setPort]
  rfl

theorem exec_discardEdits {s : State} {tag : Byte} {rest : List Request} (hw : Waits s 0x14 tag [] rest) :
    exec .discardEdits s = .next (answered (discardEdits s) rest tag .ok
      (twoBytes s.openSet.length ++ twoBytes s.newClaimCount)) := by
  refine congrArg Host.Outcome.next (runRequest_of_waits (run := discardEditsRequest) hw rfl rfl rfl (f := discardEdits)
    Inward.discardEdits (a := .ok (u16 s.openSet.length ++ u16 s.newClaimCount)) ?_)
  unfold discardEditsRequest
  rw [openSet_setPort, newClaimCount_setPort]

theorem cls_of_mem_failovers {ps : List Slot} {e : Event} (he : e ∈ ps.map Event.failover) : e.cls ≠ 8 := by
  obtain ⟨p, -, rfl⟩ := List.mem_map.1 he
  simp [Event.cls]

/-- Settles O19: the claims freed by the node lists, in their order. -/
theorem discardEditsRemovesEdits : Obligations.DiscardEditsRemovesEdits := by
  intro s tag rest hw hordered opened newAt freed total
  have hopened : opened = s.openSet := rfl
  have hordered' (n : Nat) : (s.node n).Ordered := hordered n
  have hnewAt (p : Slot) : newAt p = fun n => (s.discarding n).count p := by
    funext n
    unfold State.discarding
    cases ho : (s.node n).openMark
    · simp [newAt, ho]
    · simp only [newAt, ho, Bool.true_and, if_true]
      exact (count_newSlots (hordered' n) p).symm
  have hfreed (p : Slot) : freed p = ((List.range 2049).flatMap s.discarding).count p := by
    rw [count_flatMap_range, ← hnewAt]
  have htotal : total = s.newClaimCount := by
    unfold State.newClaimCount
    refine congrArg List.sum (List.map_congr_left fun n _ => ?_)
    rw [Node.newSlots, List.length_map]
  have hlength : ((List.range 2049).flatMap s.discarding).length = s.newClaimCount := by
    rw [← discarding_flatMap, List.length_flatMap]
    rfl
  have hfrees := discardEdits_frees s
  refine ⟨discardEdits s, zeroed s.failovers ((List.range 2049).flatMap s.discarding), ?exec, ?frame, fun n hn => ?member,
    fun n hn => ?other, fun p => ?record, ?order, ?pairwise, hfrees.raises.raised ?events, hfrees.raises.stands ?limits,
    hfrees.yields.follows⟩
  case exec =>
    rw [htotal, hopened]
    exact exec_discardEdits hw
  case frame =>
    have hframe := (discardEdits_touches s).frame
    have hfree := hfrees.free
    rw [hlength] at hfree
    rw [htotal, ← hfree, ← (discardEdits_rewrites s).dome_eq]
    exact hframe
  case member => rw [node_discardEdits, if_pos (hopened ▸ hn), unedited_of_ordered (hordered' n)]
  case other => rw [node_discardEdits, if_neg (hopened ▸ hn)]
  case record =>
    rw [hfrees.record, hfreed]
    rfl
  case order =>
    refine (List.perm_ext_iff_of_nodup (nodup_zeroed _ _) ((List.nodup_finRange 16).filter _)).2 fun p => ?_
    rw [mem_zeroed, List.mem_filter, decide_eq_true_iff, hfreed]
    exact ⟨fun h => ⟨List.mem_finRange p, h⟩, fun h => h.2⟩
  case pairwise =>
    have h := zeroed_reachedAt s.failovers s.discarding (le_refl 2049)
    simp only [hnewAt]
    exact h
  case events => exact List.filter_eq_self.2 fun e he => decide_eq_true (cls_of_mem_failovers he)
  case limits => exact fun e he => cls_of_mem_failovers he

end Sys2Proof.Machine
end

section
/-! PROOF. The emptying of a slot (R87, R133), and CLEAR MAP (O14). -/

namespace Sys2Proof.Machine

open Sys2Proof Sys2Proof.Stating

set_option Elab.async false

/-! ### Raisings, one step after another -/

theorem Raises.toRaised {s t : State} {es : List Event} (h : Raises s t es) : Raised s t es := fun k _ => h k

theorem Raised.refl (s : State) : Raised s s [] := (Raises.refl s).toRaised

theorem Raised.of_attention {s t : State} (h : t.attention = s.attention) : Raised s t [] := (Raises.of_attention h).toRaised

theorem Raised.trans {s t u : State} {es fs : List Event} (h : Raised s t es) (h' : Raised t u fs) : Raised s u (es ++ fs) :=
  fun k hk => by rw [h' k hk, h k hk, List.filter_append, List.foldl_append]

theorem Raised.congr_left {s s' t : State} {es : List Event} (h : Raised s t es) (hs : s'.attention = s.attention) :
    Raised s' t es := Raised.trans (Raised.of_attention hs.symm) h

theorem Raised.congr_right {s t t' : State} {es : List Event} (h : Raised s t es) (ht : t'.attention = t.attention) :
    Raised s t' es := by
  have h' := Raised.trans h (Raised.of_attention ht)
  rwa [List.append_nil] at h'

theorem recomputeGains_raised (s : State) : Raised s (recomputeGains s) [] :=
  (recomputeGains_raises s).raised (List.filter_eq_nil_iff.2 fun e he => by rw [cls_of_mem_limits he]; decide)

theorem Raised.thenRaise {s t : State} {es : List Event} (h : Raised s t es) (e : Event) : Raised s (t.raise e) (es ++ [e]) :=
  Raised.trans h (Raises.raise t e).toRaised

/-! ### Slots that are left (R133) -/

theorem get_set_none {α : Type} (v : Vector (Option α) 16) (p q : Slot) :
    (v.set p.val none p.isLt).get q = if q ∈ [p] then none else v.get q := by
  simp only [Vector.get_eq_getElem, Vector.getElem_set, List.mem_singleton]
  by_cases h : q = p
  · subst h
    simp
  · have hne : p.val ≠ q.val := fun e => h (Fin.ext e.symm)
    simp [h, hne]

/-- The channels of these slots are turned off and their streams stopped, and no other channel or stream changes. -/
structure Vacates (s t : State) (gone : List Slot) : Prop where
  chan : ∀ p, t.chan p = if p ∈ gone then (s.chan p).turnedOff else s.chan p
  streams : ∀ p, t.raster.streams.get p = if p ∈ gone then none else s.raster.streams.get p
  links : ∀ p, t.raster.links.get p = if p ∈ gone then none else s.raster.links.get p
  frame : t.raster.frame = s.raster.frame

namespace Vacates

variable {s t u : State} {gone more : List Slot}

theorem of_same (hc : t.channels = s.channels) (hr : t.raster = s.raster) : Vacates s t [] :=
  ⟨fun p => chan_congr hc p, fun p => by rw [hr]; rfl, fun p => by rw [hr]; rfl, by rw [hr]⟩

theorem refl (s : State) : Vacates s s [] := of_same rfl rfl

theorem trans (h : Vacates s t gone) (h' : Vacates t u more) : Vacates s u (gone ++ more) where
  chan p := by
    rw [h'.chan, h.chan]
    by_cases hg : p ∈ gone <;> by_cases hm : p ∈ more <;> simp [hg, hm, Channel.turnedOff]
  streams p := by
    rw [h'.streams, h.streams]
    by_cases hg : p ∈ gone <;> by_cases hm : p ∈ more <;> simp [hg, hm]
  links p := by
    rw [h'.links, h.links]
    by_cases hg : p ∈ gone <;> by_cases hm : p ∈ more <;> simp [hg, hm]
  frame := h'.frame.trans h.frame

theorem congr_right (h : Vacates s t gone) (hc : u.channels = t.channels) (hr : u.raster = t.raster) : Vacates s u gone := by
  have h' := h.trans (of_same hc hr)
  rwa [List.append_nil] at h'

theorem raster_eq (h : Vacates s t gone) :
    { s.raster with streams := t.raster.streams, links := t.raster.links } = t.raster := by
  have hframe := h.frame
  generalize t.raster = r at hframe ⊢
  cases r
  dsimp only at hframe ⊢
  rw [hframe]

theorem turnOff (p : Slot) (s : State) : Vacates s (Machine.turnOff p s) [p] where
  chan q := by
    have hchan : (Machine.turnOff p s).chan q = (s.modChan p Channel.turnedOff).chan q := rfl
    rw [hchan, chan_modChan]
    by_cases hq : q = p <;> simp [hq]
  streams q := get_set_none s.raster.streams p q
  links q := get_set_none s.raster.links p q
  frame := rfl

end Vacates

/-! ### One slot emptied (R87) -/

theorem emptySlot_touches_after (p : Slot) (s : State) :
    Touches [.projectors, .attention, .loader] (turnOff p (s.modProj p Projector.emptied)) (emptySlot p s) := by
  have h : Touches [.projectors, .attention, .loader] (turnOff p (s.modProj p Projector.emptied))
      ((recomputeGains (turnOff p (s.modProj p Projector.emptied))).raise (.fadeDone p true)) :=
    (recomputeGains_touches _).andThen (raise_touches _ _)
  unfold emptySlot
  exact Touches.ite (h.andThen (reportYield_touches _)) h

theorem emptySlot_vacates (p : Slot) (s : State) : Vacates s (emptySlot p s) [p] := by
  have hoff : Vacates s (turnOff p (s.modProj p Projector.emptied)) [p] :=
    (Vacates.of_same (s := s) (t := s.modProj p Projector.emptied) rfl rfl).trans (Vacates.turnOff p _)
  exact hoff.congr_right (emptySlot_touches_after p s).channels (emptySlot_touches_after p s).raster

/-- The emptied slot after its recomputation, before the yield report. -/
def leftSlot (p : Slot) (s : State) : State :=
  (recomputeGains (turnOff p (s.modProj p Projector.emptied))).raise (.fadeDone p true)

theorem emptySlot_eq (p : Slot) (s : State) :
    emptySlot p s = if 0 < (s.proj p).failover then reportYield (leftSlot p s) else leftSlot p s := rfl

theorem raised_leftSlot (p : Slot) (s : State) : Raised s (leftSlot p s) [.fadeDone p true] := by
  have h : Raised s (recomputeGains (turnOff p (s.modProj p Projector.emptied))) [] :=
    Raised.congr_left (recomputeGains_raised _) rfl
  exact Raised.thenRaise h _

theorem emptySlot_raised (p : Slot) (s : State) : Raised s (emptySlot p s) [.fadeDone p true] := by
  rw [emptySlot_eq]
  split
  · exact Raised.congr_right (raised_leftSlot p s) (attention_reportYield _)
  · exact raised_leftSlot p s

theorem gain_emptySlot (p : Slot) (s : State) : (emptySlot p s).gain = s.gain := (emptySlot_touches p s).gain

theorem targetsSettled_emptySlot (p : Slot) (s : State) : TargetsSettled (emptySlot p s) := by
  have hsettled := targetsSettled_recomputeGains (turnOff p (s.modProj p Projector.emptied))
  have hleft : (leftSlot p s).projectors = (recomputeGains (turnOff p (s.modProj p Projector.emptied))).projectors := by
    rw [leftSlot, State.raise_projectors]
  refine TargetsSettled.congr hsettled ?_ ?_
  · rw [emptySlot_eq]
    split
    · exact (reportYield_touches _).projectors.trans hleft
    · exact hleft
  · rw [gain_emptySlot, gain_recomputeGains]
    rfl

theorem failover_emptySlot (p : Slot) (s : State) (q : Slot) :
    ((emptySlot p s).proj q).failover = if q = p then 0 else (s.proj q).failover := by
  rw [proj_emptySlot]
  split <;> rfl

theorem emptySlot_yields (p : Slot) (s : State) : Yields s (emptySlot p s) := by
  have hleft (q : Slot) : ((leftSlot p s).proj q).failover = if q = p then 0 else (s.proj q).failover := by
    rw [leftSlot, proj_raise, proj_recomputeGains]
    change ((s.modProj p Projector.emptied).proj q).failover = _
    rw [proj_modProj]
    split <;> rfl
  have hloader : (leftSlot p s).loader = s.loader := by
    rw [leftSlot, State.raise_loader, (recomputeGains_touches _).loader]
    rfl
  rw [emptySlot_eq]
  refine Yields.ite (fun hpos => Yields.report hloader (fun ⟨q, hq⟩ => ⟨q, ?_⟩) ⟨p, hpos⟩)
    fun hzero => Yields.of_same hloader fun q => ?_
  · rw [hleft] at hq
    split at hq
    · omega
    · exact hq
  · rw [hleft]
    split
    · next h => subst h; omega
    · rfl

/-! ### Several slots emptied -/

/-- The record of an emptied slot, its claim count apart (R87). -/
theorem emptied_eq (r : Projector) : r.emptied =
    { r with state := .vacant, phi := 0, fade := none, failCause := none, failover := 0, luminance := none } := rfl

theorem SameButForTarget.emptied {r q : Projector} (h : SameButForTarget r q) : SameButForTarget r.emptied q.emptied := by
  obtain ⟨t, l, rfl⟩ := (sameButForTarget_iff _ _).1 h
  rfl

/-- What the emptying of these slots, in this order, makes of the records, the channels, the events and the targets. -/
structure Empties (s t : State) (gone : List Slot) : Prop where
  vacates : Vacates s t gone
  record : ∀ p, SameButForTarget (if p ∈ gone then (s.proj p).emptied else s.proj p) (t.proj p)
  raised : Raised s t (gone.map fun p => .fadeDone p true)
  settled : gone ≠ [] → TargetsSettled t
  same : gone = [] → t = s
  yields : Yields s t

namespace Empties

variable {s t u : State} {gone more : List Slot}

theorem refl (s : State) : Empties s s [] :=
  ⟨Vacates.refl s, fun _ => SameButForTarget.refl _, Raised.refl s, fun h => absurd rfl h, fun _ => rfl, Yields.refl s⟩

theorem trans (h : Empties s t gone) (h' : Empties t u more) : Empties s u (gone ++ more) where
  vacates := h.vacates.trans h'.vacates
  record p := by
    have hst := h.record p
    have htu := h'.record p
    by_cases hm : p ∈ more
    · rw [if_pos hm] at htu
      rw [if_pos (List.mem_append_right _ hm)]
      refine SameButForTarget.trans ?_ htu
      by_cases hg : p ∈ gone
      · rw [if_pos hg] at hst
        exact SameButForTarget.emptied (r := (s.proj p).emptied) hst
      · rw [if_neg hg] at hst
        exact SameButForTarget.emptied hst
    · rw [if_neg hm] at htu
      have hmem : p ∈ gone ++ more ↔ p ∈ gone := by simp [hm]
      rw [if_congr hmem rfl rfl]
      exact SameButForTarget.trans hst htu
  raised := by
    rw [List.map_append]
    exact Raised.trans h.raised h'.raised
  settled hne := by
    by_cases hm : more = []
    · rw [h'.same hm]
      exact h.settled fun hg => hne (by rw [hg, hm]; rfl)
    · exact h'.settled hm
  same hnil := by
    obtain ⟨hg, hm⟩ := List.append_eq_nil_iff.1 hnil
    rw [h'.same hm, h.same hg]
  yields := h.yields.trans h'.yields

theorem emptySlot (p : Slot) (s : State) : Empties s (Machine.emptySlot p s) [p] where
  vacates := emptySlot_vacates p s
  record q := by
    rw [proj_emptySlot]
    have hmem : q ∈ [p] ↔ q = p := List.mem_singleton
    rw [if_congr hmem rfl rfl]
    by_cases hq : q = p
    · rw [if_pos hq, if_pos hq, hq]
      exact SameButForTarget.retargeted _ _ _
    · rw [if_neg hq, if_neg hq]
      exact SameButForTarget.retargeted _ _ _
  raised := emptySlot_raised p s
  settled _ := targetsSettled_emptySlot p s
  same h := by cases h
  yields := emptySlot_yields p s

/-- A projector's slot is due to be left (R87). -/
theorem emptyIfDone (p : Slot) (s : State) : Empties s (Machine.emptyIfDone p s)
    (if (s.proj p).state = .retiring ∧ (s.proj p).claimCount = 0 then [p] else []) := by
  unfold Machine.emptyIfDone
  split
  · exact emptySlot p s
  · exact refl s

/-- The slots of a list, in a state where no projector has a claim: the RETIRING ones are emptied. -/
theorem emptyAll {ps : List Slot} (hps : ps.Nodup) {s : State} (h0 : ∀ p, (s.proj p).claimCount = 0) :
    Empties s (ps.foldl (fun u p => Machine.emptyIfDone p u) s) (ps.filter fun p => (s.proj p).state = .retiring) := by
  induction ps generalizing s with
  | nil => exact refl s
  | cons p ps ih =>
    obtain ⟨hp, hps⟩ := List.nodup_cons.1 hps
    have hfirst := emptyIfDone p s
    have hgone : (if (s.proj p).state = .retiring ∧ (s.proj p).claimCount = 0 then [p] else [])
        = [p].filter fun p => (s.proj p).state = .retiring := by
      by_cases hr : (s.proj p).state = .retiring <;> simp [hr, h0 p]
    rw [hgone] at hfirst
    have hkept (q : Slot) : (((Machine.emptyIfDone p s).proj q).claimCount = 0) ∧
        (q ≠ p → ((Machine.emptyIfDone p s).proj q).state = (s.proj q).state) := by
      obtain ⟨t, l, hq⟩ := (sameButForTarget_iff _ _).1 (hfirst.record q)
      rw [hq]
      constructor
      · dsimp only
        split <;> exact h0 q
      · intro hne
        dsimp only
        rw [if_neg (by simp [hne])]
    have hrest := ih hps (s := Machine.emptyIfDone p s) fun q => (hkept q).1
    have hsame : (ps.filter fun q => ((Machine.emptyIfDone p s).proj q).state = .retiring)
        = ps.filter fun q => (s.proj q).state = .retiring :=
      List.filter_congr fun q hq => by rw [(hkept q).2 (ne_of_mem_of_not_mem hq hp)]
    rw [hsame] at hrest
    have hall := hfirst.trans hrest
    rwa [← List.filter_append, List.singleton_append] at hall

end Empties

/-! ### CLEAR MAP (R24, R25) -/

theorem proj_emptyMap (s : State) (p : Slot) :
    (emptyMap s).proj p = { s.proj p with claimCount := 0, failover := 0 } := by
  rw [emptyMap, proj_mapProj]
  rfl

/-- The slots that CLEAR MAP empties, in ascending order. -/
def State.retiringSlots (s : State) : List Slot := slots.filter fun p => (s.proj p).state = .retiring

theorem mem_retiringSlots {s : State} {p : Slot} : p ∈ s.retiringSlots ↔ (s.proj p).state = .retiring := by
  rw [State.retiringSlots, slots_eq_finRange, List.mem_filter, decide_eq_true_iff]
  exact and_iff_right (List.mem_finRange p)

/-- The state of CLEAR MAP before its yield report. -/
def cleared (s : State) : State := slots.foldl (fun u p => emptyIfDone p u) (emptyMap s)

theorem clearMap_eq (s : State) : clearMap s = if s.failoverOwed then reportYield (cleared s) else cleared s := rfl

theorem cleared_empties (s : State) : Empties (emptyMap s) (cleared s) s.retiringSlots := by
  have hnodup : slots.Nodup := by
    rw [slots_eq_finRange]
    exact List.nodup_finRange 16
  have h := Empties.emptyAll hnodup (s := emptyMap s) fun p => by rw [proj_emptyMap]
  have hsame : (slots.filter fun p => ((emptyMap s).proj p).state = .retiring) = s.retiringSlots :=
    List.filter_congr fun p _ => by rw [proj_emptyMap]
  rw [hsame] at h
  exact h

theorem cleared_touches (s : State) :
    Touches [.projectors, .raster, .channels, .loader, .attention] (emptyMap s) (cleared s) :=
  Touches.foldl (fun u p => emptyIfDone p u) (fun u p => emptyIfDone_touches p u) slots (emptyMap s)

/-- CLEAR MAP but for its yield report, which changes the loader alone. -/
theorem clearMap_touches_cleared (s : State) : Touches [.loader] (cleared s) (clearMap s) := by
  rw [clearMap_eq]
  exact Touches.ite (reportYield_touches _) (Touches.refl _ _)

theorem not_failoverOwed_emptyMap (s : State) : ¬FailoverOwed (emptyMap s) := fun ⟨p, hp⟩ => by
  rw [proj_emptyMap] at hp
  exact Nat.lt_irrefl 0 hp

theorem clearMap_yields (s : State) : Yields s (clearMap s) := by
  obtain ⟨hlower, -, hstand⟩ := (cleared_empties s).yields
  have hnone : ¬FailoverOwed (cleared s) := mt hlower (not_failoverOwed_emptyMap s)
  have hloader : (cleared s).loader = s.loader := hstand (.inr (.inr (.inl (not_failoverOwed_emptyMap s))))
  rw [clearMap_eq]
  refine Yields.ite (fun howed => Yields.report hloader (fun h => absurd h hnone) ((failoverOwed_iff s).1 howed))
    fun howed => Yields.of_owed hloader ?_
  exact iff_of_false hnone fun h => howed ((failoverOwed_iff s).2 h)

theorem claimTotal_eq (s : State) : s.claimTotal = ((List.range 2049).map fun n => (s.node n).claims.length).sum := rfl

theorem claimTotal_setPort (s : State) (c : ControlPort) : (s.setPort c).claimTotal = s.claimTotal := by
  unfold State.claimTotal
  rfl

theorem exec_clearMap {s : State} {tag : Byte} {rest : List Request} (hw : Waits s 0x05 tag [] rest) :
    exec .clearMap s = .next (answered (clearMap s) rest tag .ok (twoBytes s.claimTotal)) := by
  refine congrArg Host.Outcome.next (runRequest_of_waits (run := clearMapRequest) hw rfl rfl rfl (f := clearMap)
    Inward.clearMap (a := .ok (u16 s.claimTotal)) ?_)
  unfold clearMapRequest
  rw [claimTotal_setPort]

theorem record_clearMap (s : State) (p : Slot) : SameButForTarget
    (if (s.proj p).state = .retiring then { s.proj p with
      state := .vacant, phi := 0, fade := none, failCause := none, claimCount := 0, failover := 0, luminance := none }
      else { s.proj p with claimCount := 0, failover := 0 }) ((clearMap s).proj p) := by
  have h := (cleared_empties s).record p
  rw [if_congr mem_retiringSlots rfl rfl, proj_emptyMap] at h
  rw [proj_congr (clearMap_touches_cleared s).projectors p]
  exact h

theorem clearMap_vacates (s : State) : Vacates s (clearMap s) s.retiringSlots := by
  have h : Vacates s (cleared s) s.retiringSlots :=
    (Vacates.of_same (s := s) (t := emptyMap s) rfl rfl).trans (cleared_empties s).vacates
  exact h.congr_right (clearMap_touches_cleared s).channels (clearMap_touches_cleared s).raster

theorem clearMap_frame (s : State) : clearMap s = { s with
    dome := { s.dome with nodes := [], freeCount := 6144 }
    solver := { urgent := [], normal := [], flight := none }
    edit := { groupState := .none, members := 0, readyCount := 0, applyWaiting := false }
    projectors := (clearMap s).projectors, channels := (clearMap s).channels, loader := (clearMap s).loader
    attention := (clearMap s).attention
    raster := { s.raster with streams := (clearMap s).raster.streams, links := (clearMap s).raster.links } } := by
  have hfrom : Touches [.projectors, .raster, .channels, .loader, .attention] (emptyMap s) (clearMap s) :=
    (cleared_touches s).andThen (clearMap_touches_cleared s)
  have hraster : { s.raster with streams := (clearMap s).raster.streams, links := (clearMap s).raster.links }
      = (clearMap s).raster := (clearMap_vacates s).raster_eq
  rw [hraster]
  have hframe := hfrom.frame
  generalize clearMap s = t at hframe
  exact hframe

/-- Settles O14: the map emptied, and the RETIRING slots left in ascending order. -/
theorem clearMapEmptiesMap : Obligations.ClearMapEmptiesMap := by
  intro s tag rest hw retiring
  have hmem (p : Slot) : p ∈ s.retiringSlots ↔ (s.proj p).state = .retiring := mem_retiringSlots
  have hvacates := clearMap_vacates s
  have hempties := cleared_empties s
  have htouches := clearMap_touches_cleared s
  refine ⟨clearMap s, s.retiringSlots, exec_clearMap hw, clearMap_frame s, fun p hr => ⟨?record, ?chan, ?stream, ?link⟩,
    fun p hr => ⟨?chanStands, ?streamStands, ?linkStands, ?kept⟩, ?order, ?events, fun ⟨p, hp⟩ => ?settled,
    fun hnone => ?stands, (clearMap_yields s).follows⟩
  case record =>
    have h := record_clearMap s p
    rwa [if_pos hr] at h
  case chan =>
    rw [hvacates.chan, if_pos ((hmem p).2 hr)]
    rfl
  case stream => rw [hvacates.streams, if_pos ((hmem p).2 hr)]
  case link => rw [hvacates.links, if_pos ((hmem p).2 hr)]
  case chanStands => rw [hvacates.chan, if_neg (mt (hmem p).1 hr)]
  case streamStands => rw [hvacates.streams, if_neg (mt (hmem p).1 hr)]
  case linkStands => rw [hvacates.links, if_neg (mt (hmem p).1 hr)]
  case kept =>
    have h := record_clearMap s p
    rwa [if_neg hr] at h
  case order =>
    rw [State.retiringSlots, slots_eq_finRange]
  case events => exact Raised.congr_left (Raised.congr_right hempties.raised htouches.attention) rfl
  case settled =>
    have hne : s.retiringSlots ≠ [] := List.ne_nil_of_mem ((hmem p).2 (of_decide_eq_true hp))
    exact TargetsSettled.congr (hempties.settled hne) htouches.projectors (by rw [htouches.gain])
  case stands =>
    have hnil : s.retiringSlots = [] := List.eq_nil_iff_forall_not_mem.2 fun p hp => of_decide_eq_false (hnone p) ((hmem p).1 hp)
    have hsame := hempties.same hnil
    refine ⟨?_, fun p => ?_⟩
    · unfold State.eventRecord
      rw [htouches.attention, hsame]
      rfl
    · rw [proj_congr htouches.projectors p, hsame, proj_emptyMap]
      exact ⟨rfl, rfl⟩

end Sys2Proof.Machine
end

section
/-! PROOF. The entry into RETIRING (R86, R87): the record, the claims, the queue, the targets and the events. -/

namespace Sys2Proof.Machine

open Sys2Proof Sys2Proof.Stating

set_option Elab.async false

/-! ### Recomputations among other raisings -/

theorem limits_congr {s t : State} (h : t.projectors = s.projectors) : limits t = limits s := by
  unfold limits
  exact congrArg (List.map Event.gainLimit) (List.filter_congr fun p _ => by rw [proj_congr h p])

/-- One recomputation among raisings of other classes (R98, R99). -/
theorem recomputedOnce_of_raises {s t : State} {es fs : List Event} (hsettled : TargetsSettled t)
    (h : Raises s t (es ++ limits t ++ fs)) (hes : ∀ e ∈ es, e.cls ≠ 8) (hfs : ∀ e ∈ fs, e.cls ≠ 8) : RecomputedOnce s t := by
  refine ⟨hsettled, ?_⟩
  have hnone {l : List Event} (hl : ∀ e ∈ l, e.cls ≠ 8) : (l.filter fun e => e.cls = 8) = [] :=
    List.filter_eq_nil_iff.2 fun e he => by simpa using hl e he
  rw [h 8, List.filter_append, List.filter_append, hnone hes, hnone hfs, List.nil_append, List.append_nil]
  exact foldl_limits t _

theorem emptySlot_raises (p : Slot) (s : State) : Raises s (emptySlot p s) (limits (emptySlot p s) ++ [.fadeDone p true]) := by
  have hleft : Raises s (leftSlot p s) (limits (leftSlot p s) ++ [.fadeDone p true]) := by
    have h := recomputeGains_raises (turnOff p (s.modProj p Projector.emptied))
    have hlimits : limits (leftSlot p s) = limits (recomputeGains (turnOff p (s.modProj p Projector.emptied))) :=
      limits_congr (State.raise_projectors _ _)
    rw [hlimits]
    exact (h.congr_left rfl).thenRaise _
  rw [emptySlot_eq]
  split
  · rw [limits_congr (reportYield_touches _).projectors]
    exact hleft.congr_right (attention_reportYield _)
  · exact hleft

/-! ### The claims of a retiring projector (R86) -/

/-- The projector has a pending-new claim in the list. -/
def hasNew (p : Slot) (cs : List Claim) : Bool := (claimBy cs p).any fun c => c.pendingNew

theorem newClaims_eq (s : State) (p : Slot) : newClaims s p = (s.claimNodes p).countP fun n => hasNew p (s.node n).claims := by
  have hclaimed (n : Nat) (h : hasNew p (s.node n).claims = true) : (s.node n).claimedBy p = true := by
    cases hc : claimBy (s.node n).claims p with
    | none => rw [hasNew, hc] at h; cases h
    | some c =>
      obtain ⟨hmem, hp⟩ := claimBy_some hc
      rw [Node.claimedBy, List.any_eq_true]
      exact ⟨c, hmem, beq_iff_eq.2 hp⟩
  rw [State.claimNodes, List.countP_filter]
  refine List.countP_congr fun n _ => ?_
  rw [Bool.and_eq_true]
  exact ⟨fun h => ⟨h, hclaimed n h⟩, fun h => h.1⟩

theorem withdrawAt_frees (p : Slot) (s : State) (n : Nat) :
    Frees s (withdrawAt p s n) (List.replicate (hasNew p (s.node n).claims).toNat p) := by
  unfold withdrawAt hasNew
  cases hc : claimBy (s.node n).claims p with
  | none => exact Frees.refl s
  | some c =>
    dsimp only [Option.any_some]
    by_cases hnew : c.pendingNew = true
    · rw [if_pos hnew, hnew]
      exact Frees.freeClaim p n s
    · rw [if_neg hnew, Bool.eq_false_iff.2 hnew]
      exact (Frees.refl s).thenModNode n _

theorem withdrawAll_frees (p : Slot) {ns : List Nat} (hns : ns.Nodup) (s : State) :
    Frees s (ns.foldl (withdrawAt p) s) (List.replicate (ns.countP fun n => hasNew p (s.node n).claims) p) := by
  induction ns generalizing s with
  | nil => exact Frees.refl s
  | cons n ns ih =>
    obtain ⟨hn, hns⟩ := List.nodup_cons.1 hns
    have hrest : (ns.countP fun m => hasNew p ((withdrawAt p s n).node m).claims)
        = ns.countP fun m => hasNew p (s.node m).claims :=
      List.countP_congr fun m hm => by rw [node_withdrawAt, if_neg (ne_of_mem_of_not_mem hm hn)]
    have h := (withdrawAt_frees p s n).trans (ih hns (withdrawAt p s n))
    rw [hrest, List.replicate_append_replicate] at h
    rw [List.countP_cons, Nat.add_comm]
    have hcount : (if hasNew p (s.node n).claims = true then 1 else 0) = (hasNew p (s.node n).claims).toNat := by
      cases hasNew p (s.node n).claims <;> rfl
    rw [hcount]
    exact h

theorem zeroed_replicate (f : Slot → Nat) (p : Slot) (k : Nat) :
    zeroed f (List.replicate k p) = if 0 < f p ∧ f p ≤ k then [p] else [] := by
  induction k generalizing f with
  | zero =>
    rw [List.replicate_zero, zeroed, if_neg (by omega)]
  | succ k ih =>
    rw [List.replicate_succ, zeroed, ih, lowered_self]
    by_cases h1 : f p = 1
    · rw [if_pos h1, if_neg (by omega), if_pos (by omega), List.append_nil]
    · rw [if_neg h1, List.nil_append]
      exact if_congr (by omega) rfl rfl

/-- The projector in RETIRING with its pending-new claims freed and the others withdrawn (R86). -/
def claimsWithdrawn (p : Slot) (s : State) : State := (s.claimNodes p).foldl (withdrawAt p) (s.modProj p Projector.retired)

theorem claimsWithdrawn_frees (p : Slot) (s : State) :
    Frees (s.modProj p Projector.retired) (claimsWithdrawn p s) (List.replicate (newClaims s p) p) := by
  rw [newClaims_eq]
  exact withdrawAll_frees p (nodup_claimNodes s p) (s.modProj p Projector.retired)

theorem record_claimsWithdrawn (p : Slot) (s : State) (q : Slot) : (claimsWithdrawn p s).proj q =
    if q = p then (s.proj p).retired.freed (newClaims s p) else s.proj q := by
  rw [(claimsWithdrawn_frees p s).record, proj_modProj]
  by_cases hq : q = p
  · subst hq
    rw [if_pos rfl, if_pos rfl, List.count_replicate_self]
  · rw [if_neg hq, if_neg hq, List.count_replicate, if_neg (by simpa using Ne.symm hq), Projector.freed_zero]

theorem claimsWithdrawn_yields (p : Slot) (s : State) : Yields s (claimsWithdrawn p s) := by
  have hretired : Yields s (s.modProj p Projector.retired) := Yields.of_same rfl fun q => by
    rw [proj_modProj]
    split
    · next h => rw [h]; rfl
    · rfl
  exact hretired.trans (claimsWithdrawn_frees p s).yields

/-- The events of the freeings (R76). -/
def freeingEvents (s : State) (p : Slot) (owed : Nat) : List Event :=
  if 0 < owed ∧ owed ≤ newClaims s p then [.failover p] else []

theorem claimsWithdrawn_raises (p : Slot) (s : State) :
    Raises s (claimsWithdrawn p s) (freeingEvents s p (s.proj p).failover) := by
  have h := (claimsWithdrawn_frees p s).raises
  have hfailover : (s.modProj p Projector.retired).failovers p = (s.proj p).failover := by
    rw [State.failovers, proj_modProj, if_pos rfl]
    rfl
  rw [zeroed_replicate, hfailover] at h
  have hevents : (if 0 < (s.proj p).failover ∧ (s.proj p).failover ≤ newClaims s p then [p] else []).map Event.failover
      = freeingEvents s p (s.proj p).failover := by
    unfold freeingEvents
    split <;> rfl
  rw [hevents] at h
  exact h.congr_left rfl

theorem claimsWithdrawn_touches (p : Slot) (s : State) :
    Touches [.dome, .projectors, .attention, .loader] s (claimsWithdrawn p s) :=
  (modProj_touches s p _).andThen (Touches.foldl (withdrawAt p) (withdrawAt_touches p) (s.claimNodes p) _)

theorem node_claimsWithdrawn (p : Slot) (s : State) (n : Nat) :
    (claimsWithdrawn p s).node n = if n ∈ s.claimNodes p then (s.node n).withdrawnBy p else s.node n :=
  node_withdrawAll p (s.claimNodes p) (s.modProj p Projector.retired) n

theorem withdrawnBy_eq (p : Slot) (r : Node) : r.withdrawnBy p = { r with claims := (r.withdrawnBy p).claims } := by
  unfold Node.withdrawnBy
  split
  · rfl
  · split <;> rfl

theorem claims_withdrawnBy {r : Node} (ho : r.Ordered) (p : Slot) : (r.withdrawnBy p).claims =
    (r.claims.filter fun c => !(c.projector == p && c.pendingNew)).map
      fun c => if c.projector = p then { c with withdrawn := true } else c := by
  cases hc : claimBy r.claims p with
  | none =>
    have hother := claimBy_eq_none_iff.1 hc
    have hfilter : (r.claims.filter fun c => !(c.projector == p && c.pendingNew)) = r.claims :=
      List.filter_eq_self.2 fun c hmem => by simp [hother c hmem]
    rw [hfilter, Node.withdrawnBy, hc]
    symm
    exact (List.map_congr_left fun c hmem => if_neg (hother c hmem)).trans (List.map_id _)
  | some d =>
    obtain ⟨hd, hp⟩ := claimBy_some hc
    have honly (c : Claim) (hmem : c ∈ r.claims) (hcp : c.projector = p) : c = d :=
      eq_of_projector ho.2 hmem hd (hcp.trans hp.symm)
    rw [Node.withdrawnBy, hc]
    dsimp only
    by_cases hnew : d.pendingNew = true
    · rw [if_pos hnew, Node.dropClaim]
      have hfilter : (r.claims.filter fun c => !(c.projector == p && c.pendingNew)) = r.claims.filter fun c => c.projector != p :=
        List.filter_congr fun c hmem => by
          by_cases hcp : c.projector = p
          · rw [honly c hmem hcp, hnew, hp]
            simp
          · simp [bne, beq_eq_false_iff_ne.2 hcp]
      rw [hfilter]
      symm
      refine (List.map_congr_left fun c hmem => ?_).trans (List.map_id _)
      exact if_neg (by simpa using (List.mem_filter.1 hmem).2)
    · rw [if_neg hnew, modClaim_eq]
      have hfilter : (r.claims.filter fun c => !(c.projector == p && c.pendingNew)) = r.claims :=
        List.filter_eq_self.2 fun c hmem => by
          by_cases hcp : c.projector = p
          · rw [honly c hmem hcp]
            simp [hnew]
          · simp [hcp]
      rw [hfilter]

end Sys2Proof.Machine
end

section
/-! PROOF. The entry into RETIRING as the statements describe it: `EnteredRetiring`, its events and its frame. -/

namespace Sys2Proof.Machine

open Sys2Proof Sys2Proof.Stating

set_option Elab.async false

/-! ### The steps of the entry (R86) -/

/-- The projector in RETIRING, its claims freed or withdrawn and its nodes invalidated, before any recomputation. -/
def retiringBegun (p : Slot) (s : State) : State := invalidateAll .urgent (s.claimNodes p) (claimsWithdrawn p s)

/-- The entry into RETIRING before the slot may be left. -/
def beforeLeaving (p : Slot) (s : State) : State :=
  if (s.proj p).state.contributing then recomputeGains (retiringBegun p s) else retiringBegun p s

theorem retiringBegun_touches (p : Slot) (s : State) :
    Touches [.dome, .solver, .edit] (claimsWithdrawn p s) (retiringBegun p s) := invalidateAll_touches .urgent _ _

theorem record_retiringBegun (p : Slot) (s : State) (q : Slot) : (retiringBegun p s).proj q =
    if q = p then (s.proj p).retired.freed (newClaims s p) else s.proj q :=
  (proj_congr (retiringBegun_touches p s).projectors q).trans (record_claimsWithdrawn p s q)

theorem retiringBegun_yields (p : Slot) (s : State) : Yields s (retiringBegun p s) :=
  (claimsWithdrawn_yields p s).trans (Yields.of_same (retiringBegun_touches p s).loader
    fun q => by rw [proj_congr (retiringBegun_touches p s).projectors q])

theorem retiringBegun_raises (p : Slot) (s : State) :
    Raises s (retiringBegun p s) (freeingEvents s p (s.proj p).failover) :=
  (claimsWithdrawn_raises p s).congr_right (retiringBegun_touches p s).attention

/-- A step that changes the loader and the failovers no more than a recomputation does. -/
theorem recomputeGains_yields (s : State) : Yields s (recomputeGains s) :=
  Yields.of_same (recomputeGains_touches s).loader fun q => by rw [proj_recomputeGains]; rfl

theorem beforeLeaving_touches (p : Slot) (s : State) :
    Touches [.projectors, .attention] (retiringBegun p s) (beforeLeaving p s) :=
  Touches.ite (recomputeGains_touches _) (Touches.refl _ _)

theorem record_beforeLeaving (p : Slot) (s : State) (q : Slot) : SameButForTarget
    (if q = p then (s.proj p).retired.freed (newClaims s p) else s.proj q) ((beforeLeaving p s).proj q) := by
  rw [← record_retiringBegun]
  unfold beforeLeaving
  split
  · exact sameButForTarget_recomputeGains _ q
  · exact SameButForTarget.refl _

theorem beforeLeaving_yields (p : Slot) (s : State) : Yields s (beforeLeaving p s) :=
  Yields.ite (fun _ => (retiringBegun_yields p s).trans (recomputeGains_yields _)) fun _ => retiringBegun_yields p s

theorem cls_of_mem_freeingEvents {s : State} {p : Slot} {owed : Nat} {e : Event} (he : e ∈ freeingEvents s p owed) :
    e.cls ≠ 8 := by
  unfold freeingEvents at he
  split at he
  · rw [List.mem_singleton.1 he]
    simp [Event.cls]
  · cases he

theorem freeingEvents_visible (s : State) (p : Slot) (owed : Nat) :
    ((freeingEvents s p owed).filter fun e => e.cls ≠ 8) = freeingEvents s p owed :=
  List.filter_eq_self.2 fun _ he => decide_eq_true (cls_of_mem_freeingEvents he)

theorem beforeLeaving_raised (p : Slot) (s : State) :
    Raised s (beforeLeaving p s) (freeingEvents s p (s.proj p).failover) := by
  have h := (retiringBegun_raises p s).toRaised
  unfold beforeLeaving
  split
  · have h' := Raised.trans h (recomputeGains_raised (retiringBegun p s))
    rwa [List.append_nil] at h'
  · exact h

theorem state_beforeLeaving (p : Slot) (s : State) :
    ((beforeLeaving p s).proj p).state = .retiring ∧
      ((beforeLeaving p s).proj p).claimCount = (s.proj p).claimCount - newClaims s p := by
  have h := record_beforeLeaving p s p
  rw [if_pos rfl] at h
  obtain ⟨t, l, hrecord⟩ := (sameButForTarget_iff _ _).1 h
  rw [hrecord]
  exact ⟨rfl, rfl⟩

theorem enterRetiring_eq (p : Slot) (s : State) : enterRetiring p s =
    if (s.proj p).claimCount - newClaims s p = 0 then emptySlot p (beforeLeaving p s) else beforeLeaving p s := by
  obtain ⟨hstate, hcount⟩ := state_beforeLeaving p s
  have hunfold : enterRetiring p s = emptyIfDone p (beforeLeaving p s) := by
    unfold enterRetiring beforeLeaving retiringBegun claimsWithdrawn
    rfl
  rw [hunfold, emptyIfDone, hstate, hcount]
  exact if_congr (and_iff_right rfl) rfl rfl

theorem enterRetiring_touches_after (p : Slot) (s : State) :
    Touches [.projectors, .raster, .channels, .loader, .attention] (retiringBegun p s) (enterRetiring p s) := by
  rw [enterRetiring_eq]
  exact Touches.ite ((beforeLeaving_touches p s).andThen (emptySlot_touches p _)) (beforeLeaving_touches p s).mono

/-! ### What it leaves of the map and of the queue -/

theorem nodesInvalidated_enterRetiring (p : Slot) (s : State) : NodesInvalidated s (enterRetiring p s) p := by
  have htouches := claimsWithdrawn_touches p s
  have hbegun : NodesInvalidated s (retiringBegun p s) p := by
    refine nodesInvalidated_of_invalidateAll (fun n => ?_) (fun n hn => ?_) htouches.solver htouches.edit
    · rw [node_claimsWithdrawn]
      split
      · exact withdrawnBy_eq p _
      · rfl
    · rw [node_claimsWithdrawn, if_neg hn]
  have hafter := enterRetiring_touches_after p s
  exact NodesInvalidated.congr_right hbegun hafter.dome hafter.solver hafter.edit

theorem free_invalidateAll (cls : QueueClass) (ns : List Nat) (s : State) :
    (invalidateAll cls ns s).dome.freeCount = s.dome.freeCount := (KeepsClaims.invalidateAll cls ns s).free

theorem free_enterRetiring (p : Slot) (s : State) :
    (enterRetiring p s).dome.freeCount = s.dome.freeCount + newClaims s p := by
  have hfrees := (claimsWithdrawn_frees p s).free
  rw [List.length_replicate] at hfrees
  rw [(enterRetiring_touches_after p s).dome, retiringBegun, free_invalidateAll, hfrees]
  rfl

theorem claims_enterRetiring {s : State} (p : Slot) {n : Nat} (hordered : (s.node n).Ordered) (hn : n < 2049) :
    ((enterRetiring p s).node n).claims = ((s.node n).claims.filter fun c => !(c.projector == p && c.pendingNew)).map
      fun c => if c.projector = p then { c with withdrawn := true } else c := by
  rw [← claims_withdrawnBy hordered p, node_enterRetiring]
  by_cases hmem : n ∈ s.claimNodes p
  · rw [if_pos hmem]
    rfl
  · rw [if_neg hmem]
    have hnone : claimBy (s.node n).claims p = none := by
      rw [claimBy_eq_none_iff]
      intro c hc hp
      refine hmem (mem_claimNodes.2 ⟨hn, ?_⟩)
      rw [Node.claimedBy, List.any_eq_true]
      exact ⟨c, hc, beq_iff_eq.2 hp⟩
    rw [Node.withdrawnBy, hnone]

/-! ### The record and the slot -/

theorem retiredRecord_enterRetiring (p : Slot) (s : State) :
    RetiredRecord s (enterRetiring p s) p (s.proj p).failover := by
  have hbefore := record_beforeLeaving p s p
  rw [if_pos rfl] at hbefore
  obtain ⟨target, limited, hrecord⟩ := (sameButForTarget_iff _ _).1 hbefore
  refine ⟨fun h0 => ?left, fun hleft => ?kept⟩
  case left =>
    have hvacates := emptySlot_vacates p (beforeLeaving p s)
    have hchan : (beforeLeaving p s).chan p = s.chan p := by
      rw [chan_congr (beforeLeaving_touches p s).channels, chan_congr (retiringBegun_touches p s).channels,
        chan_congr (claimsWithdrawn_touches p s).channels]
    rw [enterRetiring_eq, if_pos h0]
    refine ⟨?_, ?_, ?_, ?_⟩
    · have hempty := (Empties.emptySlot p (beforeLeaving p s)).record p
      rw [if_pos (List.mem_singleton_self p), hrecord] at hempty
      have hzero : (s.proj p).claimCount - newClaims s p = 0 := h0
      unfold Projector.emptied Projector.freed Projector.retired at hempty
      dsimp only at hempty
      rw [hzero] at hempty
      exact hempty
    · rw [hvacates.chan, if_pos (List.mem_singleton_self p), hchan]
      rfl
    · rw [hvacates.streams, if_pos (List.mem_singleton_self p)]
    · rw [hvacates.links, if_pos (List.mem_singleton_self p)]
  case kept =>
    rw [enterRetiring_eq, if_neg hleft]
    exact hbefore

/-- The slots that an entry into RETIRING leaves. -/
def leaving (s : State) (p : Slot) : List Slot := if (s.proj p).claimCount - newClaims s p = 0 then [p] else []

theorem enterRetiring_vacates (p : Slot) (s : State) : Vacates s (enterRetiring p s) (leaving s p) := by
  have hbefore : Vacates s (beforeLeaving p s) [] := Vacates.of_same
    ((beforeLeaving_touches p s).channels.trans ((retiringBegun_touches p s).channels.trans (claimsWithdrawn_touches p s).channels))
    ((beforeLeaving_touches p s).raster.trans ((retiringBegun_touches p s).raster.trans (claimsWithdrawn_touches p s).raster))
  rw [enterRetiring_eq]
  unfold leaving
  split
  · exact hbefore.trans (emptySlot_vacates p _)
  · exact hbefore

theorem enterRetiring_yields (p : Slot) (s : State) : Yields s (enterRetiring p s) := by
  rw [enterRetiring_eq]
  exact Yields.ite (fun _ => (beforeLeaving_yields p s).trans (emptySlot_yields p _)) fun _ => beforeLeaving_yields p s

theorem enterRetiring_raised (p : Slot) (s : State) :
    Raised s (enterRetiring p s) (retirementEvents s p (s.proj p).failover) := by
  have hbefore := beforeLeaving_raised p s
  have hdone : (s.proj p).claimCount - newClaims s p = 0 ↔ (s.proj p).claimCount ≤ newClaims s p := by omega
  rw [enterRetiring_eq]
  unfold retirementEvents
  by_cases h0 : (s.proj p).claimCount - newClaims s p = 0
  · rw [if_pos h0, if_pos (hdone.1 h0)]
    exact Raised.trans hbefore (emptySlot_raised p _)
  · rw [if_neg h0, if_neg (mt hdone.2 h0), List.append_nil]
    exact hbefore

theorem proj_enterRetiring_of_ne (p : Slot) (s : State) {q : Slot} (hq : q ≠ p) :
    SameButForTarget (s.proj q) ((enterRetiring p s).proj q) := by
  have hbefore := record_beforeLeaving p s q
  rw [if_neg hq] at hbefore
  rw [enterRetiring_eq]
  split
  · have hempty := (Empties.emptySlot p (beforeLeaving p s)).record q
    rw [if_neg (by simpa using hq)] at hempty
    exact SameButForTarget.trans hbefore hempty
  · exact hbefore

/-! ### The targets -/

theorem settled_enterRetiring {p : Slot} {s : State}
    (h : (s.proj p).state.contributing = true ∨ (s.proj p).claimCount - newClaims s p = 0) :
    TargetsSettled (enterRetiring p s) := by
  rw [enterRetiring_eq]
  by_cases h0 : (s.proj p).claimCount - newClaims s p = 0
  · rw [if_pos h0]
    exact targetsSettled_emptySlot p _
  · rw [if_neg h0, beforeLeaving, if_pos (h.resolve_right h0)]
    exact targetsSettled_recomputeGains _

theorem recomputedOnce_enterRetiring {p : Slot} {s : State}
    (h : (s.proj p).state.contributing = true ∧ (s.proj p).claimCount - newClaims s p ≠ 0 ∨
      ¬(s.proj p).state.contributing = true ∧ (s.proj p).claimCount - newClaims s p = 0) :
    RecomputedOnce s (enterRetiring p s) := by
  have hbegun := retiringBegun_raises p s
  rcases h with ⟨hc, h0⟩ | ⟨hc, h0⟩
  · refine recomputedOnce_of_raises (settled_enterRetiring (.inl hc)) (es := freeingEvents s p (s.proj p).failover) (fs := []) ?_
      (fun e he => cls_of_mem_freeingEvents he) (by simp)
    rw [enterRetiring_eq, if_neg h0, beforeLeaving, if_pos hc, List.append_nil]
    exact hbegun.trans (recomputeGains_raises _)
  · refine recomputedOnce_of_raises (settled_enterRetiring (.inr h0)) (es := freeingEvents s p (s.proj p).failover) (fs := [.fadeDone p true]) ?_
      (fun e he => cls_of_mem_freeingEvents he) (by simp [Event.cls])
    rw [enterRetiring_eq, if_pos h0, beforeLeaving, if_neg hc, List.append_assoc]
    exact hbegun.trans (emptySlot_raises p _)

theorem targetsStand_enterRetiring {p : Slot} {s : State} (hc : ¬(s.proj p).state.contributing = true)
    (h0 : (s.proj p).claimCount - newClaims s p ≠ 0) : TargetsStand s (enterRetiring p s) := by
  rw [enterRetiring_eq, if_neg h0, beforeLeaving, if_neg hc]
  refine TargetsStand.of_raises (retiringBegun_raises p s) (fun e he => cls_of_mem_freeingEvents he) fun q => ?_
  rw [record_retiringBegun]
  split
  · next hq => rw [hq]; exact ⟨rfl, rfl⟩
  · exact ⟨rfl, rfl⟩

theorem enteredRetiring_enterRetiring (p : Slot) (s : State) : EnteredRetiring s (enterRetiring p s) p (s.proj p).failover :=
  ⟨retiredRecord_enterRetiring p s, nodesInvalidated_enterRetiring p s, free_enterRetiring p s,
    fun ho n hn => claims_enterRetiring p (ho n) hn, recomputedOnce_enterRetiring, fun ⟨hc, _⟩ => settled_enterRetiring (.inl hc),
    fun ⟨hc, h0⟩ => targetsStand_enterRetiring hc h0⟩

/-! ### The frame -/

/-- A step that touches the inner fields alone, and rewrites the map. -/
theorem claimStep_of {s t : State} {gone : List Slot} {emptied : Slot → Prop} (htouches : Touches Field.inner s t)
    (hrewrites : Rewrites s t) (hvacates : Vacates s t gone) (hgone : ∀ p ∈ gone, emptied p) : ClaimStep emptied s t := by
  refine ⟨?_, fun p hp => ?_⟩
  · have hframe := htouches.frame
    rw [hvacates.raster_eq, ← hrewrites.dome_eq]
    exact hframe
  · have hnot : p ∉ gone := fun h => hp (hgone p h)
    exact ⟨by rw [hvacates.chan, if_neg hnot], by rw [hvacates.streams, if_neg hnot], by rw [hvacates.links, if_neg hnot]⟩

theorem claimStep_enterRetiring (p : Slot) (s : State) :
    ClaimStep (fun q => q = p ∧ (s.proj p).claimCount ≤ newClaims s p) s (enterRetiring p s) := by
  refine claimStep_of (enterRetiring_touches p s) (enterRetiring_rewrites p s) (enterRetiring_vacates p s) fun q hq => ?_
  unfold leaving at hq
  split at hq
  · next h0 => exact ⟨List.mem_singleton.1 hq, by omega⟩
  · cases hq

end Sys2Proof.Machine
end

section
/-! PROOF. Fade starts and cuts: FADE PROJECTOR (O26) and RETIRE PROJECTOR (O29). -/

namespace Sys2Proof.Machine

open Sys2Proof Sys2Proof.Stating

set_option Elab.async false

/-! ### A record changed with its nodes refreshed: a fade start and a cut in (R80, R84) -/

/-- A projector's record changed and its nodes soft-refreshed; from PARKED the targets are recomputed. -/
def refreshedWith (p : Slot) (f : Projector → Projector) (s : State) : State :=
  if (s.proj p).state = .parked then recomputeGains (refreshClaimed p (s.modProj p f)) else refreshClaimed p (s.modProj p f)

theorem cutIn_eq (p : Slot) (s : State) :
    cutIn p s = refreshedWith p (fun r => { r with state := .live, phi := 256, fade := none }) s := rfl

theorem startFade_eq (p : Slot) (st : ProjState) (f : Fade) (s : State) :
    startFade p st f s = refreshedWith p (fun r => { r with state := st, fade := some f }) s := rfl

section
variable (p : Slot) (f : Projector → Projector) (s : State)

theorem refreshClaimed_modProj_touches : Touches [.dome, .solver, .projectors] s (refreshClaimed p (s.modProj p f)) :=
  (modProj_touches s p f).andThen (refreshClaimed_touches p _)

theorem refreshClaimed_modProj_keepsClaims : KeepsClaims s (refreshClaimed p (s.modProj p f)) :=
  (KeepsClaims.of_touches (modProj_touches s p f)).trans (KeepsClaims.refreshClaimed p _)

theorem refreshClaimed_modProj_tableStep : TableStep s (refreshClaimed p (s.modProj p f)) :=
  (refreshClaimed_modProj_keepsClaims p f s).tableStep (refreshClaimed_modProj_touches p f s).mono

theorem proj_refreshClaimed_modProj (q : Slot) :
    (refreshClaimed p (s.modProj p f)).proj q = if q = p then f (s.proj p) else s.proj q := by
  rw [proj_refreshClaimed, proj_modProj]

theorem refreshClaimed_modProj_raises : Raises s (refreshClaimed p (s.modProj p f)) [] :=
  Raises.of_attention (refreshClaimed_modProj_touches p f s).attention

theorem refreshedWith_tableStep : TableStep s (refreshedWith p f s) := by
  have htouches := refreshClaimed_modProj_touches p f s
  have hkeeps := refreshClaimed_modProj_keepsClaims p f s
  unfold refreshedWith
  split
  · exact (hkeeps.trans (KeepsClaims.of_touches (recomputeGains_touches _))).tableStep
      (htouches.andThen (recomputeGains_touches _))
  · exact hkeeps.tableStep htouches.mono

theorem refreshedWith_nodesRefreshed : NodesRefreshed s (refreshedWith p f s) p := by
  have h := nodesRefreshed_refreshClaimed p s f
  have hrecomputed := recomputeGains_touches (refreshClaimed p (s.modProj p f))
  unfold refreshedWith
  split
  · exact NodesRefreshed.congr_right h hrecomputed.dome hrecomputed.solver hrecomputed.edit
  · exact h

theorem proj_refreshedWith (q : Slot) :
    SameButForTarget (if q = p then f (s.proj p) else s.proj q) ((refreshedWith p f s).proj q) := by
  rw [← proj_refreshClaimed_modProj]
  unfold refreshedWith
  split
  · exact sameButForTarget_recomputeGains _ q
  · exact SameButForTarget.refl _

theorem refreshedWith_raised : Raised s (refreshedWith p f s) [] := by
  have h := (refreshClaimed_modProj_raises p f s).toRaised
  unfold refreshedWith
  split
  · exact Raised.trans h (recomputeGains_raised _)
  · exact h

end

theorem recomputedOnce_refreshedWith {p : Slot} {s : State} (h : (s.proj p).state = .parked) (f : Projector → Projector) :
    RecomputedOnce s (refreshedWith p f s) := by
  rw [refreshedWith, if_pos h]
  refine recomputedOnce_of_raises (targetsSettled_recomputeGains _) (es := []) (fs := []) ?_ (by simp) (by simp)
  rw [List.append_nil]
  exact (refreshClaimed_modProj_raises p f s).trans (recomputeGains_raises _)

theorem refreshedWith_of_not_parked {p : Slot} {s : State} (h : (s.proj p).state ≠ .parked) (f : Projector → Projector) :
    refreshedWith p f s = refreshClaimed p (s.modProj p f) := if_neg h

theorem targetsStand_refreshedWith {p : Slot} {s : State} (h : (s.proj p).state ≠ .parked) {f : Projector → Projector}
    (hf : (f (s.proj p)).gainTarget = (s.proj p).gainTarget ∧ (f (s.proj p)).limited = (s.proj p).limited) :
    TargetsStand s (refreshedWith p f s) := by
  rw [refreshedWith_of_not_parked h]
  refine TargetsStand.of_raises (refreshClaimed_modProj_raises p f s) (by simp) fun q => ?_
  rw [proj_refreshClaimed]
  exact targets_modProj s p hf q

/-- A fade out started from any state but PARKED changes the projector's own record alone, and raises nothing (R79). -/
theorem startFadeOut_spec {p : Slot} {s : State} (h : (s.proj p).state ≠ .parked) (start n : Nat) (retireAfter : Bool) :
    let t := startFadeOut p start n retireAfter s
    TableStep s t ∧ NodesRefreshed s t p ∧ (∀ q, q ≠ p → t.proj q = s.proj q) ∧ t.attention = s.attention ∧
      t.proj p = { s.proj p with
        state := .fadingOut
        fade := some { start := start, target := 0, length := n, elapsed := 0, retireAfter := retireAfter } } := by
  intro t
  have ht : t = refreshClaimed p (s.modProj p fun r => { r with
      state := .fadingOut
      fade := some { start := start, target := 0, length := n, elapsed := 0, retireAfter := retireAfter } }) :=
    refreshedWith_of_not_parked h _
  rw [ht]
  refine ⟨refreshClaimed_modProj_tableStep p _ s, nodesRefreshed_refreshClaimed p s _, fun q hq => ?_,
    (refreshClaimed_modProj_touches p _ s).attention, ?_⟩
  · rw [proj_refreshClaimed_modProj, if_neg hq]
  · rw [proj_refreshClaimed_modProj, if_pos rfl]

/-! ### A cut out (R84) -/

section
variable (p : Slot) (s : State)

/-- The projector parked at φ 0, its nodes hard-invalidated, before the recomputation. -/
def cutOutBegun : State := invalidateClaimed p (s.modProj p fun r => { r with state := .parked, phi := 0, fade := none })

theorem cutOut_eq : cutOut p s = recomputeGains (cutOutBegun p s) := rfl

theorem cutOutBegun_touches : Touches [.dome, .solver, .edit, .projectors] s (cutOutBegun p s) :=
  (modProj_touches s p _).andThen (invalidateClaimed_touches p _)

theorem cutOut_tableStep : TableStep s (cutOut p s) := by
  have hkeeps : KeepsClaims s (cutOutBegun p s) :=
    (KeepsClaims.of_touches (modProj_touches s p _)).trans (KeepsClaims.invalidateClaimed p _)
  exact (hkeeps.trans (KeepsClaims.of_touches (recomputeGains_touches _))).tableStep (cutOut_touches p s)

theorem proj_cutOut (q : Slot) : SameButForTarget
    (if q = p then { s.proj p with state := .parked, phi := 0, fade := none } else s.proj q) ((cutOut p s).proj q) := by
  have hbegun : (cutOutBegun p s).proj q =
      if q = p then { s.proj p with state := .parked, phi := 0, fade := none } else s.proj q := by
    rw [cutOutBegun, proj_congr (invalidateClaimed_touches p _).projectors, proj_modProj]
  rw [← hbegun]
  exact sameButForTarget_recomputeGains _ q

theorem cutOut_nodesInvalidated : NodesInvalidated s (cutOut p s) p := by
  have hrecomputed := recomputeGains_touches (cutOutBegun p s)
  have h : NodesInvalidated s (cutOutBegun p s) p := nodesInvalidated_invalidateClaimed p rfl rfl rfl
  exact NodesInvalidated.congr_right h hrecomputed.dome hrecomputed.solver hrecomputed.edit

theorem cutOutBegun_raises : Raises s (cutOutBegun p s) [] := Raises.of_attention (cutOutBegun_touches p s).attention

theorem cutOut_raised : Raised s (cutOut p s) [] := Raised.trans (cutOutBegun_raises p s).toRaised (recomputeGains_raised _)

theorem recomputedOnce_cutOut : RecomputedOnce s (cutOut p s) := by
  refine recomputedOnce_of_raises (targetsSettled_recomputeGains _) (es := []) (fs := []) ?_ (by simp) (by simp)
  rw [List.append_nil]
  exact (cutOutBegun_raises p s).trans (recomputeGains_raises _)

end

/-! ### The reply (R79, R85) -/

theorem fadeReport_eq (r : Projector) : fadeReport r = fadeReply r := by
  unfold fadeReport fadeReply
  rw [packBits_one]
  cases r.fade with
  | none => rfl
  | some f => simp only [optional, fadeFields_eq, packBits_one, u8_eq, u16_eq, Option.isSome_some, if_true,
      List.append_assoc, List.cons_append, List.nil_append]

/-! ### FADE PROJECTOR (R78, R79) -/

/-- What FADE PROJECTOR does in the direction that is asked; none when it is refused. -/
def fadeAsked (dir : Nat) (p : Slot) (n : Nat) (s : State) : Option State :=
  if dir % 2 = 0 then fadeIn p n s else fadeOut p n s

theorem fadeIn_of_from {s : State} {p : Slot} {start : Nat} (h : fadeInFrom s p = some start) (n : Nat) :
    fadeIn p n s = some (if n = 0 then cutIn p s else startFadeIn p start n s) := by
  have hlive : (s.proj p).state ≠ .live := fun hlive => by simp [fadeInFrom, hlive] at h
  rw [fadeIn_eq, if_neg hlive, h]
  rfl

theorem fadeOut_of_from {s : State} {p : Slot} {start : Nat} (h : fadeOutFrom s p = some start) (n : Nat) :
    fadeOut p n s = some (if (s.proj p).state = .fadingOut ∧ s.retireFade p = true then
        (if n = 0 then enterRetiring p s else startFadeOut p start n true s)
      else if n = 0 then cutOut p s else startFadeOut p start n false s) := by
  have hparked : (s.proj p).state ≠ .parked := fun hparked => by simp [fadeOutFrom, hparked] at h
  rw [fadeOut_eq, if_neg hparked, h]
  rfl

theorem fadeAsked_refused {s : State} {p : Slot} {dir : Nat} (n : Nat)
    (h : (s.proj p).state = .failed ∨ (s.proj p).state = .retiring ∨
      dir % 2 = 0 ∧ ((s.proj p).state = .parked ∧ (s.chan p).lock ≠ .locked ∨
        (s.proj p).state = .fadingOut ∧ s.retireFade p = true)) : fadeAsked dir p n s = none := by
  unfold fadeAsked
  rcases h with h | h | ⟨hdir, ⟨h, hlock⟩ | ⟨h, hretire⟩⟩
  · simp [fadeIn, fadeOut, h]
  · simp [fadeIn, fadeOut, h]
  · simp [fadeIn, hdir, h, hlock]
  · simp [fadeIn, hdir, h, hretire]

theorem fadeAsked_unchanged {s : State} {p : Slot} {dir : Nat} (n : Nat)
    (h : dir % 2 = 0 ∧ (s.proj p).state = .live ∨ dir % 2 = 1 ∧ (s.proj p).state = .parked) :
    fadeAsked dir p n s = some s := by
  unfold fadeAsked
  rcases h with ⟨hdir, h⟩ | ⟨hdir, h⟩
  · simp [fadeIn, hdir, h]
  · simp [fadeOut, hdir, h]

/-- What FADE PROJECTOR runs on an enrolled slot. -/
theorem fadeRequest_eq {slot dir n : Byte} {p : Slot} (hp : slot.toNat = p.val) {s : State} (hv : (s.proj p).state ≠ .vacant)
    (code tag : Byte) : fadeRequest { code := code, tag := tag, fields := [slot, dir, n] } s =
      match fadeAsked dir.toNat p n.toNat s with
      | none => (s, ⟨.state, u8 (s.proj p).state.code⟩)
      | some t => (startSolve t, .ok (fadeReport (t.proj p))) :=
  (withSlot_val hp _ _).trans (if_neg hv)

section
variable {s : State} {tag slot dir n : Byte} {rest : List Request} {p : Slot}

/-- FADE PROJECTOR that is taken by a change that reads and writes inside the block alone. -/
theorem exec_fadeProjector (hw : Waits s 0x21 tag [slot, dir, n] rest) (hp : slot.toNat = p.val)
    (hv : (s.proj p).state ≠ .vacant) {f : State → State} (hf : Inward f)
    (hasked : ∀ q, fadeAsked dir.toNat p n.toNat (s.setPort q) = some (f (s.setPort q))) :
    exec .fadeProjector s = .next (answered (startSolve (f s)) rest tag .ok (fadeReply ((f s).proj p))) := by
  refine congrArg Host.Outcome.next (runRequest_of_waits (run := fadeRequest) (f := fun u => startSolve (f u))
    (a := .ok (fadeReply ((f s).proj p))) hw rfl rfl rfl (Inward.startSolve.comp hf) ?_)
  rw [fadeRequest_eq hp (s := s.setPort { s.port with requests := rest }) hv, hasked]
  dsimp only
  rw [fadeReport_eq, hf.setPort]
  rfl

theorem exec_fadeProjector_in (hw : Waits s 0x21 tag [slot, dir, n] rest) (hp : slot.toNat = p.val)
    (hdir : dir.toNat % 2 = 0) {start : Nat} (hfrom : fadeInFrom s p = some start) {f : State → State} (hf : Inward f)
    (hbranch : ∀ u, (if n.toNat = 0 then cutIn p u else startFadeIn p start n.toNat u) = f u) :
    exec .fadeProjector s = .next (answered (startSolve (f s)) rest tag .ok (fadeReply ((f s).proj p))) := by
  refine exec_fadeProjector hw hp (fun hv => by simp [fadeInFrom, hv] at hfrom) hf fun q => ?_
  rw [fadeAsked, if_pos hdir, fadeIn_of_from (s := s.setPort q) hfrom, hbranch]

theorem exec_fadeProjector_out (hw : Waits s 0x21 tag [slot, dir, n] rest) (hp : slot.toNat = p.val)
    (hdir : dir.toNat % 2 = 1) {start : Nat} (hfrom : fadeOutFrom s p = some start) {f : State → State} (hf : Inward f)
    (hbranch : ∀ u, (if (s.proj p).state = .fadingOut ∧ s.retireFade p = true then
        (if n.toNat = 0 then enterRetiring p u else startFadeOut p start n.toNat true u)
      else if n.toNat = 0 then cutOut p u else startFadeOut p start n.toNat false u) = f u) :
    exec .fadeProjector s = .next (answered (startSolve (f s)) rest tag .ok (fadeReply ((f s).proj p))) := by
  refine exec_fadeProjector hw hp (fun hv => by simp [fadeOutFrom, hv] at hfrom) hf fun q => ?_
  rw [fadeAsked, if_neg (by omega), fadeOut_of_from (s := s.setPort q) hfrom]
  exact congrArg some (hbranch _)

end

/-- Settles O26: the answers by the tables of R78 and R79, and what is started, cut or retired by its own rules. -/
theorem fadeProjectorFollowsTables : Obligations.FadeProjectorFollowsTables := by
  refine ⟨fun s tag slot dir n rest hw => ⟨fun hslot => ?unknown, fun p hp => ⟨fun hv => ?vacant, fun h => ?refused,
    fun h hnothing => ?unchanged⟩⟩, fun s tag slot dir n rest hw p hp => ⟨fun start hdir hfrom => ?inward,
    fun start hdir hfrom => ⟨fun hn => ?out, fun hn hkept => ?cut, fun hn hfading hretire => ?retired⟩⟩⟩
  case unknown =>
    exact congrArg Host.Outcome.next (runRequest_of_waits_same (run := fadeRequest) hw rfl rfl rfl (withSlot_none hslot _ _))
  case vacant =>
    have hcode : u8 (s.proj p).state.code = [0] := by rw [hv]; rfl
    exact congrArg Host.Outcome.next (runRequest_of_waits_same (run := fadeRequest) (a := ⟨.badProjector, [0]⟩) hw rfl rfl
      rfl ((withSlot_val hp _ _).trans ((if_pos hv).trans (by rw [← hcode]; rfl))))
  case refused =>
    have hv : (s.proj p).state ≠ .vacant := fun hv => by simp [hv] at h
    refine congrArg Host.Outcome.next (runRequest_of_waits_same (run := fadeRequest)
      (a := ⟨.state, [byte (s.proj p).state.code]⟩) hw rfl rfl rfl ?_)
    rw [fadeRequest_eq hp (s := s.setPort { s.port with requests := rest }) hv,
      fadeAsked_refused (s := s.setPort { s.port with requests := rest }) n.toNat h]
    rfl
  case unchanged =>
    have hv : (s.proj p).state ≠ .vacant := fun hv => by simp [hv] at h
    have hexec := exec_fadeProjector hw hp hv Inward.id fun q => fadeAsked_unchanged (s := s.setPort q) n.toNat h
    rwa [startSolve_of_nothing (s := s) hnothing] at hexec
  case inward =>
    by_cases hn : n.toNat = 0
    · refine ⟨cutIn p s, exec_fadeProjector_in hw hp hdir hfrom (Inward.cutIn p) (fun u => if_pos hn),
        refreshedWith_tableStep p _ s, refreshedWith_nodesRefreshed p _ s, fun q hq => ?_, fun h => absurd hn h, fun _ => ?_,
        refreshedWith_raised p _ s, fun h => recomputedOnce_refreshedWith h _,
        fun h => targetsStand_refreshedWith h ⟨rfl, rfl⟩⟩
      · have h := proj_refreshedWith p (fun r => { r with state := .live, phi := 256, fade := none }) s q
        rwa [if_neg hq] at h
      · have h := proj_refreshedWith p (fun r => { r with state := .live, phi := 256, fade := none }) s p
        rwa [if_pos rfl] at h
    · refine ⟨startFadeIn p start n.toNat s, exec_fadeProjector_in hw hp hdir hfrom (Inward.startFade p _ _)
          (fun u => if_neg hn),
        refreshedWith_tableStep p _ s, refreshedWith_nodesRefreshed p _ s, fun q hq => ?_, fun _ => ?_, fun h => absurd h hn,
        refreshedWith_raised p _ s, fun h => recomputedOnce_refreshedWith h _,
        fun h => targetsStand_refreshedWith h ⟨rfl, rfl⟩⟩
      · have h := proj_refreshedWith p (fun r => { r with
          state := .fadingIn
          fade := some { start := start, target := 256, length := n.toNat, elapsed := 0, retireAfter := false } }) s q
        rwa [if_neg hq] at h
      · have h := proj_refreshedWith p (fun r => { r with
          state := .fadingIn
          fade := some { start := start, target := 256, length := n.toNat, elapsed := 0, retireAfter := false } }) s p
        rwa [if_pos rfl] at h
  case out =>
    intro kept
    have hparked : (s.proj p).state ≠ .parked := fun hparked => by simp [fadeOutFrom, hparked] at hfrom
    refine ⟨startFadeOut p start n.toNat kept s,
      exec_fadeProjector_out hw hp hdir hfrom (Inward.startFade p _ _) fun u => ?_, startFadeOut_spec hparked _ _ _⟩
    rw [if_neg hn, if_neg hn]
    by_cases hk : (s.proj p).state = .fadingOut ∧ s.retireFade p = true
    · have hkept : kept = true := by simp [kept, hk]
      rw [if_pos hk, hkept]
    · have hkept : kept = false := by simpa [kept] using hk
      rw [if_neg hk, hkept]
  case cut =>
    refine ⟨cutOut p s, exec_fadeProjector_out hw hp hdir hfrom (Inward.cutOut p) (fun u => ?_), cutOut_tableStep p s,
      fun q hq => ?_, ?_, cutOut_nodesInvalidated p s, cutOut_raised p s, recomputedOnce_cutOut p s⟩
    · have hnot : ¬((s.proj p).state = .fadingOut ∧ s.retireFade p = true) := by
        rintro ⟨hfading, hretire⟩
        rcases hkept with h | h
        · exact h hfading
        · rw [h] at hretire; cases hretire
      rw [if_neg hnot, if_pos hn]
    · have h := proj_cutOut p s q
      rwa [if_neg hq] at h
    · have h := proj_cutOut p s p
      rwa [if_pos rfl] at h
  case retired =>
    refine ⟨enterRetiring p s, exec_fadeProjector_out hw hp hdir hfrom (Inward.enterRetiring p) (fun u => ?_),
      enteredRetiring_enterRetiring p s, enterRetiring_raised p s, fun q hq => proj_enterRetiring_of_ne p s hq,
      claimStep_enterRetiring p s, (enterRetiring_yields p s).follows⟩
    rw [if_pos ⟨hfading, hretire⟩, if_pos hn]

/-! ### RETIRE PROJECTOR (R85) -/

section
variable {s : State} {p : Slot} {n : Nat}

theorem retire_of_fadingOut (h : (s.proj p).state = .fadingOut) : retire p n s =
    s.modProj p fun r => { r with fade := r.fade.map fun f => { f with retireAfter := true } } := by
  rw [retire, h]

theorem retire_of_retiring (h : (s.proj p).state = .retiring) : retire p n s = s := by
  rw [retire, h]

theorem retire_of_contributing (h : (s.proj p).state = .live ∨ (s.proj p).state = .fadingIn) (hn : n ≠ 0) : retire p n s =
    startFadeOut p (if (s.proj p).state = .live then 256 else (s.proj p).phi) n true s := by
  rcases h with h | h <;> simp [retire, h, hn]

theorem retire_at_once (h : (s.proj p).state = .parked ∨ (s.proj p).state = .failed ∨
    ((s.proj p).state = .live ∨ (s.proj p).state = .fadingIn) ∧ n = 0) : retire p n s = enterRetiring p s := by
  rcases h with h | h | ⟨h | h, hn⟩
  · rw [retire, h]
  · rw [retire, h]
  · simp [retire, h, hn]
  · simp [retire, h, hn]

end

theorem exec_retireProjector {s : State} {tag slot n : Byte} {rest : List Request} {p : Slot}
    (hw : Waits s 0x22 tag [slot, n] rest) (hp : slot.toNat = p.val) (hv : (s.proj p).state ≠ .vacant) :
    exec .retireProjector s = .next (answered (startSolve (retire p n.toNat s)) rest tag .ok
      (fadeReply ((retire p n.toNat s).proj p))) := by
  refine congrArg Host.Outcome.next (runRequest_of_waits (run := retireRequest)
    (f := fun u => startSolve (retire p n.toNat u)) (a := .ok (fadeReply ((retire p n.toNat s).proj p))) hw rfl rfl rfl
    (Inward.startSolve.comp (Inward.retire p n.toNat)) ((withSlot_val hp _ _).trans ((if_neg hv).trans ?_)))
  have hretired := (Inward.retire p n.toNat).setPort s { s.port with requests := rest }
  dsimp only
  rw [fadeReport_eq, show byteAt [slot, n] 1 = n.toNat from rfl, hretired]
  rfl

/-- Settles O29: state by state, by what `retire` does there. -/
theorem retireProjectorByState : Obligations.RetireProjectorByState := by
  refine fun s tag slot n rest hw => ⟨fun hslot => ?unknown, fun p hp => ⟨fun hv => ?vacant, fun h hnothing => ?retiring,
    fun h => ?fadingOut, fun h hn => ?fade, fun h => ?atOnce⟩⟩
  case unknown =>
    exact congrArg Host.Outcome.next (runRequest_of_waits_same (run := retireRequest) hw rfl rfl rfl
      (withSlot_none hslot _ _))
  case vacant =>
    exact congrArg Host.Outcome.next (runRequest_of_waits_same (run := retireRequest) (a := .bare .badProjector) hw rfl rfl
      rfl ((withSlot_val hp _ _).trans (if_pos hv)))
  case retiring =>
    have hexec := exec_retireProjector hw hp (by simp [h])
    rwa [retire_of_retiring h, startSolve_of_nothing hnothing] at hexec
  case fadingOut =>
    refine ⟨retire p n.toNat s, exec_retireProjector hw hp (by simp [h]), ?_, fun q hq => ?_, ?_⟩
    · rw [retire_of_fadingOut h]
      exact (modProj_touches s p _).frame
    · rw [retire_of_fadingOut h, proj_modProj, if_neg hq]
    · rw [retire_of_fadingOut h, proj_modProj, if_pos rfl]
  case fade =>
    have hfade := retire_of_contributing h hn
    refine ⟨retire p n.toNat s, exec_retireProjector hw hp (by rcases h with h | h <;> simp [h]), ?_⟩
    rw [hfade]
    exact startFadeOut_spec (by rcases h with h | h <;> simp [h]) _ _ _
  case atOnce =>
    have hv : (s.proj p).state ≠ .vacant := fun hv => by simp [hv] at h
    refine ⟨retire p n.toNat s, exec_retireProjector hw hp hv, ?_⟩
    rw [retire_at_once h]
    exact ⟨enteredRetiring_enterRetiring p s, enterRetiring_raised p s, fun q hq => proj_enterRetiring_of_ne p s hq,
      claimStep_enterRetiring p s, (enterRetiring_yields p s).follows⟩

end Sys2Proof.Machine
end

section
/-! PROOF. The report of a lock loss, a lock failure or a fault start to the Projector Table (R88 to R90). -/

namespace Sys2Proof.Machine

open Sys2Proof Sys2Proof.Stating

set_option Elab.async false

/-! ### What the descriptions say of another state that agrees with this one -/

theorem TargetsStand.congr_right {s t u : State} (h : TargetsStand s t) (hp : u.projectors = t.projectors)
    (h8 : u.eventRecord 8 = t.eventRecord 8) : TargetsStand s u := by
  obtain ⟨hrecord, htargets⟩ := h
  exact ⟨h8.trans hrecord, fun p => by rw [proj_congr hp]; exact htargets p⟩

theorem NodesStand.congr_right {s t u : State} (h : NodesStand s t) (hdome : u.dome = t.dome) (hsolver : u.solver = t.solver)
    (hedit : u.edit = t.edit) (hloader : u.loader = t.loader) : NodesStand s u := by
  obtain ⟨h1, h2, h3, h4⟩ := h
  exact ⟨hdome.trans h1, hsolver.trans h2, hedit.trans h3, hloader.trans h4⟩

theorem RecomputedOnce.congr_right {s t u : State} (h : RecomputedOnce s t) (hp : u.projectors = t.projectors)
    (hgain : u.gain = t.gain) (h8 : u.eventRecord 8 = t.eventRecord 8) : RecomputedOnce s u := by
  obtain ⟨hsettled, hrecord⟩ := h
  refine ⟨TargetsSettled.congr hsettled hp (by rw [hgain]), ?_⟩
  simp only [proj_congr hp]
  rw [h8, hrecord]

/-- The state after an entry into RETIRING seen from another that differs from it in no more than a channel and a stream
that the entry has not emptied, and in events of other classes. -/
theorem EnteredRetiring.congr_right {s t u : State} {p : Slot} {owed : Nat} (h : EnteredRetiring s t p owed)
    (hp : u.projectors = t.projectors) (hgain : u.gain = t.gain) (hdome : u.dome = t.dome) (hsolver : u.solver = t.solver)
    (hedit : u.edit = t.edit) (h8 : u.eventRecord 8 = t.eventRecord 8)
    (hslot : (t.proj p).state = .vacant → u.chan p = t.chan p ∧ u.raster.streams.get p = t.raster.streams.get p ∧
      u.raster.links.get p = t.raster.links.get p) : EnteredRetiring s u p owed := by
  obtain ⟨⟨hleft, hkept⟩, hnodes, hfree, hclaims, honce, hsettled, hstand⟩ := h
  refine ⟨⟨fun h0 => ?_, fun h0 => ?_⟩, NodesInvalidated.congr_right hnodes hdome hsolver hedit, ?_, fun ho n hn => ?_,
    fun hc => RecomputedOnce.congr_right (honce hc) hp hgain h8, fun hc => TargetsSettled.congr (hsettled hc) hp (by rw [hgain]),
    fun hc => TargetsStand.congr_right (hstand hc) hp h8⟩
  · obtain ⟨hrecord, hchan, hstreams, hlinks⟩ := hleft h0
    have hvacant : (t.proj p).state = .vacant := by rw [hrecord]
    obtain ⟨huchan, hustreams, hulinks⟩ := hslot hvacant
    exact ⟨by rw [proj_congr hp]; exact hrecord, huchan.trans hchan, hustreams.trans hstreams, hulinks.trans hlinks⟩
  · rw [proj_congr hp]
    exact hkept h0
  · rw [hdome]; exact hfree
  · rw [State.node, hdome]; exact hclaims ho n hn

theorem newClaims_congr {s u : State} (h : u.dome = s.dome) (p : Slot) : newClaims u p = newClaims s p := by
  unfold newClaims State.node
  rw [h]

theorem claimed_congr {s u : State} (h : u.dome = s.dome) (p : Slot) : claimed u p = claimed s p := by
  unfold claimed Claims State.node
  rw [h]

theorem NodesInvalidated.congr_left {s t u : State} {p : Slot} (h : NodesInvalidated u t p) (hdome : u.dome = s.dome)
    (hsolver : u.solver = s.solver) (hedit : u.edit = s.edit) : NodesInvalidated s t p := by
  have hnode : u.node = s.node := by unfold State.node; rw [hdome]
  unfold NodesInvalidated at *
  rw [claimed_congr hdome, hnode, hsolver, hedit] at h
  exact h

/-- An entry into RETIRING begun in a state that differs from `s` in events and in what the entry overwrites of the record. -/
theorem EnteredRetiring.congr_left {s t u : State} {p : Slot} {owed k x : Nat} {fade : Option Fade}
    (h : EnteredRetiring u t p owed) (htouches : Touches [.projectors, .attention] s u)
    (hp : u.proj p = { s.proj p with failover := k, phi := x, fade := fade })
    (hothers : ∀ q, q ≠ p → u.proj q = s.proj q) (h8 : u.eventRecord 8 = s.eventRecord 8) : EnteredRetiring s t p owed := by
  have hnode : u.node = s.node := by unfold State.node; rw [htouches.dome]
  have htargets (q : Slot) : (u.proj q).gainTarget = (s.proj q).gainTarget ∧ (u.proj q).limited = (s.proj q).limited := by
    by_cases hq : q = p
    · rw [hq, hp]; exact ⟨rfl, rfl⟩
    · rw [hothers q hq]; exact ⟨rfl, rfl⟩
  unfold EnteredRetiring RetiredRecord SlotEmptied RecomputedOnce TargetsStand State.ListsOrdered at *
  dsimp only at *
  obtain ⟨hrecord, hnodes, hfree, hclaims, honce, hsettled, hstand⟩ := h
  rw [newClaims_congr htouches.dome, hp] at hrecord honce hsettled hstand
  rw [newClaims_congr htouches.dome, htouches.dome] at hfree
  rw [chan_congr htouches.channels] at hrecord
  rw [hnode] at hclaims
  rw [h8] at honce
  refine ⟨hrecord, NodesInvalidated.congr_left hnodes htouches.dome htouches.solver htouches.edit, hfree, hclaims, honce, hsettled,
    fun hc => ?_⟩
  obtain ⟨hrecord8, hsame⟩ := hstand hc
  exact ⟨hrecord8.trans h8, fun q => ⟨(hsame q).1.trans (htargets q).1, (hsame q).2.trans (htargets q).2⟩⟩

/-! ### A step that leaves the map -/

theorem nodesStand_of_touches {s t : State} (h : Touches [.projectors, .attention] s t) : NodesStand s t :=
  ⟨h.dome, h.solver, h.edit, h.loader⟩

theorem claimStep_of_stands {s t : State} (h : Touches [.projectors, .attention] s t) (emptied : Slot → Prop) :
    ClaimStep emptied s t :=
  claimStep_of h.mono (Rewrites.of_touches h) (Vacates.of_same h.channels h.raster) (by simp)

theorem ClaimStep.mono {s t : State} {gone more : Slot → Prop} (h : ClaimStep gone s t) (hmore : ∀ p, gone p → more p) :
    ClaimStep more s t := by
  obtain ⟨hframe, hslots⟩ := h
  exact ⟨hframe, fun p hp => hslots p (mt (hmore p) hp)⟩

/-! ### Failovers owed at once (R76) -/

theorem record_oweFailover (p : Slot) (s : State) (q : Slot) :
    (oweFailover p s).proj q = if q = p then { s.proj p with failover := (s.proj p).claimCount } else s.proj q := by
  rw [← proj_setFailover]
  unfold oweFailover
  dsimp only
  split
  · exact proj_raise _ _ _
  · rfl

/-- The events of failovers owed: FAILOVER at once for a projector with no claim. -/
def owedEvents (s : State) (p : Slot) : List Event := if (s.proj p).claimCount = 0 then [.failover p] else []

theorem oweFailover_raises (p : Slot) (s : State) : Raises s (oweFailover p s) (owedEvents s p) := by
  unfold oweFailover owedEvents
  dsimp only
  split
  · exact (Raises.raise _ _).congr_left rfl
  · exact Raises.of_attention rfl

theorem cls_of_mem_owedEvents {s : State} {p : Slot} {e : Event} (he : e ∈ owedEvents s p) : e.cls = 2 := by
  unfold owedEvents at he
  split at he
  · rw [List.mem_singleton.1 he]; rfl
  · cases he

/-- Events of different classes may be listed in either order (R192). -/
theorem Raised.comm {s t : State} {es fs : List Event} (h : Raised s t (es ++ fs)) (hd : ∀ e ∈ es, ∀ f ∈ fs, e.cls ≠ f.cls) :
    Raised s t (fs ++ es) := fun k hk => by
  rw [h k hk, List.filter_append, List.filter_append]
  by_cases hes : ∃ e ∈ es, e.cls = k
  · obtain ⟨e, he, hke⟩ := hes
    have hnone : (fs.filter fun f => f.cls = k) = [] :=
      List.filter_eq_nil_iff.2 fun f hf => by simpa [← hke] using fun hc => hd e he f hf hc.symm
    rw [hnone, List.append_nil, List.nil_append]
  · have hnone : (es.filter fun e => e.cls = k) = [] :=
      List.filter_eq_nil_iff.2 fun e he => by simpa using fun hc => hes ⟨e, he, hc⟩
    rw [hnone, List.append_nil, List.nil_append]

/-! ### A failure during a retire-fade (R90) -/

section
variable (p : Slot) (cause : FailCause) (s : State)

/-- The failovers owed and PROJ_FAULT raised, before the entry into RETIRING. -/
def retiringOwed : State := (oweFailover p s).raise (.projFault p cause)

theorem retiringOwed_touches : Touches [.projectors, .attention] s (retiringOwed p cause s) :=
  (oweFailover_touches p s).andThen (raise_touches _ _)

theorem record_retiringOwed (q : Slot) : (retiringOwed p cause s).proj q =
    if q = p then { s.proj p with failover := (s.proj p).claimCount } else s.proj q := by
  rw [retiringOwed, proj_raise, record_oweFailover]

theorem retiringOwed_raises : Raises s (retiringOwed p cause s) (owedEvents s p ++ [.projFault p cause]) :=
  (oweFailover_raises p s).thenRaise _

theorem failRetiring_eq : failRetiring p cause s = enterRetiring p (retiringOwed p cause s) := rfl

theorem enteredRetiring_failRetiring : EnteredRetiring s (failRetiring p cause s) p (s.proj p).claimCount := by
  have h := enteredRetiring_enterRetiring p (retiringOwed p cause s)
  have hp : (retiringOwed p cause s).proj p = { s.proj p with failover := (s.proj p).claimCount } := by
    rw [record_retiringOwed, if_pos rfl]
  rw [hp] at h
  refine EnteredRetiring.congr_left h (retiringOwed_touches p cause s) hp
    (fun q hq => by rw [record_retiringOwed, if_neg hq]) ((retiringOwed_raises p cause s).stands fun e he => ?_)
  rcases List.mem_append.1 he with he | he
  · rw [cls_of_mem_owedEvents he]; decide
  · rw [List.mem_singleton.1 he]; simp [Event.cls]

theorem failRetiring_raised : Raised s (failRetiring p cause s)
    (owedEvents s p ++ [.projFault p cause] ++ retirementEvents s p (s.proj p).claimCount) := by
  have h := enterRetiring_raised p (retiringOwed p cause s)
  have hevents : retirementEvents (retiringOwed p cause s) p ((retiringOwed p cause s).proj p).failover =
      retirementEvents s p (s.proj p).claimCount := by
    unfold retirementEvents
    rw [newClaims_congr (retiringOwed_touches p cause s).dome, record_retiringOwed, if_pos rfl]
  rw [hevents] at h
  exact Raised.trans (retiringOwed_raises p cause s).toRaised h

theorem proj_failRetiring_of_ne {q : Slot} (hq : q ≠ p) : SameButForTarget (s.proj q) ((failRetiring p cause s).proj q) := by
  have h := proj_enterRetiring_of_ne p (retiringOwed p cause s) hq
  rw [record_retiringOwed, if_neg hq] at h
  exact h

/-- The yield report of a failure in a retire-fade: it comes with the projector's own last failover (R173). -/
theorem failRetiring_yieldReleases : YieldReleases (0 < (s.proj p).claimCount) s (failRetiring p cause s) := by
  have howed : 0 < (s.proj p).claimCount → FailoverOwed (retiringOwed p cause s) := fun h =>
    ⟨p, by rw [record_retiringOwed, if_pos rfl]; exact h⟩
  have hloader := (retiringOwed_touches p cause s).loader
  obtain ⟨hreleases, hstands⟩ := (enterRetiring_yields p (retiringOwed p cause s)).follows
  rw [hloader] at hreleases hstands
  refine ⟨fun hw hr hcount hnone => hreleases hw hr (howed hcount) hnone, fun h => hstands ?_⟩
  rcases h with h | h | h | h
  · exact .inl h
  · exact .inr (.inl h)
  · refine .inr (.inr (Classical.or_iff_not_imp_left.2 fun hu => ?_))
    obtain ⟨q, hq⟩ := Classical.not_not.1 hu
    have hne : q ≠ p := fun e => by
      rw [e, record_retiringOwed, if_pos rfl] at hq
      exact h hq
    refine ⟨q, ?_⟩
    have hsame := proj_enterRetiring_of_ne p (retiringOwed p cause s) hne
    rw [hsame]
    exact hq
  · exact .inr (.inr (.inr h))

theorem claimStep_failRetiring :
    ClaimStep (fun q => q = p ∧ (s.proj p).claimCount ≤ newClaims s p) s (failRetiring p cause s) := by
  have howed := retiringOwed_touches p cause s
  refine claimStep_of (failRetiring_touches p cause s)
    ((Rewrites.of_touches howed).trans (enterRetiring_rewrites p _))
    ((Vacates.of_same howed.channels howed.raster).trans (enterRetiring_vacates p _)) fun q hq => ?_
  rw [List.nil_append] at hq
  unfold leaving at hq
  rw [newClaims_congr howed.dome, record_retiringOwed, if_pos rfl] at hq
  split at hq
  · next h0 => exact ⟨List.mem_singleton.1 hq, by dsimp only at h0; omega⟩
  · cases hq

/-! ### Entry into FAILED (R89) -/

/-- The projector in FAILED, with its PROJ_FAULT. -/
def failedAt : State := (s.modProj p fun r => r.failedWith cause).raise (.projFault p cause)

theorem failedAt_touches : Touches [.projectors, .attention] s (failedAt p cause s) :=
  (modProj_touches s p _).andThen (raise_touches _ _)

theorem failedAt_raises : Raises s (failedAt p cause s) [.projFault p cause] := (Raises.raise _ _).congr_left rfl

theorem record_failedAt (q : Slot) :
    (failedAt p cause s).proj q = if q = p then (s.proj p).failedWith cause else s.proj q := by
  rw [failedAt, proj_raise, proj_modProj]

theorem enterFailed_eq : enterFailed p cause s =
    if (s.proj p).state.contributing then recomputeGains (invalidateClaimed p (oweFailover p (failedAt p cause s)))
    else failedAt p cause s := rfl

end

end Sys2Proof.Machine
end

section
/-! PROOF. What a lock loss, a lock failure and a fault start that fails make of a projector, and what they report (O38). -/

namespace Sys2Proof.Machine

open Sys2Proof Sys2Proof.Stating

set_option Elab.async false

/-! ### The report by the projector's state (R88) -/

/-- What a lock loss, a lock failure or a fault start that fails is taken as: its record, its events and its frame. -/
structure FaultReported (s t : State) (p : Slot) (cause : FailCause) : Prop where
  taken : LockFaultTaken s t p cause
  raised : Raised s t (lockFaultEvents s p cause)
  others : ∀ q, q ≠ p → SameButForTarget (s.proj q) (t.proj q)
  frame : ClaimStep (fun q => q = p ∧ RetiresEmpty s p) s t

section
variable (p : Slot) (cause : FailCause) {s : State}

theorem failedAt_targetsStand : TargetsStand s (failedAt p cause s) := by
  refine TargetsStand.of_raises (failedAt_raises p cause s) (by simp [Event.cls]) fun q => ?_
  rw [failedAt, proj_raise]
  exact targets_modProj s p ⟨rfl, rfl⟩ q

/-- A failure in PARKED (R89). -/
theorem enterFailed_reported (h : (s.proj p).state = .parked) : FaultReported s (enterFailed p cause s) p cause := by
  have hfailed : enterFailed p cause s = failedAt p cause s := by
    rw [enterFailed_eq, h]
    exact if_neg Bool.false_ne_true
  have htouches := failedAt_touches p cause s
  rw [hfailed]
  refine ⟨?_, ?_, fun q hq => ?_, claimStep_of_stands htouches _⟩
  · unfold LockFaultTaken
    rw [h]
    exact ⟨by rw [record_failedAt, if_pos rfl]; rfl, failedAt_targetsStand p cause, nodesStand_of_touches htouches⟩
  · unfold lockFaultEvents
    rw [h]
    exact (failedAt_raises p cause s).toRaised
  · rw [record_failedAt, if_neg hq]
    exact SameButForTarget.refl _

theorem record_replaceCause (q : Slot) : (replaceCause p cause s).proj q =
    if q = p then { s.proj p with failCause := some cause } else s.proj q := by
  rw [replaceCause, proj_raise, proj_modProj]

theorem replaceCause_raises : Raises s (replaceCause p cause s) [.projFault p cause] := (Raises.raise _ _).congr_left rfl

theorem replaceCause_targetsStand : TargetsStand s (replaceCause p cause s) := by
  refine TargetsStand.of_raises (replaceCause_raises p cause) (by simp [Event.cls]) fun q => ?_
  rw [replaceCause, proj_raise]
  exact targets_modProj s p ⟨rfl, rfl⟩ q

/-- A further fault in FAILED (R88). -/
theorem replaceCause_reported (h : (s.proj p).state = .failed) : FaultReported s (replaceCause p cause s) p cause := by
  have htouches := replaceCause_touches p cause s
  refine ⟨?_, ?_, fun q hq => ?_, claimStep_of_stands htouches _⟩
  · unfold LockFaultTaken
    rw [h]
    exact ⟨by rw [record_replaceCause, if_pos rfl], replaceCause_targetsStand p cause, nodesStand_of_touches htouches⟩
  · unfold lockFaultEvents
    rw [h]
    exact (replaceCause_raises p cause).toRaised
  · rw [record_replaceCause, if_neg hq]
    exact SameButForTarget.refl _

theorem targetsStand_raise {e : Event} (he : e.cls ≠ 8) : TargetsStand s (s.raise e) :=
  TargetsStand.of_raises (Raises.raise s e) (fun f hf => by rw [List.mem_singleton.1 hf]; exact he) fun q => by
    rw [proj_raise]
    exact ⟨rfl, rfl⟩

/-- A fault in RETIRING raises PROJ_FAULT alone (R88). -/
theorem raise_reported (h : (s.proj p).state = .retiring) : FaultReported s (s.raise (.projFault p cause)) p cause := by
  have htouches : Touches [.projectors, .attention] s (s.raise (.projFault p cause)) := (raise_touches _ _).mono
  refine ⟨?_, ?_, fun q hq => ?_, claimStep_of_stands htouches _⟩
  · unfold LockFaultTaken
    rw [h]
    exact ⟨proj_raise _ _ _, targetsStand_raise (by simp [Event.cls]), nodesStand_of_touches htouches⟩
  · unfold lockFaultEvents
    rw [h]
    exact (Raises.raise _ _).toRaised
  · rw [proj_raise]
    exact SameButForTarget.refl _

theorem refl_reported (h : (s.proj p).state = .vacant) : FaultReported s s p cause := by
  refine ⟨?_, ?_, fun q hq => SameButForTarget.refl _, claimStep_of_stands (Touches.refl _ s) _⟩
  · unfold LockFaultTaken
    rw [h]
    exact ⟨rfl, ⟨rfl, fun _ => ⟨rfl, rfl⟩⟩, rfl, rfl, rfl, rfl⟩
  · unfold lockFaultEvents
    rw [h]
    exact Raised.refl s

end

/-! ### A failure of a contributing projector (R89, R90) -/

section
variable (p : Slot) (cause : FailCause) {s : State}

theorem lockFaultTaken_of_contributing {t : State} (hc : (s.proj p).state.contributing = true) :
    LockFaultTaken s t p cause ↔ if s.retireFade p = true then
        EnteredRetiring s t p (s.proj p).claimCount ∧ YieldReleases (0 < (s.proj p).claimCount) s t
      else
        SameButForTarget { s.proj p with
          state := .failed, phi := 0, fade := none, failCause := some cause
          failover := (s.proj p).claimCount } (t.proj p) ∧
        RecomputedOnce s t ∧ NodesInvalidated s t p ∧ (∀ n, (t.node n).claims = (s.node n).claims) ∧
        t.dome.freeCount = s.dome.freeCount ∧ t.loader = s.loader := by
  unfold LockFaultTaken
  cases hs : (s.proj p).state
  case fadingIn => exact Iff.rfl
  case live => exact Iff.rfl
  case fadingOut => exact Iff.rfl
  all_goals exact absurd hc (by rw [hs]; simp [ProjState.contributing])

theorem lockFaultEvents_of_contributing (hc : (s.proj p).state.contributing = true) : lockFaultEvents s p cause =
    owedEvents s p ++ [.projFault p cause]
      ++ if s.retireFade p = true then retirementEvents s p (s.proj p).claimCount else [] := by
  unfold lockFaultEvents owedEvents
  cases hs : (s.proj p).state
  case fadingIn => rfl
  case live => rfl
  case fadingOut => rfl
  all_goals exact absurd hc (by rw [hs]; simp [ProjState.contributing])

theorem failRetiring_reported (hc : (s.proj p).state.contributing = true) (hr : s.retireFade p = true) :
    FaultReported s (failRetiring p cause s) p cause := by
  refine ⟨?_, ?_, fun q hq => proj_failRetiring_of_ne p cause s hq,
    ClaimStep.mono (claimStep_failRetiring p cause s) fun q ⟨hq, h⟩ => ⟨hq, hc, hr, h⟩⟩
  · rw [lockFaultTaken_of_contributing p cause hc, if_pos hr]
    exact ⟨enteredRetiring_failRetiring p cause s, failRetiring_yieldReleases p cause s⟩
  · rw [lockFaultEvents_of_contributing p cause hc, if_pos hr]
    exact failRetiring_raised p cause s

/-- The projector in FAILED with its failovers owed and its nodes hard-invalidated, before the recomputation (R89). -/
def failedBegun (s : State) : State := invalidateClaimed p (oweFailover p (failedAt p cause s))

theorem owed_failedAt_touches (s : State) : Touches [.projectors, .attention] s (oweFailover p (failedAt p cause s)) :=
  (failedAt_touches p cause s).andThen (oweFailover_touches p _)

theorem record_failedBegun (s : State) (q : Slot) : (failedBegun p cause s).proj q = if q = p then { s.proj p with
    state := .failed, phi := 0, fade := none, failCause := some cause, failover := (s.proj p).claimCount }
    else s.proj q := by
  rw [failedBegun, proj_congr (invalidateClaimed_touches p _).projectors, record_oweFailover, record_failedAt, record_failedAt,
    if_pos rfl]
  by_cases hq : q = p
  · rw [if_pos hq, if_pos hq]
    rfl
  · rw [if_neg hq, if_neg hq, if_neg hq]

theorem failedBegun_raises (s : State) : Raises s (failedBegun p cause s) ([.projFault p cause] ++ owedEvents s p) := by
  have howed := oweFailover_raises p (failedAt p cause s)
  have hevents : owedEvents (failedAt p cause s) p = owedEvents s p := by
    unfold owedEvents
    rw [record_failedAt, if_pos rfl]
    rfl
  rw [hevents] at howed
  exact ((failedAt_raises p cause s).trans howed).congr_right (invalidateClaimed_touches p _).attention

theorem enterFailed_of_contributing (hc : (s.proj p).state.contributing = true) :
    enterFailed p cause s = recomputeGains (failedBegun p cause s) := if_pos hc

theorem nodesInvalidated_enterFailed (s : State) : NodesInvalidated s (recomputeGains (failedBegun p cause s)) p := by
  have howed := owed_failedAt_touches p cause s
  have hrecomputed := recomputeGains_touches (failedBegun p cause s)
  have hbegun : NodesInvalidated s (failedBegun p cause s) p :=
    nodesInvalidated_invalidateClaimed p howed.dome howed.solver howed.edit
  exact NodesInvalidated.congr_right hbegun hrecomputed.dome hrecomputed.solver hrecomputed.edit

theorem enterFailed_contributing_reported (hc : (s.proj p).state.contributing = true) (hr : ¬s.retireFade p = true) :
    FaultReported s (enterFailed p cause s) p cause := by
  have htouches := enterFailed_touches p cause s
  rw [enterFailed_of_contributing p cause hc] at htouches ⊢
  have hkeeps : KeepsClaims s (recomputeGains (failedBegun p cause s)) :=
    ((KeepsClaims.of_touches (owed_failedAt_touches p cause s)).trans (KeepsClaims.invalidateClaimed p _)).trans
      (KeepsClaims.of_touches (recomputeGains_touches _))
  have hrecord (q : Slot) := sameButForTarget_recomputeGains (failedBegun p cause s) q
  have hraises := failedBegun_raises p cause s
  refine ⟨?_, ?_, fun q hq => ?_, claimStep_of htouches.mono hkeeps.rewrites (Vacates.of_same htouches.channels htouches.raster)
    (by simp)⟩
  · rw [lockFaultTaken_of_contributing p cause hc, if_neg hr]
    refine ⟨?_, ?_, nodesInvalidated_enterFailed p cause s, hkeeps.claims, hkeeps.free, htouches.loader⟩
    · have h := hrecord p
      rwa [record_failedBegun, if_pos rfl] at h
    · refine recomputedOnce_of_raises (targetsSettled_recomputeGains _) (es := [.projFault p cause] ++ owedEvents s p)
        (fs := []) ?_ (fun e he => ?_) (by simp)
      · rw [List.append_nil]
        exact hraises.trans (recomputeGains_raises _)
      · rcases List.mem_append.1 he with he | he
        · rw [List.mem_singleton.1 he]; simp [Event.cls]
        · rw [cls_of_mem_owedEvents he]; decide
  · rw [lockFaultEvents_of_contributing p cause hc, if_neg hr]
    have h := Raised.trans (Raised.comm hraises.toRaised fun e he f hf => by
      rw [cls_of_mem_owedEvents hf, List.mem_singleton.1 he]; simp [Event.cls]) (recomputeGains_raised _)
    exact h
  · have h := hrecord q
    rwa [record_failedBegun, if_neg hq] at h

theorem failContributing_reported (hc : (s.proj p).state.contributing = true) :
    FaultReported s (failContributing p cause s) p cause := by
  unfold failContributing
  split
  · next hr => exact failRetiring_reported p cause hc hr
  · next hr => exact enterFailed_contributing_reported p cause hc hr

theorem takeLockFault_reported (s : State) : FaultReported s (takeLockFault p cause s) p cause := by
  unfold takeLockFault
  split
  case h_1 h => exact refl_reported p cause h
  case h_2 h => exact enterFailed_reported p cause h
  case h_3 h => exact failContributing_reported p cause (by rw [h]; rfl)
  case h_4 h => exact failContributing_reported p cause (by rw [h]; rfl)
  case h_5 h => exact failContributing_reported p cause (by rw [h]; rfl)
  case h_6 h => exact replaceCause_reported p cause h
  case h_7 h => exact raise_reported p cause h

end

/-! ### What the report leaves of the record and of the slot -/

namespace FaultReported

variable {s t : State} {p : Slot} {cause : FailCause}

/-- The pixel clock stands, and the slot is emptied exactly when a retire-fade leaves no claim. -/
theorem record (h : FaultReported s t p cause) (hv : (s.proj p).state ≠ .vacant) :
    (t.proj p).pixelClock = (s.proj p).pixelClock ∧
      ((t.proj p).state = .vacant ↔ RetiresEmpty s p) := by
  have htaken := h.taken
  by_cases hc : (s.proj p).state.contributing = true
  · rw [lockFaultTaken_of_contributing p cause hc] at htaken
    by_cases hr : s.retireFade p = true
    · rw [if_pos hr] at htaken
      obtain ⟨⟨⟨hleft, hkept⟩, -⟩, -⟩ := htaken
      by_cases h0 : (s.proj p).claimCount - newClaims s p = 0
      · obtain ⟨hrecord, -⟩ := hleft h0
        rw [hrecord]
        exact ⟨rfl, iff_of_true rfl ⟨hc, hr, by omega⟩⟩
      · rw [hkept h0]
        exact ⟨rfl, iff_of_false (by simp) fun ⟨_, _, hle⟩ => h0 (by omega)⟩
    · rw [if_neg hr] at htaken
      obtain ⟨hrecord, -⟩ := htaken
      rw [hrecord]
      exact ⟨rfl, iff_of_false (by simp) fun ⟨_, hfade, _⟩ => hr hfade⟩
  · have hempty : ¬RetiresEmpty s p := fun ⟨hcontributing, _⟩ => hc hcontributing
    unfold LockFaultTaken at htaken
    cases hs : (s.proj p).state
    case vacant => exact absurd hs hv
    case parked =>
      rw [hs] at htaken
      obtain ⟨hrecord, -⟩ := htaken
      rw [hrecord]
      exact ⟨rfl, iff_of_false (by simp) hempty⟩
    case failed =>
      rw [hs] at htaken
      obtain ⟨hrecord, -⟩ := htaken
      rw [hrecord]
      exact ⟨rfl, iff_of_false (by simp [hs]) hempty⟩
    case retiring =>
      rw [hs] at htaken
      obtain ⟨hrecord, -⟩ := htaken
      rw [hrecord]
      exact ⟨rfl, iff_of_false (by simp [hs]) hempty⟩
    all_goals exact absurd (by rw [hs]; rfl) hc

/-- An emptied slot has no stream (R133). -/
theorem emptied (h : FaultReported s t p cause) (he : RetiresEmpty s p) :
    t.raster.streams.get p = none ∧ t.raster.links.get p = none := by
  obtain ⟨hc, hr, hle⟩ := he
  have htaken := h.taken
  rw [lockFaultTaken_of_contributing p cause hc, if_pos hr] at htaken
  obtain ⟨⟨⟨hleft, -⟩, -⟩, -⟩ := htaken
  obtain ⟨-, -, hstreams, hlinks⟩ := hleft (by omega)
  exact ⟨hstreams, hlinks⟩

/-- The report seen from a state that agrees with the one after it but for a channel and a stream that it has not emptied,
and for events of other classes than GAIN_LIMIT. -/
theorem taken_congr {u : State} (h : FaultReported s t p cause)
    (htouches : Touches [.channels, .raster, .attention] t u) (h8 : u.eventRecord 8 = t.eventRecord 8)
    (hslot : (t.proj p).state = .vacant → u.chan p = t.chan p ∧ u.raster.streams.get p = t.raster.streams.get p ∧
      u.raster.links.get p = t.raster.links.get p) : LockFaultTaken s u p cause := by
  have htaken := h.taken
  have hproj : u.proj p = t.proj p := proj_congr htouches.projectors p
  have hstands : TargetsStand s t ∧ NodesStand s t → TargetsStand s u ∧ NodesStand s u := fun ⟨htargets, hnodes⟩ =>
    ⟨TargetsStand.congr_right htargets htouches.projectors h8,
      NodesStand.congr_right hnodes htouches.dome htouches.solver htouches.edit htouches.loader⟩
  by_cases hc : (s.proj p).state.contributing = true
  · rw [lockFaultTaken_of_contributing p cause hc] at htaken ⊢
    by_cases hr : s.retireFade p = true
    · rw [if_pos hr] at htaken ⊢
      obtain ⟨hentered, hreleases⟩ := htaken
      refine ⟨EnteredRetiring.congr_right hentered htouches.projectors htouches.gain htouches.dome htouches.solver
        htouches.edit h8 hslot, ?_⟩
      unfold YieldReleases FailoverOwed at *
      simp only [proj_congr htouches.projectors, htouches.loader]
      exact hreleases
    · rw [if_neg hr] at htaken ⊢
      obtain ⟨hrecord, honce, hnodes, hclaims, hfree, hloader⟩ := htaken
      exact ⟨by rw [hproj]; exact hrecord, RecomputedOnce.congr_right honce htouches.projectors htouches.gain h8,
        NodesInvalidated.congr_right hnodes htouches.dome htouches.solver htouches.edit,
        fun n => (congrArg Node.claims (htouches.node n)).trans (hclaims n), by rw [htouches.dome]; exact hfree,
        htouches.loader.trans hloader⟩
  · unfold LockFaultTaken at htaken ⊢
    rw [hproj]
    cases hs : (s.proj p).state
    case fadingIn => exact absurd (by rw [hs]; rfl) hc
    case live => exact absurd (by rw [hs]; rfl) hc
    case fadingOut => exact absurd (by rw [hs]; rfl) hc
    all_goals
      rw [hs] at htaken
      obtain ⟨hrecord, hrest⟩ := htaken
      exact ⟨hrecord, hstands hrest⟩

end FaultReported

end Sys2Proof.Machine
end

section
/-! PROOF. A lock failure, a lock loss and RESTART OUTPUT (O38), and the ready line (O39). -/

namespace Sys2Proof.Machine

open Sys2Proof Sys2Proof.Stating

set_option Elab.async false

/-! ### The failure of a third attempt (R130) -/

theorem ClaimStep.thenRaise {s t : State} {gone : Slot → Prop} (h : ClaimStep gone s t) (e : Event) :
    ClaimStep gone s (t.raise e) := by
  obtain ⟨hframe, hslots⟩ := h
  exact ⟨congrArg (fun u : State => { u with attention := (t.raise e).attention }) hframe, hslots⟩

/-- What LOCK_FAILED makes of the projector and of the channel, and what it reports. -/
theorem lockFailure_reported {s u : State} {p : Slot} (hu : u = s.modChan p fun c => { c with lock := .lockFailed, attempts := 3 }) :
    LockFaultTaken u (lockFailure p s) p .lockFailed ∧
      Raised s (lockFailure p s) (lockFaultEvents s p .lockFailed ++ [.lockFail p]) ∧
      (∀ q, q ≠ p → SameButForTarget (s.proj q) ((lockFailure p s).proj q)) ∧
      ClaimStep (fun q => q = p ∧ RetiresEmpty s p) u (lockFailure p s) := by
  have hreported := takeLockFault_reported p .lockFailed u
  have hlock : lockFailure p s = (takeLockFault p .lockFailed u).raise (.lockFail p) := by rw [hu]; rfl
  rw [hlock]
  generalize takeLockFault p .lockFailed u = t at hreported ⊢
  have hraise : Touches [.attention] t (t.raise (.lockFail p)) := raise_touches _ _
  refine ⟨hreported.taken_congr hraise.mono ((Raises.raise t _).stands (by simp [Event.cls]))
    fun _ => ⟨chan_congr hraise.channels p, by rw [hraise.raster], by rw [hraise.raster]⟩, ?_, fun q hq => ?_, ?_⟩
  · have h := Raised.thenRaise hreported.raised (.lockFail p)
    subst hu
    exact h
  · have h := hreported.others q hq
    rw [proj_raise]
    subst hu
    exact h
  · have h := ClaimStep.thenRaise hreported.frame (.lockFail p)
    subst hu
    exact h

theorem modChan_of_same {s : State} {p : Slot} {f : Channel → Channel} (h : f (s.chan p) = s.chan p) : s.modChan p f = s := by
  unfold State.modChan
  rw [h, State.chan, Vector.get_eq_getElem, Vector.set_getElem_self]

/-- An attempt that fails when it was the third ends the sequence (R129, R130). -/
theorem attemptFails_of_third {s : State} {p : Slot} (h : 3 ≤ (s.chan p).attempts) : attemptFails p s = lockFailure p s :=
  if_neg (by omega)

/-- A lock failure whose attempt has recorded a count or none. -/
theorem lockFailure_last {s u : State} {p : Slot} {last : Option Nat}
    (hu : u = s.modChan p fun c => { c with lock := .lockFailed, attempts := 3, lastCount := last }) :
    ∃ t, lockFailure p (s.modChan p fun c => { c with lastCount := last }) = t ∧ LockFaultTaken u t p .lockFailed ∧
      Raised s t (lockFaultEvents s p .lockFailed ++ [.lockFail p]) ∧
      (∀ q, q ≠ p → SameButForTarget (s.proj q) (t.proj q)) ∧ ClaimStep (fun q => q = p ∧ RetiresEmpty s p) u t := by
  have hmod : u = (s.modChan p fun c => { c with lastCount := last }).modChan p
      fun c => { c with lock := .lockFailed, attempts := 3 } := by
    rw [modChan_modChan, hu]
  obtain ⟨htaken, hraised, hothers, hframe⟩ := lockFailure_reported hmod
  exact ⟨_, rfl, htaken, Raised.congr_left hraised rfl, hothers, hframe⟩

/-! ### A lock loss (R131) -/

/-- The new sequence begun after the report, in a slot that is still enrolled. -/
def relocked (p : Slot) (t : State) : State := beginSequence p (stopStream p t)

theorem lockLoss_eq (p : Slot) (s : State) : lockLoss p s =
    if ((takeLockFault p .lockLost s).proj p).state = .vacant then takeLockFault p .lockLost s
    else relocked p (takeLockFault p .lockLost s) := rfl

theorem relocked_touches (p : Slot) (t : State) : Touches [.channels, .raster] t (relocked p t) :=
  (stopStream_touches p t).andThen (beginSequence_touches p _)

theorem chan_relocked (p : Slot) (t : State) (q : Slot) :
    (relocked p t).chan q = if q = p then (t.chan p).begun (t.proj p).pixelClock else t.chan q :=
  chan_modChan (stopStream p t) p q _

theorem streams_relocked (p : Slot) (t : State) (q : Slot) :
    (relocked p t).raster.streams.get q = if q ∈ [p] then none else t.raster.streams.get q :=
  get_set_none t.raster.streams p q

theorem links_relocked (p : Slot) (t : State) (q : Slot) :
    (relocked p t).raster.links.get q = if q ∈ [p] then none else t.raster.links.get q :=
  get_set_none t.raster.links p q

theorem ClaimStep.relocked {s t : State} {p : Slot} {gone : Slot → Prop} (h : ClaimStep gone s t) (hgone : ∀ q, gone q → q = p) :
    ClaimStep (fun q => q = p) s (Machine.relocked p t) := by
  obtain ⟨hframe, hslots⟩ := h
  refine ⟨congrArg (fun u : State => { u with
    channels := (Machine.relocked p t).channels
    raster := { u.raster with
      streams := (Machine.relocked p t).raster.streams, links := (Machine.relocked p t).raster.links } }) hframe,
    fun q hq => ?_⟩
  obtain ⟨hchan, hstreams, hlinks⟩ := hslots q (mt (hgone q) hq)
  have hnot : q ∉ [p] := by simpa using hq
  exact ⟨by rw [chan_relocked, if_neg hq, hchan], by rw [streams_relocked, if_neg hnot, hstreams],
    by rw [links_relocked, if_neg hnot, hlinks]⟩

/-- What a lock loss makes of the projector, of its channel and of its stream, and what it reports. -/
theorem lockLoss_reported {s : State} {p : Slot} (hv : (s.proj p).state ≠ .vacant) :
    LockFaultTaken s (lockLoss p s) p .lockLost ∧ Raised s (lockLoss p s) (lockFaultEvents s p .lockLost) ∧
      (lockLoss p s).raster.streams.get p = none ∧ (lockLoss p s).raster.links.get p = none ∧
      (¬RetiresEmpty s p → (lockLoss p s).chan p = (s.chan p).begun (s.proj p).pixelClock) ∧
      (∀ q, q ≠ p → SameButForTarget (s.proj q) ((lockLoss p s).proj q)) ∧ ClaimStep (fun q => q = p) s (lockLoss p s) := by
  have h := takeLockFault_reported p .lockLost s
  rw [lockLoss_eq]
  generalize takeLockFault p .lockLost s = t at h ⊢
  obtain ⟨hclock, hempty⟩ := h.record hv
  by_cases hvacant : (t.proj p).state = .vacant
  · rw [if_pos hvacant]
    obtain ⟨hstreams, hlinks⟩ := h.emptied (hempty.1 hvacant)
    exact ⟨h.taken, h.raised, hstreams, hlinks, fun hnot => absurd (hempty.1 hvacant) hnot, h.others,
      ClaimStep.mono h.frame fun q ⟨hq, _⟩ => hq⟩
  · rw [if_neg hvacant]
    have htouches := relocked_touches p t
    have hnot : ¬RetiresEmpty s p := mt hempty.2 hvacant
    have hchan : t.chan p = s.chan p := by
      obtain ⟨-, hslots⟩ := h.frame
      obtain ⟨hchan, -⟩ := hslots p fun ⟨_, hretires⟩ => hnot hretires
      exact hchan
    refine ⟨h.taken_congr htouches.mono (by rw [State.eventRecord, htouches.attention]; rfl) fun he => absurd he hvacant,
      Raised.congr_right h.raised htouches.attention, ?_, ?_, fun _ => ?_, fun q hq => ?_,
      ClaimStep.relocked h.frame fun q ⟨hq, _⟩ => hq⟩
    · rw [streams_relocked, if_pos (List.mem_singleton_self p)]
    · rw [links_relocked, if_pos (List.mem_singleton_self p)]
    · rw [chan_relocked, if_pos rfl, hchan, hclock]
    · rw [proj_congr htouches.projectors]
      exact h.others q hq

/-! ### RESTART OUTPUT (R132) -/

theorem restartOutput_of_between {s : State} {p : Slot} (h : (s.chan p).lock ∈ [LockState.starting, .awaitLock, .validating]) :
    restartOutput p s = none := by
  simp only [List.mem_cons, List.not_mem_nil, or_false] at h
  unfold restartOutput
  rcases h with h | h | h <;> rw [h]

theorem restartOutput_of_failed {s : State} {p : Slot} (h : (s.chan p).lock = .lockFailed) :
    restartOutput p s = some (beginSequence p s) := by
  rw [restartOutput, h]

theorem restartOutput_of_locked {s : State} {p : Slot} (h : (s.chan p).lock = .locked) :
    restartOutput p s = some (lockLoss p s) := by
  rw [restartOutput, h]

theorem restartOutputRequest_eq {slot : Byte} {p : Slot} (hp : slot.toNat = p.val) {s : State}
    (hv : (s.proj p).state ≠ .vacant) (code tag : Byte) :
    restartOutputRequest { code := code, tag := tag, fields := [slot] } s = match restartOutput p s with
      | none => (s, ⟨.state, u8 (s.chan p).lock.code ++ u8 (s.chan p).attempts⟩)
      | some t =>
        (startSolve t, .ok (u8 (t.chan p).lock.code ++ u8 (t.chan p).attempts ++ u8 (t.proj p).state.code)) :=
  (withSlot_val hp _ _).trans (if_neg hv)

/-- RESTART OUTPUT that is taken by a change that reads and writes inside the block alone. -/
theorem exec_restartOutput {s : State} {tag slot : Byte} {rest : List Request} {p : Slot}
    (hw : Waits s 0x30 tag [slot] rest) (hp : slot.toNat = p.val) (hv : (s.proj p).state ≠ .vacant) {f : State → State}
    (hf : Inward f) (hrestart : ∀ q, restartOutput p (s.setPort q) = some (f (s.setPort q))) :
    exec .restartOutput s = .next (answered (startSolve (f s)) rest tag .ok
      [byte ((f s).chan p).lock.code, byte ((f s).chan p).attempts, byte ((f s).proj p).state.code]) := by
  refine congrArg Host.Outcome.next (runRequest_of_waits (run := restartOutputRequest) (f := fun u => startSolve (f u))
    (a := .ok [byte ((f s).chan p).lock.code, byte ((f s).chan p).attempts, byte ((f s).proj p).state.code]) hw rfl rfl rfl
    (Inward.startSolve.comp hf) ?_)
  rw [restartOutputRequest_eq hp (s := s.setPort { s.port with requests := rest }) hv, hrestart]
  dsimp only
  rw [hf.setPort]
  rfl

/-- Settles O38: a third failure, a loss and a restart by the report of a lock fault. -/
theorem lockFailuresReportToTable : Obligations.LockFailuresReportToTable := by
  refine ⟨fun s p c last h3 hc => ?third, fun s p hlocked hv => ?loss, fun s tag slot rest hw =>
    ⟨fun hslot => ?unknown, fun p hp => ⟨fun hv => ?vacant, fun hv hlock => ?refused, fun hv hlock hnothing => ?restarted⟩⟩⟩
  case third =>
    intro ended u
    obtain ⟨t, ht, hrest⟩ := lockFailure_last (s := s) (p := p) (last := last) (u := u) rfl
    refine ⟨t, ?_, hrest⟩
    have hkeep : last = (s.chan p).lastCount → (s.modChan p fun c => { c with lastCount := last }) = s := fun hlast =>
      modChan_of_same (by rw [hlast])
    rcases hc with ⟨rfl, hlock, hlast⟩ | ⟨rfl, hlock, hlast⟩ | ⟨n, rfl, hlock, hfails, rfl⟩
    · rw [hkeep hlast] at ht
      refine congrArg Host.Outcome.next ((if_pos hlock).trans ?_)
      rw [attemptFails_of_third h3, ht]
    · rw [hkeep hlast] at ht
      rw [exec_lockIndicationFall_of_last, takeFall_of_validating hlock, attemptFails_of_third h3, ht]
    · rw [exec_windowCompletion_of_fail hlock hfails, attemptFails_of_third, ht]
      rw [chan_modChan, if_pos rfl]
      exact h3
  case loss =>
    intro expected
    obtain ⟨htaken, hraised, hstreams, hlinks, hchan, hothers, hframe⟩ := lockLoss_reported hv
    refine ⟨lockLoss p s, ?_, htaken, hraised, hstreams, hlinks, hchan, hothers, hframe, fun rest tag slot hp hw => ?_⟩
    · rw [exec_lockIndicationFall_of_last]
      refine congrArg Host.Outcome.next ?_
      unfold takeFall
      rw [hlocked]
    · exact exec_restartOutput hw hp hv (Inward.lockLoss p) fun q => restartOutput_of_locked (s := s.setPort q) hlocked
  case unknown =>
    exact congrArg Host.Outcome.next (runRequest_of_waits_same (run := restartOutputRequest) hw rfl rfl rfl
      (withSlot_none hslot _ _))
  case vacant =>
    exact congrArg Host.Outcome.next (runRequest_of_waits_same (run := restartOutputRequest) (a := .bare .badProjector) hw
      rfl rfl rfl ((withSlot_val hp _ _).trans (if_pos hv)))
  case refused =>
    refine congrArg Host.Outcome.next (runRequest_of_waits_same (run := restartOutputRequest)
      (a := ⟨.state, [byte (s.chan p).lock.code, byte (s.chan p).attempts]⟩) hw rfl rfl rfl ?_)
    rw [restartOutputRequest_eq hp (s := s.setPort { s.port with requests := rest }) hv,
      restartOutput_of_between (s := s.setPort { s.port with requests := rest }) hlock]
    rfl
  case restarted =>
    intro expected begun
    have hbegin : Inward (beginSequence p) := fun _ _ => rfl
    have hexec := exec_restartOutput hw hp hv hbegin fun q => restartOutput_of_failed (s := s.setPort q) hlock
    have hchan : (beginSequence p s).chan p = begun := by
      rw [beginSequence, chan_modChan, if_pos rfl]
      rfl
    rw [startSolve_of_nothing (s := beginSequence p s) hnothing, hchan] at hexec
    exact hexec

/-! ### The ready line (R135 to R138, R88) -/

theorem exec_debounceExpiry_of_settling {s : State} {p : Slot} {level : ReadyLevel} (h : (s.chan p).debounce = .settling level) :
    exec (.debounceExpiry p) s = .next (startSolve (takeLevel p level s)) := by
  refine congrArg Host.Outcome.next ?_
  rw [h]

/-- The change of the taken level is reported (R136, R137). -/
def ToldOf (s : State) (p : Slot) (level : ReadyLevel) : Prop :=
  (s.proj p).state ≠ .vacant ∧ (s.chan p).taken ≠ .unsettled ∧ (s.chan p).taken ≠ takenOf level

theorem takeLevel_of_silent {s : State} {p : Slot} {level : ReadyLevel} (h : ¬ToldOf s p level) :
    takeLevel p level s = s.modChan p fun c => { c with taken := takenOf level, debounce := .quiet } := by
  unfold takeLevel ToldOf at *
  dsimp only
  rw [if_neg h, decide_eq_false h]
  simp only [Channel.settled, Bool.or_false]

theorem takeLevel_of_told {s : State} {p : Slot} {level : ReadyLevel} (h : ToldOf s p level) {u : State}
    (hu : u = s.modChan p fun c => { c with taken := takenOf level, debounce := .quiet, changeFlag := true }) :
    takeLevel p level s = match level with
      | .notReady => takeFaultStart p u
      | .ready => recoveryCheck p u := by
  unfold takeLevel ToldOf at *
  dsimp only
  rw [if_pos h, decide_eq_true h]
  simp only [Channel.settled, Bool.or_true]
  rw [← hu]
  cases level <;> rfl

/-- With auto-failover a fault start is taken as a lock fault is (R88). -/
theorem takeFaultStart_of_auto {s : State} {p : Slot} (h : (s.proj p).autoFailover = true) :
    takeFaultStart p s = takeLockFault p .line s := by
  unfold takeFaultStart takeLockFault
  rw [h]
  cases (s.proj p).state <;> rfl

theorem takeFaultStart_of_failed {s : State} {p : Slot} (h : (s.proj p).state = .failed) :
    takeFaultStart p s = replaceCause p .line s := by
  rw [takeFaultStart, h]

/-- A fault start that fails no projector is reported and changes no state (R88). -/
theorem takeFaultStart_of_told {s : State} {p : Slot} (hv : (s.proj p).state ≠ .vacant) (hf : (s.proj p).state ≠ .failed)
    (h : (s.proj p).autoFailover = false ∨ (s.proj p).state = .retiring) :
    takeFaultStart p s = s.raise (.projFault p .line) := by
  unfold takeFaultStart
  cases hs : (s.proj p).state
  case vacant => exact absurd hs hv
  case failed => exact absurd hs hf
  case retiring => rfl
  all_goals
    have hauto : (s.proj p).autoFailover = false := h.resolve_right (by simp [hs])
    simp [hauto]

/-- What a fault start does to a projector that it does not fail. -/
theorem takeFaultStart_stands {s : State} {p : Slot} (hv : (s.proj p).state ≠ .vacant)
    (h : (s.proj p).autoFailover = false ∨ (s.proj p).state = .retiring) :
    Touches [.projectors, .attention] s (takeFaultStart p s) ∧ TargetsStand s (takeFaultStart p s) ∧
      Raised s (takeFaultStart p s) [.projFault p .line] ∧ ∀ q, (takeFaultStart p s).proj q =
        if q = p ∧ (s.proj p).state = .failed then { s.proj p with failCause := some .line } else s.proj q := by
  by_cases hf : (s.proj p).state = .failed
  · rw [takeFaultStart_of_failed hf]
    refine ⟨replaceCause_touches p _ s, replaceCause_targetsStand p _, (replaceCause_raises p _).toRaised, fun q => ?_⟩
    rw [record_replaceCause]
    exact if_congr (and_iff_left hf).symm rfl rfl
  · rw [takeFaultStart_of_told hv hf h]
    refine ⟨(raise_touches _ _).mono, targetsStand_raise (by simp [Event.cls]), (Raises.raise _ _).toRaised, fun q => ?_⟩
    rw [proj_raise, if_neg fun hq => hf hq.2]

/-- Settles O39: the taken level by the debounce, and what it reports by the recovery check and the fault start. -/
theorem readyLineIsDebounced : Obligations.ReadyLineIsDebounced := by
  refine ⟨fun s p level hraw => ?raw, fun s p level hsettling => ?expiry, fun s p hquiet => ?quiet⟩
  case raw =>
    intro quiet
    refine congrArg Host.Outcome.next ((if_neg hraw).trans ?_)
    cases level <;> rfl
  case quiet =>
    refine congrArg Host.Outcome.next ?_
    rw [hquiet]
  case expiry =>
    intro new silent
    have hnew : new = takenOf level := by cases level <;> rfl
    refine ⟨fun h hnothing => ?silent, fun hv hunsettled hchange => ?told⟩
    case silent =>
      have hnot : ¬ToldOf s p level := by
        unfold ToldOf
        rw [← hnew]
        rintro ⟨hv, hunsettled, hchange⟩
        rcases h with h | h | h
        · exact hv h
        · exact hunsettled h
        · exact hchange h
      rw [exec_debounceExpiry_of_settling hsettling, takeLevel_of_silent hnot, startSolve_modChan hnothing]
      simp only [silent, hnew]
      rfl
    case told =>
      intro u fails
      have hu : u = s.modChan p fun c => { c with taken := takenOf level, debounce := .quiet, changeFlag := true } := by
        simp only [u, silent, hnew]
        rfl
      have htold : ToldOf s p level := ⟨hv, hunsettled, hnew ▸ hchange⟩
      have hchan : u.chan p = { s.chan p with taken := takenOf level, debounce := .quiet, changeFlag := true } := by
        rw [hu, chan_modChan, if_pos rfl]
      refine ⟨takeLevel p level s, exec_debounceExpiry_of_settling hsettling, ?_⟩
      rw [takeLevel_of_told htold hu]
      clear_value u
      cases level
      case ready =>
        have hrecovers : (s.proj p).state = .failed → (s.chan p).lock = .locked → Recovers u p := fun hf hl =>
          ⟨by rw [hu]; exact hf, by rw [hchan]; rfl, by rw [hchan]; exact hl⟩
        have hnot : (s.proj p).state ≠ .failed ∨ (s.chan p).lock ≠ .locked → recoveryCheck p u = u := fun h =>
          recoveryCheck_of_not fun ⟨hf, _, hl⟩ => by
            rw [hu] at hf
            rw [hchan] at hl
            exact h.elim (· hf) (· hl)
        refine ⟨fun q hq => ?_, claimStep_of_stands (recoveryCheck_touches p u) _,
          fun _ hf hl => recovered_recoveryCheck (hrecovers hf hl), fun _ h => hnot h, ?_, ?_⟩
        · dsimp only
          rw [proj_recoveryCheck_of_ne u hq, hu]
          exact SameButForTarget.refl _
        · rintro ⟨hlevel, -⟩
          cases hlevel
        · intro hlevel
          cases hlevel
      case notReady =>
        have hsame : u.projectors = s.projectors ∧ u.attention = s.attention := by rw [hu]; exact ⟨rfl, rfl⟩
        obtain ⟨hprojectors, hattention⟩ := hsame
        have hproj (q : Slot) : u.proj q = s.proj q := proj_congr hprojectors q
        have h8 : u.eventRecord 8 = s.eventRecord 8 := by rw [State.eventRecord, hattention]; rfl
        dsimp only
        by_cases hstands : (s.proj p).autoFailover = false ∨ (s.proj p).state = .retiring
        · obtain ⟨htouches, ⟨hrecord8, htargets⟩, hraised, hrecord⟩ :=
            takeFaultStart_stands (s := u) (by rw [hproj]; exact hv) (by rw [hproj]; exact hstands)
          simp only [hproj] at hrecord htargets
          refine ⟨fun q hq => ?_, claimStep_of_stands htouches _, nofun, nofun, fun ⟨_, hauto, hr⟩ => ?_,
            fun _ _ => ⟨⟨hrecord8.trans h8, htargets⟩, ?_, Raised.congr_left hraised hattention.symm, fun hf => ?_,
              fun hf => ?_⟩⟩
          · rw [hrecord, if_neg fun h => hq h.1]
            exact SameButForTarget.refl _
          · rcases hstands with h | h
            · rw [h] at hauto; cases hauto
            · exact absurd h hr
          · have hnodes := nodesStand_of_touches htouches
            rw [hu] at hnodes ⊢
            exact hnodes
          · rw [hrecord, if_neg fun h => hf h.2]
          · rw [hrecord, if_pos ⟨rfl, hf⟩]
        · have hauto : (s.proj p).autoFailover = true := by simpa using fun h => hstands (.inl h)
          have hfails : fails := ⟨rfl, hauto, fun h => hstands (.inr h)⟩
          have hreported := takeLockFault_reported p .line u
          rw [takeFaultStart_of_auto (by rw [hproj]; exact hauto)]
          generalize takeLockFault p .line u = t at hreported ⊢
          refine ⟨fun q hq => ?_, ClaimStep.mono hreported.frame fun q ⟨hq, h⟩ => ⟨hq, hfails, ?_⟩, nofun, nofun,
            fun _ => ⟨hreported.taken, ?_⟩, fun _ h => absurd h hstands⟩
          · rw [← hproj]
            exact hreported.others q hq
          · rw [hu] at h
            exact h
          · have hraised := Raised.congr_left hreported.raised hattention.symm
            rw [hu] at hraised
            exact hraised

end Sys2Proof.Machine
end

section
/-! PROOF. The completion of a fetch: the record stored, and the ends of a load (O48). -/

namespace Sys2Proof.Machine

open Sys2Proof Sys2Proof.Stating

set_option Elab.async false

/-! ### The end of a load and its apply (R178) -/

theorem applyAtEnd_of_sealed {s t : State} {k : Nat} (h : applyEdits s = (t, .sealed k)) (hk : k ≠ 0) :
    applyAtEnd s = t.setApplyResult (.sealed k) := by
  obtain ⟨j, rfl⟩ := Nat.exists_eq_succ_of_ne_zero hk
  unfold applyAtEnd
  generalize applyEdits s = r at h ⊢
  subst h
  rfl

theorem applyAtEnd_of_empty {s t : State} (h : applyEdits s = (t, .sealed 0)) : applyAtEnd s = t.setApplyResult .empty := by
  unfold applyAtEnd
  generalize applyEdits s = r at h ⊢
  subst h
  rfl

theorem applyAtEnd_of_busy {s t : State} (h : applyEdits s = (t, .busy)) :
    applyAtEnd s = (t.setEdit { t.edit with applyWaiting := true }).setApplyResult .deferred := by
  unfold applyAtEnd
  generalize applyEdits s = r at h ⊢
  subst h
  rfl

/-- The seal neither reads nor writes the loader. -/
theorem Sealed.setLoader {u v : State} {l : Loader} (h : Sealed (u.setLoader l) v) : Sealed u (v.setLoader u.loader) := by
  obtain ⟨hframe, hmembers, hothers⟩ := h
  exact ⟨congrArg (fun t : State => t.setLoader u.loader) hframe, hmembers, hothers⟩

theorem wantsApply_eq {l : Loader} {d : Descriptor} (hd : l.descriptor = some d) : l.wantsApply = d.applyAtEnd := by
  unfold Loader.wantsApply
  rw [hd]

theorem endDone_of_no_apply {u : State} {d : Descriptor} (hd : u.loader.descriptor = some d) (ha : d.applyAtEnd = false)
    (o : LoadOutcome) : endDone o u = (u.setLoader (u.loader.ended o)).raise (.loadDone o u.loader.stored) := by
  unfold endDone
  dsimp only
  rw [if_neg (by rw [wantsApply_eq hd, ha]; exact Bool.false_ne_true)]

theorem endDone_of_apply {u : State} {d : Descriptor} (hd : u.loader.descriptor = some d) (ha : d.applyAtEnd = true)
    (o : LoadOutcome) : endDone o u = (applyAtEnd (u.setLoader (u.loader.ended o))).raise (.loadDone o u.loader.stored) := by
  unfold endDone
  dsimp only
  rw [if_pos (by rw [wantsApply_eq hd, ha])]

theorem openSet_setLoader (s : State) (l : Loader) : (s.setLoader l).openSet = s.openSet := by
  unfold State.openSet
  rfl

theorem loadDone_endDone {u : State} {d : Descriptor} (hd : u.loader.descriptor = some d) (o : LoadOutcome) :
    LoadDone u d o (startSolve (endDone o u)) := by
  refine ⟨fun ha => ?plain, fun ha hgroup => ?deferred, fun ha hgroup hempty => ?empty, fun ha hgroup hopen => ?sealed⟩
  case plain => rw [endDone_of_no_apply hd ha]; rfl
  case deferred =>
    rw [endDone_of_apply hd ha, applyAtEnd_of_busy (applyEdits_of_group (s := u.setLoader (u.loader.ended o)) hgroup)]
    rfl
  case empty =>
    have ho := (openSet_setLoader u (u.loader.ended o)).trans ((openSet_eq_nil_iff u).2 hempty)
    rw [endDone_of_apply hd ha, applyAtEnd_of_empty (applyEdits_of_empty (s := u.setLoader (u.loader.ended o)) hgroup ho)]
    rfl
  case sealed =>
    have ho : (u.setLoader (u.loader.ended o)).openSet ≠ [] := by
      rw [openSet_setLoader]
      exact openSet_ne_nil hopen
    have hlength : (u.setLoader (u.loader.ended o)).openSet.length ≠ 0 := fun h => ho (List.length_eq_zero_iff.1 h)
    have hmembers : (sealOpenSet (u.setLoader (u.loader.ended o))).edit.members =
        (u.setLoader (u.loader.ended o)).openSet.length := by rw [edit_sealOpenSet]
    have hloader := (sealOpenSet_touches (u.setLoader (u.loader.ended o))).loader
    refine ⟨_, Sealed.setLoader (sealed_sealOpenSet (u.setLoader (u.loader.ended o))), ?_⟩
    rw [endDone_of_apply hd ha, applyAtEnd_of_sealed (applyEdits_of_open (s := u.setLoader (u.loader.ended o)) hgroup ho) hlength,
      State.setApplyResult, hloader]
    generalize sealOpenSet (u.setLoader (u.loader.ended o)) = v at hmembers ⊢
    rw [State.setLoader_edit, hmembers]
    rfl

/-! ### The record counted (R176) -/

theorem nothingToBegin_congr {s t : State} (h : NothingToBegin s) (hsolver : t.solver = s.solver) : NothingToBegin t := by
  unfold NothingToBegin
  rw [hsolver]
  exact h

theorem recordCounted_recordStored {u : State} {d : Descriptor} (hd : u.loader.descriptor = some d)
    (hnothing : NothingToBegin u) : RecordCounted u d (startSolve (recordStored d u)) := by
  refine ⟨fun hlast => ?last, fun hmore => ?more⟩
  case last =>
    have hcounted : (u.setLoader (u.loader.counted d.format.size)).loader.remaining = 0 := by
      rw [State.setLoader_loader, Loader.counted, hlast]
    have hstored : recordStored d u = endDone .doneCount (u.setLoader (u.loader.counted d.format.size)) := if_pos hcounted
    rw [hstored]
    exact loadDone_endDone (u := u.setLoader (u.loader.counted d.format.size)) hd .doneCount
  case more =>
    have hcounted : (u.setLoader (u.loader.counted d.format.size)).loader.remaining ≠ 0 := by
      rw [State.setLoader_loader, Loader.counted]
      dsimp only
      omega
    have hstored : recordStored d u = fetchDecision false (u.setLoader (u.loader.counted d.format.size)) := if_neg hcounted
    have htouches : Touches [.loader] u (fetchDecision false (u.setLoader (u.loader.counted d.format.size))) :=
      (setLoader_touches u _).trans (fetchDecision_touches false _)
    rw [hstored, startSolve_of_nothing (nothingToBegin_congr hnothing htouches.solver)]
    unfold fetchDecision
    rw [failoverOwed_eq]
    rfl

theorem applyEdits_rewrites (s : State) : Rewrites s (applyEdits s).1 := by
  unfold applyEdits
  split
  · split
    · exact Rewrites.refl s
    · exact sealOpenSet_rewrites s
  · exact Rewrites.refl s

theorem applyAtEnd_rewrites (s : State) : Rewrites s (applyAtEnd s) := by
  have h := applyEdits_rewrites s
  unfold applyAtEnd
  split
  · next heq => rw [heq] at h; exact h.trans (Rewrites.of_touches (setLoader_touches _ _))
  · next heq => rw [heq] at h; exact h.trans (Rewrites.of_touches (setLoader_touches _ _))
  · next heq =>
    rw [heq] at h
    exact (h.trans (Rewrites.of_touches (setEdit_touches _ _))).trans (Rewrites.of_touches (setLoader_touches _ _))

theorem endDone_rewrites (o : LoadOutcome) (s : State) : Rewrites s (endDone o s) := by
  have hended : Rewrites s (s.setLoader (s.loader.ended o)) := Rewrites.of_touches (setLoader_touches s _)
  unfold endDone
  exact (Rewrites.ite (hended.trans (applyAtEnd_rewrites _)) hended).trans (Rewrites.of_touches (raise_touches _ _))

theorem recordStored_rewrites (d : Descriptor) (s : State) : Rewrites s (recordStored d s) := by
  have hcounted : Rewrites s (s.setLoader (s.loader.counted d.format.size)) := Rewrites.of_touches (setLoader_touches s _)
  unfold recordStored
  exact Rewrites.ite (hcounted.trans (endDone_rewrites _ _))
    (hcounted.trans (Rewrites.of_touches (setLoader_touches _ _)))

/-! ### The record taken (R175 to R178) -/

theorem exec_fetchCompletion {s : State} {f : Fetch} {d : Descriptor} (hf : s.loader.fetch = some f)
    (hd : s.loader.descriptor = some d) (k : Nat) (result : FetchResult) : exec (.fetchCompletion k result) s =
      .next (if f.serial = k ∧ s.loader.isAnsweredBy result = true then startSolve (completeFetch d result s) else s) := by
  refine congrArg Host.Outcome.next ?_
  rw [hf, hd]

theorem isAnsweredBy_data {l : Loader} {f : Fetch} {d : Descriptor} (hf : l.fetch = some f) (hd : l.descriptor = some d)
    (bytes : List Byte) : l.isAnsweredBy (.data bytes) = true ↔ bytes.length = d.format.size := by
  have hasked : l.asked.length = d.format.size := by
    unfold Loader.asked
    rw [hf, hd]
    exact (List.length_map _).trans List.length_range
  unfold Loader.isAnsweredBy
  dsimp only
  rw [beq_iff_eq, hasked]

theorem exec_fetchCompletion_data {s : State} {f : Fetch} {d : Descriptor} (hf : s.loader.fetch = some f)
    (hd : s.loader.descriptor = some d) {bytes : List Byte} (hlength : bytes.length = d.format.size) :
    exec (.fetchCompletion f.serial (.data bytes)) s = .next (startSolve (takeRecord d (decodeRecord d.format bytes) s)) :=
  (exec_fetchCompletion hf hd _ _).trans
    (congrArg Host.Outcome.next (if_pos ⟨rfl, (isAnsweredBy_data hf hd bytes).2 hlength⟩))

/-- A load that ends in a fault leaves the solver as it stands. -/
theorem startSolve_endFaulted {s : State} (h : NothingToBegin s) (o : LoadOutcome) (reason : FaultReason) :
    startSolve (endFaulted o reason s) = loadFaulted s o reason := startSolve_of_nothing (s := endFaulted o reason s) h

theorem refusalReason_eq {code : ResultCode} {reason : FaultReason} (h : (code, reason) ∈ faultReasons) :
    refusalReason code = reason := by
  simp only [faultReasons, List.mem_cons, List.not_mem_nil, or_false, Prod.mk.injEq] at h
  rcases h with ⟨rfl, rfl⟩ | ⟨rfl, rfl⟩ | ⟨rfl, rfl⟩ | ⟨rfl, rfl⟩ | ⟨rfl, rfl⟩ | ⟨rfl, rfl⟩ | ⟨rfl, rfl⟩ <;> rfl

theorem takeRecord_claim_refused {s : State} {slot ring sector : Nat} {code : ResultCode}
    (h : setClaimRefusal s (resolveNode ring sector) slot = some code) (d : Descriptor) (q : Pos) (pin : PinField) :
    takeRecord d (.claim slot ring sector q pin) s = endFaulted .faultStore (refusalReason code) s := by
  have hedit := editSetClaim_of_refusal h q pin
  unfold takeRecord
  dsimp only
  generalize editSetClaim (resolveNode ring sector) slot q pin s = r at hedit ⊢
  subst hedit
  rfl

theorem takeRecord_drop_refused {s : State} {slot ring sector : Nat} {code : ResultCode}
    (h : dropClaimRefusal s (resolveNode ring sector) slot = some code) (d : Descriptor) :
    takeRecord d (.drop slot ring sector) s = endFaulted .faultStore (refusalReason code) s := by
  have hedit := editDropClaim_of_refusal h
  unfold takeRecord
  dsimp only
  generalize editDropClaim (resolveNode ring sector) slot s = r at hedit ⊢
  subst hedit
  rfl

/-- An edit that is not refused names a node and a slot. -/
theorem named_of_no_set_refusal {s : State} {node : Option Nat} {slot : Nat} (h : setClaimRefusal s node slot = none) :
    ∃ n, ∃ p : Slot, node = some n ∧ slot = p.val := by
  unfold setClaimRefusal at h
  cases node with
  | none => cases h
  | some n =>
    by_cases hs : slot < 16
    · exact ⟨n, ⟨slot, hs⟩, rfl, rfl⟩
    · dsimp only at h
      rw [dif_neg hs] at h
      cases h

theorem named_of_no_drop_refusal {s : State} {node : Option Nat} {slot : Nat} (h : dropClaimRefusal s node slot = none) :
    ∃ n, ∃ p : Slot, ∃ c, node = some n ∧ slot = p.val ∧ claimBy (s.node n).claims p = some c := by
  unfold dropClaimRefusal at h
  cases node with
  | none => cases h
  | some n =>
    by_cases hs : slot < 16
    · dsimp only at h
      rw [if_pos hs] at h
      split at h
      · cases h
      split at h
      · next hclaim =>
        obtain ⟨c, hc⟩ := (exists_claim_iff (p := ⟨slot, hs⟩)).1 hclaim
        exact ⟨n, ⟨slot, hs⟩, c, rfl, rfl, hc⟩
      · cases h
    · dsimp only at h
      rw [if_neg hs] at h
      cases h

theorem takeRecord_claim_taken {s : State} {n : Nat} {p : Slot} (h : setClaimRefusal s (some n) p.val = none)
    {ring sector : Nat} (hn : resolveNode ring sector = some n) (d : Descriptor) (q : Pos) (pin : PinField) :
    ∃ u outcome, takeRecord d (.claim p.val ring sector q pin) s = recordStored d u ∧ ClaimSet s u n p q pin outcome := by
  obtain ⟨u, o, hedit, hset⟩ := editSetClaim_taken h q pin
  refine ⟨u, o.code, ?_, hset⟩
  unfold takeRecord
  dsimp only
  rw [hn]
  generalize editSetClaim (some n) p.val q pin s = r at hedit ⊢
  subst hedit
  rfl

theorem takeRecord_drop_taken {s : State} {n : Nat} {p : Slot} {c : Claim} (h : dropClaimRefusal s (some n) p.val = none)
    {ring sector : Nat} (hn : resolveNode ring sector = some n) (hc : claimBy (s.node n).claims p = some c) (d : Descriptor) :
    takeRecord d (.drop p.val ring sector) s = recordStored d (removeClaim n p c s).1 := by
  have hedit := (editDropClaim_of_no_refusal h hc).trans (removeClaim_answer n p c s)
  unfold takeRecord
  dsimp only
  rw [hn]
  generalize editDropClaim (some n) p.val s = r at hedit ⊢
  subst hedit
  rfl

theorem removeClaim_rewrites (n : Nat) (p : Slot) (c : Claim) (s : State) : Rewrites s (removeClaim n p c s).1 := by
  have hopen (u : State) : Rewrites u (openNode n u) := Rewrites.modNode u n _
  unfold removeClaim
  split
  · exact (freeClaim_rewrites p n s).trans (hopen _)
  · exact (Rewrites.modNode s n _).trans (hopen _)

/-- What stands after a record is stored, whatever the load does next. -/
theorem recordStored_stands (d : Descriptor) (u : State) :
    (startSolve (recordStored d u)).dome.cursor = u.dome.cursor ∧ (startSolve (recordStored d u)).port = u.port :=
  ⟨((recordStored_rewrites d u).trans (startSolve_rewrites _)).cursor,
    ((startSolve_touches _).port).trans (recordStored_touches d u).port⟩

/-! ### The bytes of a record (R175, R198) -/

section
variable (b0 ring sector b3 u0 u1 v0 v1 p0 p1 : Byte)

theorem decodeRecord_compact : decodeRecord .compact [b0, ring, sector, b3, u0, u1, v0, v1] =
    if b0.toNat / 16 = 1 then .claim (b0.toNat % 16) ring.toNat sector.toNat ⟨word u0 u1, word v0 v1⟩
        (if b3.toNat % 2 = 1 then .clear else .absent)
    else if b0.toNat / 16 = 2 then .drop (b0.toNat % 16) ring.toNat sector.toNat
    else if b0.toNat / 16 = 3 then .endMark else .bad := by
  unfold decodeRecord
  simp [byteAt, wordAt, word]

theorem decodeRecord_full : decodeRecord .full ([b0, ring, sector, b3, u0, u1, v0, v1] ++ [p0, p1]) =
    if b0.toNat / 16 = 1 then
      if b3.toNat % 2 = 1 ∧ 32768 ≤ word p0 p1 then .bad
      else .claim (b0.toNat % 16) ring.toNat sector.toNat ⟨word u0 u1, word v0 v1⟩
        (if 32768 ≤ word p0 p1 then .value (min 1023 (word p0 p1 % 32768))
          else if b3.toNat % 2 = 1 then .clear else .absent)
    else if b0.toNat / 16 = 2 then .drop (b0.toNat % 16) ring.toNat sector.toNat
    else if b0.toNat / 16 = 3 then .endMark else .bad := by
  unfold decodeRecord
  by_cases hclear : b3.toNat % 2 = 1
  · simp [byteAt, wordAt, word, Config.affinityMax, hclear]
  · simp [byteAt, wordAt, word, Config.affinityMax, hclear]

end

/-- Settles O48: the answer by its serial and its length, the record by its edit, and its counts by `RecordCounted`. -/
theorem fetchCompletionStoresRecord : Obligations.FetchCompletionStoresRecord := by
  refine ⟨fun s k result hf => ?idle, fun s f d hrunning hf hd hnothing => ⟨fun k result hk => ?other, ?readError, ?noResponse,
    fun bytes hbytes => ?size, fun bytes hbytes => ?record⟩, fun b0 ring sector b3 u0 u1 v0 v1 p0 p1 => ?bytes⟩
  case idle =>
    refine congrArg Host.Outcome.next ?_
    rw [hf]
  case other =>
    rw [exec_fetchCompletion hf hd, if_neg fun h => hk h.1.symm]
  case readError =>
    rw [exec_fetchCompletion hf hd, if_pos ⟨rfl, rfl⟩, ← startSolve_endFaulted hnothing]
    rfl
  case noResponse =>
    rw [exec_fetchCompletion hf hd, if_pos ⟨rfl, rfl⟩, ← startSolve_endFaulted hnothing]
    rfl
  case size =>
    have hsize : bytes.length ≠ d.format.size := fun h => hbytes (by rw [h]; cases d.format <;> rfl)
    rw [exec_fetchCompletion hf hd, if_neg fun h => hsize ((isAnsweredBy_data hf hd bytes).1 h.2)]
  case record =>
    have hsize : bytes.length = d.format.size := by rw [hbytes]; cases d.format <;> rfl
    intro done
    have hdone : done = .next (startSolve (takeRecord d (decodeRecord d.format bytes) s)) :=
      exec_fetchCompletion_data hf hd hsize
    clear_value done
    subst hdone
    refine ⟨fun hm => ?bad, fun slot ring sector q pin hm => ⟨fun code reason hcode h => ?claimRefused,
      fun h hremaining => ?claimTaken⟩, fun slot ring sector hm => ⟨fun code reason hcode h => ?dropRefused,
      fun h hremaining => ?dropTaken⟩, fun hm hpass hremaining => ?passed, fun hm hhonour => ?honoured⟩
    case bad =>
      rw [hm, ← startSolve_endFaulted hnothing]
      rfl
    case claimRefused =>
      rw [hm, takeRecord_claim_refused h, refusalReason_eq hcode, startSolve_endFaulted hnothing]
    case dropRefused =>
      rw [hm, takeRecord_drop_refused h, refusalReason_eq hcode, startSolve_endFaulted hnothing]
    case claimTaken =>
      obtain ⟨n, p, hn, rfl⟩ := named_of_no_set_refusal h
      rw [hn] at h
      obtain ⟨u, outcome, htaken, hset⟩ := takeRecord_claim_taken h hn d q pin
      obtain ⟨hframe, -⟩ := id hset
      rw [hm, htaken]
      obtain ⟨hcursor, hport⟩ := recordStored_stands d u
      refine ⟨_, rfl, hcursor.trans (by rw [hframe]), hport.trans (by rw [hframe]), fun n' p' hn' hp' => ?_⟩
      obtain rfl : n = n' := Option.some.inj (hn.symm.trans hn')
      obtain rfl : p = p' := Fin.ext hp'
      exact ⟨u, outcome, hset, recordCounted_recordStored (by rw [hframe]; exact hd)
        (nothingToBegin_congr hnothing (by rw [hframe]))⟩
    case dropTaken =>
      obtain ⟨n, p, c, hn, rfl, hc⟩ := named_of_no_drop_refusal h
      rw [hn] at h
      have htouches := removeClaim_touches n p c s
      have hloader := (removeClaim_told n p c s).loader_of_running hrunning
      obtain ⟨hcursor, hport⟩ := recordStored_stands d (removeClaim n p c s).1
      rw [hm, takeRecord_drop_taken h hn hc]
      refine ⟨_, rfl, hcursor.trans (removeClaim_rewrites n p c s).cursor, hport.trans htouches.port,
        fun n' p' c' hn' hp' hc' => ?_⟩
      obtain rfl : n = n' := Option.some.inj (hn.symm.trans hn')
      obtain rfl : p = p' := Fin.ext hp'
      obtain rfl : c = c' := Option.some.inj (hc.symm.trans hc')
      exact ⟨_, claimDropped_removeClaim c, recordCounted_recordStored (by rw [hloader]; exact hd)
        (nothingToBegin_congr hnothing htouches.solver)⟩
    case passed =>
      have htake : takeRecord d .endMark s = recordStored d s := if_neg (by rw [hpass]; exact Bool.false_ne_true)
      rw [hm, htake]
      exact ⟨_, rfl, recordCounted_recordStored hd hnothing⟩
    case honoured =>
      have htake : takeRecord d .endMark s = endDone .doneEnd s := if_pos hhonour
      rw [hm, htake]
      exact ⟨_, rfl, loadDone_endDone hd .doneEnd⟩
  case bytes =>
    intro slot head q clear pinned
    have hcompact := decodeRecord_compact b0 ring sector b3 u0 u1 v0 v1
    have hfull := decodeRecord_full b0 ring sector b3 u0 u1 v0 v1 p0 p1
    refine ⟨fun hkind => ?claims, fun format bytes hmem => ?rest⟩
    case claims =>
      rw [if_pos hkind] at hcompact hfull
      refine ⟨hcompact, fun hc hp => ?_, fun hc hp => ?_, fun hc hp => ?_, fun hc hp => ?_⟩
      · exact hfull.trans (if_pos ⟨hc, hp⟩)
      · refine hfull.trans ((if_neg fun h => hp h.2).trans ?_)
        rw [if_neg hp, if_pos hc]
      · refine hfull.trans ((if_neg fun h => hc h.1).trans ?_)
        rw [if_pos hp]
      · refine hfull.trans ((if_neg fun h => hc h.1).trans ?_)
        rw [if_neg hp, if_neg hc]
    case rest =>
      have hother (h1 : b0.toNat / 16 ≠ 1) : decodeRecord format bytes =
          if b0.toNat / 16 = 2 then .drop slot ring.toNat sector.toNat
          else if b0.toNat / 16 = 3 then .endMark else .bad := by
        simp only [List.mem_cons, List.not_mem_nil, or_false, Prod.mk.injEq] at hmem
        rcases hmem with ⟨rfl, rfl⟩ | ⟨rfl, rfl⟩
        · exact hcompact.trans (if_neg h1)
        · exact hfull.trans (if_neg h1)
      refine ⟨fun h => ?_, fun h => ?_, fun h => ?_⟩
      · rw [hother (by omega), if_pos h]
      · rw [hother (by omega), if_neg (by omega), if_pos h]
      · rw [hother (by omega), if_neg (by omega), if_neg (by omega)]

end Sys2Proof.Machine
end

section
/-! PROOF. One projector's fade step: the fade record, the refresh of its nodes, and the completion (R82, R83). -/

namespace Sys2Proof.Machine

open Sys2Proof Sys2Proof.Stating

set_option Elab.async false

/-! ### The fade moved on by one step -/

/-- The fade record one step on. -/
def Fade.next (f : Fade) : Fade := { f with elapsed := f.elapsed + 1 }

/-- The fade moved on to a record and the projector's nodes refreshed (R82). -/
def fadeMoved (p : Slot) (g : Fade) (s : State) : State :=
  refreshClaimed p (s.modProj p fun r => { r with fade := some g, phi := g.phi })

/-- The fade ended with its FADE_DONE, before what follows for the state (R83). -/
def fadeEnded (p : Slot) (g : Fade) (s : State) : State :=
  ((fadeMoved p g s).modProj p fun r => { r with fade := none }).raise (.fadeDone p false)

section
variable (p : Slot) (g : Fade) (s : State)

theorem record_fadeMoved (q : Slot) :
    (fadeMoved p g s).proj q = if q = p then { s.proj p with fade := some g, phi := g.phi } else s.proj q :=
  proj_refreshClaimed_modProj p _ s q

theorem fadeMoved_touches : Touches [.dome, .solver, .projectors] s (fadeMoved p g s) := refreshClaimed_modProj_touches p _ s

theorem fadeMoved_keepsClaims : KeepsClaims s (fadeMoved p g s) := refreshClaimed_modProj_keepsClaims p _ s

theorem fadeMoved_nodesRefreshed : NodesRefreshed s (fadeMoved p g s) p := nodesRefreshed_refreshClaimed p s _

theorem fadeMoved_targetsStand : TargetsStand s (fadeMoved p g s) := by
  refine TargetsStand.of_raises (Raises.of_attention (fadeMoved_touches p g s).attention) (by simp) fun q => ?_
  rw [record_fadeMoved]
  split
  · next hq => rw [hq]; exact ⟨rfl, rfl⟩
  · exact ⟨rfl, rfl⟩

theorem fadeEnded_after_touches : Touches [.projectors, .attention] (fadeMoved p g s) (fadeEnded p g s) :=
  (modProj_touches _ p _).andThen (raise_touches _ _)

theorem fadeEnded_touches : Touches [.dome, .solver, .projectors, .attention] s (fadeEnded p g s) :=
  (fadeMoved_touches p g s).andThen (fadeEnded_after_touches p g s)

theorem fadeEnded_keepsClaims : KeepsClaims s (fadeEnded p g s) :=
  (fadeMoved_keepsClaims p g s).trans (KeepsClaims.of_touches (fadeEnded_after_touches p g s))

theorem record_fadeEnded (q : Slot) :
    (fadeEnded p g s).proj q = if q = p then { s.proj p with fade := none, phi := g.phi } else s.proj q := by
  rw [fadeEnded, proj_raise, proj_modProj, record_fadeMoved, if_pos rfl, record_fadeMoved]
  by_cases hq : q = p
  · rw [if_pos hq, if_pos hq]
  · rw [if_neg hq, if_neg hq, if_neg hq]

theorem fadeEnded_raises : Raises s (fadeEnded p g s) [.fadeDone p false] :=
  (Raises.raise _ _).congr_left (((fadeMoved_touches p g s).trans (modProj_touches _ p _).mono).attention).symm

theorem fadeEnded_nodesRefreshed : NodesRefreshed s (fadeEnded p g s) p := by
  have h := fadeEnded_after_touches p g s
  exact NodesRefreshed.congr_right (fadeMoved_nodesRefreshed p g s) h.dome h.solver h.edit

end

/-! ### The completion by state (R83) -/

/-- A completed fade in: LIVE. -/
def fadeEndedLive (p : Slot) (g : Fade) (s : State) : State := (fadeEnded p g s).modProj p fun r => { r with state := .live }

/-- A completed fade out: PARKED, and the targets recomputed. -/
def fadeEndedParked (p : Slot) (g : Fade) (s : State) : State :=
  recomputeGains ((fadeEnded p g s).modProj p fun r => { r with state := .parked })

section
variable {p : Slot} {s : State} {f : Fade}

theorem fadeStepOf_of_none (h : (s.proj p).fade = none) : fadeStepOf p s = s := by
  rw [fadeStepOf, h]

theorem fadeStepOf_of_moving (h : (s.proj p).fade = some f) (hmore : f.elapsed + 1 ≠ f.length) :
    fadeStepOf p s = fadeMoved p f.next s := by
  unfold fadeStepOf
  rw [h]
  exact if_neg hmore

theorem fadeStepOf_of_complete (h : (s.proj p).fade = some f) (hend : f.elapsed + 1 = f.length) : fadeStepOf p s =
    if (s.proj p).state = .fadingIn then fadeEndedLive p f.next s
    else if f.retireAfter then enterRetiring p (fadeEnded p f.next s) else fadeEndedParked p f.next s := by
  have hstate : ((fadeMoved p f.next s).proj p).state = (s.proj p).state := by rw [record_fadeMoved, if_pos rfl]
  have hcomplete : fadeStepOf p s = completeFade p f.next (fadeMoved p f.next s) := by
    unfold fadeStepOf
    rw [h]
    exact if_pos hend
  rw [hcomplete, completeFade, hstate]
  rfl

end

section
variable (p : Slot) (g : Fade) (s : State)

theorem fadeEndedLive_touches : Touches [.dome, .solver, .projectors, .attention] s (fadeEndedLive p g s) :=
  (fadeEnded_touches p g s).trans (modProj_touches _ p _).mono

theorem fadeEndedLive_keepsClaims : KeepsClaims s (fadeEndedLive p g s) :=
  (fadeEnded_keepsClaims p g s).trans (KeepsClaims.of_touches (modProj_touches _ p _))

theorem record_fadeEndedLive (q : Slot) : (fadeEndedLive p g s).proj q =
    if q = p then { s.proj p with state := .live, fade := none, phi := g.phi } else s.proj q := by
  rw [fadeEndedLive, proj_modProj, record_fadeEnded, if_pos rfl, record_fadeEnded]
  by_cases hq : q = p
  · rw [if_pos hq, if_pos hq]
  · rw [if_neg hq, if_neg hq, if_neg hq]

theorem fadeEndedLive_raises : Raises s (fadeEndedLive p g s) [.fadeDone p false] :=
  (fadeEnded_raises p g s).congr_right (modProj_touches (fadeEnded p g s) p _).attention

theorem fadeEndedLive_nodesRefreshed : NodesRefreshed s (fadeEndedLive p g s) p := by
  have h : Touches [.projectors] (fadeEnded p g s) (fadeEndedLive p g s) := modProj_touches _ p _
  exact NodesRefreshed.congr_right (fadeEnded_nodesRefreshed p g s) h.dome h.solver h.edit

theorem fadeEndedLive_targetsStand : TargetsStand s (fadeEndedLive p g s) := by
  refine TargetsStand.of_raises (fadeEndedLive_raises p g s) (by simp [Event.cls]) fun q => ?_
  rw [record_fadeEndedLive]
  split
  · next hq => rw [hq]; exact ⟨rfl, rfl⟩
  · exact ⟨rfl, rfl⟩

theorem fadeEndedParked_after_touches :
    Touches [.projectors, .attention] (fadeEnded p g s) (fadeEndedParked p g s) :=
  (modProj_touches _ p _).andThen (recomputeGains_touches _)

theorem fadeEndedParked_touches : Touches [.dome, .solver, .projectors, .attention] s (fadeEndedParked p g s) :=
  (fadeEnded_touches p g s).trans (fadeEndedParked_after_touches p g s).mono

theorem fadeEndedParked_keepsClaims : KeepsClaims s (fadeEndedParked p g s) :=
  (fadeEnded_keepsClaims p g s).trans (KeepsClaims.of_touches (fadeEndedParked_after_touches p g s))

theorem record_fadeEndedParked (q : Slot) : SameButForTarget
    (if q = p then { s.proj p with state := .parked, fade := none, phi := g.phi } else s.proj q)
    ((fadeEndedParked p g s).proj q) := by
  have hbefore : ((fadeEnded p g s).modProj p fun r => { r with state := .parked }).proj q =
      if q = p then { s.proj p with state := .parked, fade := none, phi := g.phi } else s.proj q := by
    rw [proj_modProj, record_fadeEnded, if_pos rfl, record_fadeEnded]
    by_cases hq : q = p
    · rw [if_pos hq, if_pos hq]
    · rw [if_neg hq, if_neg hq, if_neg hq]
  rw [← hbefore]
  exact sameButForTarget_recomputeGains _ q

theorem fadeEndedParked_raised : Raised s (fadeEndedParked p g s) [.fadeDone p false] := by
  have h : Raises s ((fadeEnded p g s).modProj p fun r => { r with state := .parked }) [.fadeDone p false] :=
    (fadeEnded_raises p g s).congr_right (modProj_touches (fadeEnded p g s) p _).attention
  exact Raised.trans h.toRaised (recomputeGains_raised _)

theorem fadeEndedParked_nodesRefreshed : NodesRefreshed s (fadeEndedParked p g s) p := by
  have h := fadeEndedParked_after_touches p g s
  exact NodesRefreshed.congr_right (fadeEnded_nodesRefreshed p g s) h.dome h.solver h.edit

theorem fadeEndedParked_recomputedOnce : RecomputedOnce s (fadeEndedParked p g s) := by
  refine recomputedOnce_of_raises (targetsSettled_recomputeGains _) (es := [.fadeDone p false]) (fs := []) ?_
    (by simp [Event.cls]) (by simp)
  rw [List.append_nil]
  have h : Raises s ((fadeEnded p g s).modProj p fun r => { r with state := .parked }) [.fadeDone p false] :=
    (fadeEnded_raises p g s).congr_right (modProj_touches (fadeEnded p g s) p _).attention
  exact h.trans (recomputeGains_raises _)

end

/-! ### A retire-fade that completes (R83, R86) -/

theorem newClaims_of_claims {s t : State} (h : ∀ n, (t.node n).claims = (s.node n).claims) (p : Slot) :
    newClaims t p = newClaims s p := by
  unfold newClaims
  simp only [h]

/-- A state with the records of the projectors of another. -/
def State.withRecordsOf (t s : State) : State := { t with projectors := s.projectors }

theorem withRecordsOf_projectors (t s : State) : (t.withRecordsOf s).projectors = s.projectors := rfl

theorem withRecordsOf_touches (t s : State) : Touches [.projectors] t (t.withRecordsOf s) := fun k hk => by
  cases k
  case projectors => simp at hk
  all_goals rfl

theorem proj_withRecordsOf (t s : State) (q : Slot) : (t.withRecordsOf s).proj q = s.proj q := rfl

/-- The refreshed map and queue alone, from which a completed retire-fade enters RETIRING. -/
def refreshedAlone (p : Slot) (g : Fade) (s : State) : State := (fadeMoved p g s).withRecordsOf s

section
variable (p : Slot) (g : Fade) (s : State)

theorem refreshedAlone_touches : Touches [.dome, .solver] s (refreshedAlone p g s) := fun k hk => by
  by_cases hp : k = .projectors
  · subst hp
    exact withRecordsOf_projectors _ s
  · exact ((fadeMoved_touches p g s).trans (withRecordsOf_touches _ s).mono) k (by simpa [hp] using hk)

theorem fadeMoved_of_refreshed_touches : Touches [.projectors] (refreshedAlone p g s) (fadeMoved p g s) := fun k hk => by
  have h := withRecordsOf_touches (fadeMoved p g s) s k hk
  cases k
  case projectors => simp at hk
  all_goals exact Eq.symm h

theorem fadeEnded_of_refreshed_touches : Touches [.projectors, .attention] (refreshedAlone p g s) (fadeEnded p g s) :=
  (fadeMoved_of_refreshed_touches p g s).andThen (fadeEnded_after_touches p g s)

theorem refreshedAlone_keepsClaims : KeepsClaims s (refreshedAlone p g s) :=
  (fadeMoved_keepsClaims p g s).trans (KeepsClaims.of_touches (withRecordsOf_touches _ s))

theorem onlyNodesAndSolver_refreshedAlone : OnlyNodesAndSolver s (refreshedAlone p g s) := by
  have hkeeps := refreshedAlone_keepsClaims p g s
  have hdome : { s.dome with nodes := (refreshedAlone p g s).dome.nodes } = (refreshedAlone p g s).dome := by
    rw [hkeeps.rewrites.dome_eq, hkeeps.free]
  unfold OnlyNodesAndSolver
  rw [hdome]
  exact (refreshedAlone_touches p g s).frame

theorem refreshedAlone_nodesRefreshed : NodesRefreshed s (refreshedAlone p g s) p := by
  have h := withRecordsOf_touches (fadeMoved p g s) s
  exact NodesRefreshed.congr_right (fadeMoved_nodesRefreshed p g s) h.dome h.solver h.edit

theorem proj_refreshedAlone (q : Slot) : (refreshedAlone p g s).proj q = s.proj q := proj_withRecordsOf _ s q

theorem enteredRetiring_fadeEnded :
    EnteredRetiring (refreshedAlone p g s) (enterRetiring p (fadeEnded p g s)) p (s.proj p).failover := by
  have h := enteredRetiring_enterRetiring p (fadeEnded p g s)
  have hrecord : ((fadeEnded p g s).proj p).failover = (s.proj p).failover := by rw [record_fadeEnded, if_pos rfl]
  rw [hrecord] at h
  refine EnteredRetiring.congr_left h (fadeEnded_of_refreshed_touches p g s) (k := (s.proj p).failover) (x := g.phi)
    (fade := none) ?_ (fun q hq => ?_) ?_
  · rw [record_fadeEnded, if_pos rfl, proj_refreshedAlone]
  · rw [record_fadeEnded, if_neg hq, proj_refreshedAlone]
  · have hattention : (refreshedAlone p g s).eventRecord 8 = s.eventRecord 8 := by
      rw [State.eventRecord, (refreshedAlone_touches p g s).attention]
      rfl
    rw [hattention]
    exact (fadeEnded_raises p g s).stands (by simp [Event.cls])

theorem newClaims_fadeEnded : newClaims (fadeEnded p g s) p = newClaims s p :=
  newClaims_of_claims (fadeEnded_keepsClaims p g s).claims p

theorem retired_fadeEnded_raised : Raised s (enterRetiring p (fadeEnded p g s))
    (.fadeDone p false :: retirementEvents s p (s.proj p).failover) := by
  have h := enterRetiring_raised p (fadeEnded p g s)
  have hevents : retirementEvents (fadeEnded p g s) p ((fadeEnded p g s).proj p).failover =
      retirementEvents s p (s.proj p).failover := by
    unfold retirementEvents
    rw [newClaims_fadeEnded, record_fadeEnded, if_pos rfl]
  rw [hevents] at h
  exact Raised.trans (fadeEnded_raises p g s).toRaised h

theorem fadeEnded_yields : Yields s (fadeEnded p g s) := by
  refine Yields.of_same (fadeEnded_touches p g s).loader fun q => ?_
  rw [record_fadeEnded]
  split
  · next hq => rw [hq]
  · rfl

theorem retired_fadeEnded_yields : Yields s (enterRetiring p (fadeEnded p g s)) :=
  (fadeEnded_yields p g s).trans (enterRetiring_yields p _)

theorem retired_fadeEnded_vacates : Vacates s (enterRetiring p (fadeEnded p g s)) (leaving s p) := by
  have htouches := fadeEnded_touches p g s
  have h := (Vacates.of_same htouches.channels htouches.raster).trans (enterRetiring_vacates p (fadeEnded p g s))
  have hleaving : leaving (fadeEnded p g s) p = leaving s p := by
    unfold leaving
    rw [newClaims_fadeEnded, record_fadeEnded, if_pos rfl]
  rwa [hleaving, List.nil_append] at h

theorem retired_fadeEnded_rewrites : Rewrites s (enterRetiring p (fadeEnded p g s)) :=
  (fadeEnded_keepsClaims p g s).rewrites.trans (enterRetiring_rewrites p _)

theorem retired_fadeEnded_touches : Touches Field.inner s (enterRetiring p (fadeEnded p g s)) :=
  (fadeEnded_touches p g s).mono.trans (enterRetiring_touches p _)

theorem proj_retired_fadeEnded_of_ne {q : Slot} (hq : q ≠ p) :
    SameButForTarget (s.proj q) ((enterRetiring p (fadeEnded p g s)).proj q) := by
  have h := proj_enterRetiring_of_ne p (fadeEnded p g s) hq
  rwa [record_fadeEnded, if_neg hq] at h

end

end Sys2Proof.Machine
end

section
/-! PROOF. What the fade steps of a boundary make of the nodes: the refreshed, the hard-invalidated and the waiting ones. -/

namespace Sys2Proof.Machine

open Sys2Proof Sys2Proof.Stating

set_option Elab.async false

/-! ### The fades that complete -/

/-- The next step completes the projector's fade (R82). -/
def fadeCompletes (s : State) (p : Slot) : Bool := (s.proj p).fade.any fun f => f.elapsed + 1 == f.length

/-- The next step ends the projector's retire-fade (R83). -/
def fadeRetires (s : State) (p : Slot) : Bool := fadeCompletes s p && s.retireFade p

/-- One of these projectors ends a retire-fade and claims the node. -/
def Retired (s : State) (ps : List Slot) (m : Nat) : Prop := ∃ p ∈ ps, fadeRetires s p = true ∧ Claims s p m

/-- A claim after the retirement of these projectors: freed when it is pending-new, else withdrawn (R86). -/
def fate (gone : Slot → Bool) (c : Claim) : Option Claim :=
  if gone c.projector && c.pendingNew then none else some (if gone c.projector then { c with withdrawn := true } else c)

theorem fate_none (c : Claim) : fate (fun _ => false) c = some c := rfl

theorem projector_of_fate {gone : Slot → Bool} {c d : Claim} (h : fate gone c = some d) : d.projector = c.projector := by
  unfold fate at h
  split at h
  · cases h
  · obtain rfl := Option.some.inj h
    split <;> rfl

theorem fate_fate (gone more : Slot → Bool) (c : Claim) :
    (fate gone c).bind (fate more) = fate (fun p => gone p || more p) c := by
  unfold fate
  by_cases hg : gone c.projector = true
  · by_cases hn : c.pendingNew = true
    · simp [hg, hn]
    · by_cases hm : more c.projector = true <;> simp [hg, hn, hm]
  · by_cases hm : more c.projector = true
    · by_cases hn : c.pendingNew = true <;> simp [hg, hn, hm]
    · simp [hg, hm]

theorem filterMap_fate (gone : Slot → Bool) (cs : List Claim) : cs.filterMap (fate gone) =
    (cs.filter fun c => !(gone c.projector && c.pendingNew)).map
      fun c => if gone c.projector then { c with withdrawn := true } else c := by
  rw [← List.filterMap_eq_map, List.filterMap_filter]
  refine List.filterMap_congr fun c _ => ?_
  unfold fate
  by_cases h : (gone c.projector && c.pendingNew) = true <;> simp [h]

theorem Node.Ordered.filterMap_fate {r : Node} (h : r.Ordered) {q : Node} {gone : Slot → Bool}
    (hq : q.claims = r.claims.filterMap (fate gone)) : q.Ordered := by
  obtain ⟨hlength, hpairs⟩ := h
  refine ⟨?_, ?_⟩
  · rw [hq]
    exact (List.length_filterMap_le _ _).trans hlength
  · rw [hq]
    refine List.Pairwise.filterMap _ (fun c d hcd c' hc d' hd => ?_) hpairs
    rw [projector_of_fate hc, projector_of_fate hd]
    exact hcd

/-! ### The nodes after the fade steps of some projectors -/

/-- The node has an entry in the Solve Queue or is in flight. -/
def NodeWaits (t : State) (m : Nat) : Prop := (t.node m).queued ≠ none ∨ t.solver.flight.map Flight.node = some m

theorem SameButForQueue.refl (r : Node) : SameButForQueue r r := rfl

theorem sameButForQueue_iff (r q : Node) :
    SameButForQueue r q ↔ ∃ e i, q = { r with queued := e, inFlight := i } :=
  ⟨fun h => ⟨_, _, h⟩, fun ⟨e, i, h⟩ => by rw [h]; rfl⟩

theorem SameButForQueue.trans {r q k : Node} (h : SameButForQueue r q) (h' : SameButForQueue q k) : SameButForQueue r k := by
  obtain ⟨e, i, rfl⟩ := (sameButForQueue_iff _ _).1 h
  obtain ⟨e', i', rfl⟩ := (sameButForQueue_iff _ _).1 h'
  rfl

/-- A node hard-invalidated, with the claims that a retirement leaves (R31, R86). -/
def Struck (r q : Node) : Prop := SameButForSolver { r with claims := q.claims, nextValid := false } q

theorem hit_iff (r q : Node) : Struck r q ↔
    ∃ cs e i d, q = { r with claims := cs, nextValid := false, queued := e, inFlight := i, dirty := d } :=
  ⟨fun h => ⟨_, _, _, _, h⟩, fun ⟨cs, e, i, d, h⟩ => by rw [h]; rfl⟩

theorem Struck.of_same {r q k : Node} (h : SameButForQueue r q) (h' : Struck q k) : Struck r k := by
  obtain ⟨e, i, rfl⟩ := (sameButForQueue_iff _ _).1 h
  obtain ⟨cs, e', i', d, rfl⟩ := (hit_iff _ _).1 h'
  rfl

theorem Struck.then_same {r q k : Node} (h : Struck r q) (h' : SameButForQueue q k) : Struck r k := by
  obtain ⟨cs, e', i', d, rfl⟩ := (hit_iff _ _).1 h
  obtain ⟨e, i, rfl⟩ := (sameButForQueue_iff _ _).1 h'
  rfl

theorem Struck.trans {r q k : Node} (h : Struck r q) (h' : Struck q k) : Struck r k := by
  obtain ⟨cs, e, i, d, rfl⟩ := (hit_iff _ _).1 h
  obtain ⟨cs', e', i', d', rfl⟩ := (hit_iff _ _).1 h'
  rfl

/-- What the fade steps of these projectors make of the nodes and of the queue. -/
structure NodesFaded (s t : State) (ps : List Slot) : Prop where
  same : ∀ m, ¬Retired s ps m → SameButForQueue (s.node m) (t.node m)
  hit : ∀ m < 2049, Retired s ps m → Struck (s.node m) (t.node m)
  claims : ∀ m < 2049, (s.node m).Ordered →
    (t.node m).claims = (s.node m).claims.filterMap (fate fun q => decide (q ∈ ps) && fadeRetires s q)
  first : ∀ m q, q ∉ ps → claimBy (t.node m).claims q = claimBy (s.node m).claims q
  kept : ∀ m, NodeWaits s m → NodeWaits t m
  waits : ∀ p ∈ ps, (s.proj p).fade ≠ none → ClaimedNodesWait s t p

theorem claims_iff_claimBy (s : State) (p : Slot) (m : Nat) : Claims s p m ↔ claimBy (s.node m).claims p ≠ none := by
  rw [ne_eq, claimBy_eq_none_iff]
  simp only [not_forall, not_not, exists_prop]

/-- What the record says of the fade, the claims and the failovers, which a recomputation leaves. -/
theorem fade_of_sameButForTarget {s t : State} {q : Slot} (h : SameButForTarget (s.proj q) (t.proj q)) :
    fadeCompletes t q = fadeCompletes s q ∧ t.retireFade q = s.retireFade q ∧ fadeRetires t q = fadeRetires s q := by
  have hfade : (t.proj q).fade = (s.proj q).fade := by rw [h]
  have hcompletes : fadeCompletes t q = fadeCompletes s q := by unfold fadeCompletes; rw [hfade]
  have hretire : t.retireFade q = s.retireFade q := by unfold State.retireFade; rw [hfade]
  exact ⟨hcompletes, hretire, by unfold fadeRetires; rw [hcompletes, hretire]⟩

theorem mem_claimed {s : State} {p : Slot} {m : Nat} : m ∈ claimed s p ↔ m < 2049 ∧ Claims s p m := by
  unfold claimed
  rw [List.mem_filter, List.mem_range, decide_eq_true_iff]

/-- A soft refresh changes the entries alone, takes none away and leaves the flight; it puts every claimed node in the
queue (R33). -/
theorem NodesRefreshed.queue {s t : State} {p : Slot} (h : NodesRefreshed s t p) :
    (∀ m, SameButForQueue (s.node m) (t.node m)) ∧ (∀ m, (s.node m).queued ≠ none → (t.node m).queued ≠ none) ∧
      (∀ m, NodeWaits s m → NodeWaits t m) ∧ ∀ m ∈ claimed s p, (t.node m).queued ≠ none := by
  obtain ⟨hsolver, -, hjoining, hothers⟩ := h
  have hqueued (m : Nat) (hq : (s.node m).queued ≠ none) : (t.node m).queued ≠ none := by
    rw [hothers m (fun hm => hq (by simpa using (List.mem_filter.1 hm).2))]
    exact hq
  refine ⟨fun m => ?_, hqueued, fun m => ?_, fun m hm => ?_⟩
  · by_cases hm : m ∈ (claimed s p).filter fun n => (s.node n).queued = none
    · rw [hjoining m hm]; rfl
    · rw [hothers m hm]; rfl
  · rintro (hq | hflight)
    · exact .inl (hqueued m hq)
    · exact .inr (by rw [hsolver]; exact hflight)
  · by_cases hq : (s.node m).queued = none
    · rw [hjoining m (List.mem_filter.2 ⟨hm, decide_eq_true hq⟩)]
      simp
    · exact hqueued m hq

theorem startSolve_nodeWaits (s : State) (m : Nat) (h : NodeWaits s m) : NodeWaits (startSolve s) m := by
  have htaken (v : Solver) (n : Nat) (f : Flight) (hf : s.solver.flight = none) (hnode : f.node = n) :
      NodeWaits ((s.setSolver { v with flight := some f }).modNode n Node.taken) m := by
    by_cases hm : m = n
    · exact .inr (by rw [hm, ← hnode]; rfl)
    · refine .inl ?_
      rw [node_modNode, if_neg hm]
      refine h.resolve_right fun hflight => ?_
      rw [hf] at hflight
      cases hflight
  unfold startSolve
  split
  · exact h
  · next hf _ => exact htaken s.solver _ _ hf rfl
  · next hf _ _ => exact htaken s.solver _ _ hf rfl
  · exact h

theorem startSolve_sameButForQueue (s : State) (m : Nat) : SameButForQueue (s.node m) ((startSolve s).node m) := by
  rcases node_startSolve s m with h | ⟨-, h⟩
  · rw [h]; rfl
  · rw [h]; rfl

theorem claimBy_withdrawnBy_of_ne {p q : Slot} (hq : q ≠ p) (r : Node) :
    claimBy (r.withdrawnBy p).claims q = claimBy r.claims q := by
  unfold Node.withdrawnBy
  cases claimBy r.claims p with
  | none => rfl
  | some c =>
    dsimp only
    split
    · unfold claimBy Node.dropClaim
      rw [List.find?_filter]
      refine List.find?_congr fun d _ => ?_
      by_cases hd : d.projector = q <;> simp [hd, hq]
    · unfold claimBy Node.modClaim
      rw [List.find?_map]
      have hsame : ((fun c : Claim => c.projector == q) ∘ fun c => if c.projector == p then { c with withdrawn := true } else c)
          = fun c => c.projector == q := by
        funext d
        by_cases hd : d.projector = p <;> simp [hd]
      rw [hsame]
      cases hfind : r.claims.find? fun c => c.projector == q with
      | none => rfl
      | some d =>
        have hd : d.projector = q := by simpa using List.find?_some hfind
        simp [hd, hq]

theorem claims_retiredBy (p : Slot) (r : Node) : (r.retiredBy p).claims = (r.withdrawnBy p).claims := rfl

namespace NodesFaded

variable {s t u : State} {ps qs : List Slot}

theorem claims_iff (h : NodesFaded s t ps) {q : Slot} (hq : q ∉ ps) (m : Nat) : Claims t q m ↔ Claims s q m := by
  rw [claims_iff_claimBy, claims_iff_claimBy, h.first m q hq]

theorem newClaims (h : NodesFaded s t ps) {q : Slot} (hq : q ∉ ps) : Stating.newClaims t q = Stating.newClaims s q := by
  unfold Stating.newClaims
  simp only [h.first _ q hq]

theorem trans (h : NodesFaded s t ps) (h' : NodesFaded t u qs) (hd : ∀ q ∈ qs, q ∉ ps)
    (hrecords : ∀ q ∈ qs, SameButForTarget (s.proj q) (t.proj q)) : NodesFaded s u (ps ++ qs) := by
  have hretires (q : Slot) (hq : q ∈ qs) : fadeRetires t q = fadeRetires s q := (fade_of_sameButForTarget (hrecords q hq)).2.2
  have hqs (m : Nat) : Retired t qs m ↔ ∃ p ∈ qs, fadeRetires s p = true ∧ Claims s p m :=
    exists_congr fun q => and_congr_right fun hq => by rw [hretires q hq, h.claims_iff (hd q hq)]
  have happend (m : Nat) : Retired s (ps ++ qs) m ↔ Retired s ps m ∨ Retired t qs m := by
    rw [hqs]
    unfold Retired
    simp only [List.mem_append, or_and_right, exists_or]
  refine ⟨fun m hm => ?same, fun m hm hret => ?hit, fun m hm ho => ?claims, fun m q hq => ?first,
    fun m hw => h'.kept m (h.kept m hw), fun p hp hfade m hm hclaims => ?waits⟩
  case same =>
    rw [happend, not_or] at hm
    exact SameButForQueue.trans (h.same m hm.1) (h'.same m hm.2)
  case hit =>
    rw [happend] at hret
    by_cases hfirst : Retired s ps m
    · by_cases hsecond : Retired t qs m
      · exact Struck.trans (h.hit m hm hfirst) (h'.hit m hm hsecond)
      · exact Struck.then_same (h.hit m hm hfirst) (h'.same m hsecond)
    · exact Struck.of_same (h.same m hfirst) (h'.hit m hm (hret.resolve_left hfirst))
  case claims =>
    have hclaims := h.claims m hm ho
    rw [h'.claims m hm (ho.filterMap_fate hclaims), hclaims, List.filterMap_filterMap]
    refine List.filterMap_congr fun c _ => ?_
    rw [fate_fate]
    refine congrArg (fun gone => fate gone c) (funext fun q => ?_)
    by_cases hq : q ∈ qs
    · simp [hq, hd q hq, hretires q hq]
    · simp [hq]
  case first =>
    rw [List.mem_append, not_or] at hq
    rw [h'.first m q hq.2, h.first m q hq.1]
  case waits =>
    rcases List.mem_append.1 hp with hp | hp
    · exact h'.kept m (h.waits p hp hfade m hm hclaims)
    · have hfade' : (t.proj p).fade ≠ none := by rw [hrecords p hp]; exact hfade
      exact h'.waits p hp hfade' m hm ((h.claims_iff (hd p hp) m).2 hclaims)

/-- A step that leaves the claims and the flags, and takes no entry away without a solve that begins. -/
theorem of_same (hsame : ∀ m, SameButForQueue (s.node m) (t.node m)) (hkept : ∀ m, NodeWaits s m → NodeWaits t m) :
    NodesFaded s t [] := by
  have hclaims (m : Nat) : (t.node m).claims = (s.node m).claims := by rw [hsame m]
  have hnone (m : Nat) : ¬Retired s [] m := fun ⟨_, hp, _⟩ => by cases hp
  refine ⟨fun m _ => hsame m, fun m _ h => absurd h (hnone m), fun m _ _ => ?_, fun m q _ => by rw [hclaims], hkept,
    fun p hp => by cases hp⟩
  have hfate : (fate fun q => decide (q ∈ ([] : List Slot)) && fadeRetires s q) = some := funext fun c => by
    simp [fate]
  rw [hclaims, hfate, List.filterMap_some]

/-- A step on a projector that ends no retire-fade, and changes entries alone. -/
theorem of_kept {p : Slot} (hp : fadeRetires s p = false) (hsame : ∀ m, SameButForQueue (s.node m) (t.node m))
    (hkept : ∀ m, NodeWaits s m → NodeWaits t m)
    (hjoined : (s.proj p).fade ≠ none → ∀ m ∈ claimed s p, (t.node m).queued ≠ none) : NodesFaded s t [p] := by
  have hclaims (m : Nat) : (t.node m).claims = (s.node m).claims := by rw [hsame m]
  have hnone (m : Nat) : ¬Retired s [p] m := fun ⟨q, hq, hr, _⟩ => by
    rw [List.mem_singleton.1 hq, hp] at hr
    cases hr
  refine ⟨fun m _ => hsame m, fun m _ h => absurd h (hnone m), fun m _ _ => ?_, fun m q _ => by rw [hclaims], hkept,
    fun q hq hfade m hm hclaims => ?_⟩
  · have hfate : (fate fun q => decide (q ∈ [p]) && fadeRetires s q) = some := funext fun c => by
      by_cases hc : c.projector = p
      · simp [fate, hc, hp]
      · simp [fate, hc]
    rw [hclaims, hfate, List.filterMap_some]
  · rw [List.mem_singleton.1 hq] at hclaims hfade
    exact .inl (hjoined hfade m (mem_claimed.2 ⟨hm, hclaims⟩))

/-- A projector's nodes refreshed, and no retire-fade ended. -/
theorem of_refreshed {p : Slot} (h : NodesRefreshed s t p) (hp : fadeRetires s p = false) : NodesFaded s t [p] := by
  obtain ⟨hsame, -, hkept, hjoined⟩ := NodesRefreshed.queue h
  exact of_kept hp hsame hkept fun _ => hjoined

/-- A projector that does not fade. -/
theorem of_still {p : Slot} (hp : fadeRetires s p = false) (hfade : (s.proj p).fade = none) : NodesFaded s s [p] :=
  of_kept hp (fun _ => SameButForQueue.refl _) (fun _ h => h) fun h => absurd hfade h

theorem startSolve (s : State) : NodesFaded s (Machine.startSolve s) [] :=
  of_same (startSolve_sameButForQueue s) (startSolve_nodeWaits s)

/-- A retire-fade ended: the projector's claims freed or withdrawn, its nodes hard-invalidated (R83, R86). -/
theorem of_retired {p : Slot} {g : Fade} (hp : fadeRetires s p = true) :
    NodesFaded s (enterRetiring p (fadeEnded p g s)) [p] := by
  obtain ⟨hsame, -, hkept, -⟩ := NodesRefreshed.queue (refreshedAlone_nodesRefreshed p g s)
  have hclaims := (refreshedAlone_keepsClaims p g s).claims
  obtain ⟨-, ⟨hsolver, -, hmember, hother⟩, -⟩ := enteredRetiring_fadeEnded p g s
  have hflight := congrArg Solver.flight hsolver
  dsimp only at hflight
  have hclaimed : claimed (refreshedAlone p g s) p = claimed s p := by
    unfold claimed Claims
    simp only [hclaims]
  rw [hclaimed] at hmember hother
  have hretired (m : Nat) : Retired s [p] m ↔ Claims s p m :=
    ⟨fun ⟨q, hq, _, hc⟩ => List.mem_singleton.1 hq ▸ hc, fun hc => ⟨p, List.mem_singleton_self p, hp, hc⟩⟩
  have hended (m : Nat) := (fadeEnded_keepsClaims p g s).claims m
  refine ⟨fun m hm => ?same, fun m hm hret => ?struck, fun m hm ho => ?claims, fun m q hq => ?first, fun m hw => ?kept,
    fun q hq _ m hm hc => ?waits⟩
  case same =>
    rw [hretired] at hm
    rw [hother m fun hmem => hm (mem_claimed.1 hmem).2]
    exact hsame m
  case struck =>
    obtain ⟨e, i, hu⟩ := (sameButForQueue_iff _ _).1 (hsame m)
    have h := hmember m (mem_claimed.2 ⟨hm, (hretired m).1 hret⟩)
    generalize enterRetiring p (fadeEnded p g s) = t at h ⊢
    rw [hu] at h
    rw [h]
    rfl
  case claims =>
    have ho' : ((fadeEnded p g s).node m).Ordered := by
      unfold Node.Ordered
      rw [hended]
      exact ho
    rw [claims_enterRetiring p ho' hm, hended, filterMap_fate]
    have hgone (q : Slot) : (decide (q ∈ [p]) && fadeRetires s q) = (q == p) := by
      by_cases hq : q = p
      · simp [hq, hp]
      · simp [hq]
    simp only [hgone, beq_iff_eq]
  case first =>
    have hne : q ≠ p := by simpa using hq
    rw [node_enterRetiring, ← hended]
    split
    · rw [claims_retiredBy]
      exact claimBy_withdrawnBy_of_ne hne _
    · rfl
  case kept =>
    by_cases hm : m ∈ claimed s p
    · refine .inl ?_
      rw [hmember m hm]
      simp
    · rcases hkept m hw with hw | hw
      · exact .inl (by rw [hother m hm]; exact hw)
      · exact .inr (by rw [hflight]; exact hw)
  case waits =>
    rw [List.mem_singleton.1 hq] at hc
    refine .inl ?_
    rw [hmember m (mem_claimed.2 ⟨hm, hc⟩)]
    simp

end NodesFaded

end Sys2Proof.Machine
end

section
/-! PROOF. The fade steps of a boundary (O28). -/

namespace Sys2Proof.Machine

open Sys2Proof Sys2Proof.Stating

set_option Elab.async false

/-! ### The targets through steps that recompute nothing -/

/-- Nothing that a recomputation reads or writes changes. -/
def TargetsKept (s t : State) : Prop :=
  t.gain = s.gain ∧ ∀ q, (t.proj q).state.contributing = (s.proj q).state.contributing ∧
    (t.proj q).luminance = (s.proj q).luminance ∧ (t.proj q).gainTarget = (s.proj q).gainTarget ∧
    (t.proj q).limited = (s.proj q).limited

theorem retargeted_eq_iff (r : Projector) (floor : Nat) (reference : Option Nat) : r.retargeted floor reference = r ↔
    (gainTargetFor floor reference r.luminance).1 = r.gainTarget ∧ (gainTargetFor floor reference r.luminance).2 = r.limited := by
  refine ⟨fun h => ⟨congrArg Projector.gainTarget h, congrArg Projector.limited h⟩, fun ⟨htarget, hlimited⟩ => ?_⟩
  rw [Projector.retargeted, htarget, hlimited]

theorem TargetsKept.settled {s t : State} (h : TargetsKept s t) (hs : TargetsSettled s) : TargetsSettled t := by
  obtain ⟨hgain, hrecords⟩ := h
  rw [targetsSettled_iff] at hs ⊢
  intro q
  have href : t.reference = s.reference := reference_congr fun p => by
    obtain ⟨hcontributing, hluminance, -⟩ := hrecords p
    exact ⟨hcontributing, hluminance⟩
  obtain ⟨-, hluminance, htarget, hlimited⟩ := hrecords q
  have hq := (retargeted_eq_iff _ _ _).1 (hs q)
  rw [retargeted_eq_iff, hgain, href, hluminance, htarget, hlimited]
  exact hq

/-- One record changed, and nothing in it that a recomputation reads or writes. -/
theorem TargetsKept.of_record {s t : State} {p : Slot} {r : Projector} (hgain : t.gain = s.gain)
    (h : ∀ q, t.proj q = if q = p then r else s.proj q)
    (hr : r.state.contributing = (s.proj p).state.contributing ∧ r.luminance = (s.proj p).luminance ∧
      r.gainTarget = (s.proj p).gainTarget ∧ r.limited = (s.proj p).limited) : TargetsKept s t := by
  refine ⟨hgain, fun q => ?_⟩
  rw [h]
  split
  · next hq => rw [hq]; exact hr
  · exact ⟨rfl, rfl, rfl, rfl⟩

/-! ### The fade steps of some projectors -/

/-- The events of a fade that completes (R83, R87). -/
def fadeEvents (s : State) (p : Slot) : List Event :=
  .fadeDone p false :: if s.retireFade p = true then retirementEvents s p (s.proj p).failover else []

/-- The retire-fade that ends leaves no claim, so that the slot is emptied (R87). -/
def fadeEmpties (s : State) (p : Slot) : Bool :=
  fadeRetires s p && decide ((s.proj p).claimCount ≤ newClaims s p)

/-- What a fade step makes of its projector's record. -/
def RecordFaded (s t : State) (p : Slot) : Prop :=
  ((s.proj p).fade = none → SameButForTarget (s.proj p) (t.proj p)) ∧
  ∀ f, (s.proj p).fade = some f →
    (f.next.elapsed < f.next.length →
      SameButForTarget { s.proj p with fade := some f.next, phi := f.next.phi } (t.proj p)) ∧
    (f.next.elapsed = f.next.length →
      ((s.proj p).state = .fadingIn →
        SameButForTarget { s.proj p with state := .live, fade := none, phi := 256 } (t.proj p)) ∧
      ((s.proj p).state = .fadingOut → f.retireAfter = false →
        SameButForTarget { s.proj p with state := .parked, fade := none, phi := 0 } (t.proj p)) ∧
      ((s.proj p).state = .fadingOut → f.retireAfter = true → RetiredRecord s t p (s.proj p).failover))

/-- What the fade steps of these projectors make of the state. -/
structure Faded (s t : State) (ps : List Slot) : Prop where
  nodes : NodesFaded s t ps
  others : ∀ q, q ∉ ps → SameButForTarget (s.proj q) (t.proj q)
  record : ∀ p ∈ ps, RecordFaded s t p
  touches : Touches Field.inner s t
  rewrites : Rewrites s t
  vacates : Vacates s t (ps.filter (fadeEmpties s))
  raised : Raised s t ((ps.filter (fadeCompletes s)).flatMap (fadeEvents s))
  yields : Yields s t
  settled : (∃ p ∈ ps, fadeCompletes s p = true ∧ (s.proj p).state ≠ .fadingIn) → TargetsSettled t
  stands : (∀ p ∈ ps, fadeCompletes s p = true → (s.proj p).state = .fadingIn) → TargetsStand s t ∧ TargetsKept s t
  edit : (∀ p ∈ ps, fadeRetires s p = false) → t.edit = s.edit
  free : t.dome.freeCount = s.dome.freeCount + (ps.map fun p => if fadeRetires s p then newClaims s p else 0).sum

theorem TargetsStand.trans {s t u : State} (h : TargetsStand s t) (h' : TargetsStand t u) : TargetsStand s u := by
  obtain ⟨hrecord, htargets⟩ := h
  obtain ⟨hrecord', htargets'⟩ := h'
  refine ⟨hrecord'.trans hrecord, fun p => ?_⟩
  obtain ⟨htarget, hlimited⟩ := htargets p
  obtain ⟨htarget', hlimited'⟩ := htargets' p
  exact ⟨htarget'.trans htarget, hlimited'.trans hlimited⟩

theorem TargetsKept.trans {s t u : State} (h : TargetsKept s t) (h' : TargetsKept t u) : TargetsKept s u := by
  obtain ⟨hgain, hrecords⟩ := h
  obtain ⟨hgain', hrecords'⟩ := h'
  refine ⟨hgain'.trans hgain, fun p => ?_⟩
  obtain ⟨h1, h2, h3, h4⟩ := hrecords p
  obtain ⟨h1', h2', h3', h4'⟩ := hrecords' p
  exact ⟨h1'.trans h1, h2'.trans h2, h3'.trans h3, h4'.trans h4⟩

/-- The record of a projector whose turn is over stands but for its target, and its slot as well. -/
theorem RecordFaded.then_same {s t u : State} {p : Slot} (h : RecordFaded s t p)
    (hp : SameButForTarget (t.proj p) (u.proj p)) (hchan : u.chan p = t.chan p)
    (hstreams : u.raster.streams.get p = t.raster.streams.get p) (hlinks : u.raster.links.get p = t.raster.links.get p) :
    RecordFaded s u p := by
  obtain ⟨hnone, hsome⟩ := h
  refine ⟨fun hf => SameButForTarget.trans (hnone hf) hp, fun f hf => ?_⟩
  obtain ⟨hmore, hend⟩ := hsome f hf
  refine ⟨fun hlt => SameButForTarget.trans (hmore hlt) hp, fun heq => ?_⟩
  obtain ⟨hin, hout, hretire⟩ := hend heq
  refine ⟨fun hs => SameButForTarget.trans (hin hs) hp, fun hs hr => SameButForTarget.trans (hout hs hr) hp, fun hs hr => ?_⟩
  obtain ⟨hleft, hkept⟩ := hretire hs hr
  refine ⟨fun h0 => ?_, fun h0 => SameButForTarget.trans (hkept h0) hp⟩
  obtain ⟨hrecord, hchan', hstreams', hlinks'⟩ := hleft h0
  exact ⟨SameButForTarget.trans hrecord hp, hchan.trans hchan', hstreams.trans hstreams', hlinks.trans hlinks'⟩

/-- The record of a projector whose turn is still to come stood but for its target, and its claims and slot as well. -/
theorem RecordFaded.of_same {s t u : State} {p : Slot} (h : RecordFaded t u p)
    (hp : SameButForTarget (s.proj p) (t.proj p)) (hchan : t.chan p = s.chan p) (hnew : newClaims t p = newClaims s p) :
    RecordFaded s u p := by
  obtain ⟨target, limited, hrecord⟩ := (sameButForTarget_iff _ _).1 hp
  unfold RecordFaded RetiredRecord SlotEmptied at *
  dsimp only at *
  rw [hrecord, hnew, hchan] at h
  exact h

namespace Faded

variable {s t u : State} {ps qs : List Slot}

theorem events_eq (h : Faded s t ps) {q : Slot} (hq : q ∉ ps) : fadeEvents t q = fadeEvents s q := by
  have hrecord := h.others q hq
  obtain ⟨-, hretire, -⟩ := fade_of_sameButForTarget hrecord
  unfold fadeEvents retirementEvents
  rw [hretire, h.nodes.newClaims hq, hrecord]

theorem empties_eq (h : Faded s t ps) {q : Slot} (hq : q ∉ ps) : fadeEmpties t q = fadeEmpties s q := by
  have hrecord := h.others q hq
  obtain ⟨-, -, hretires⟩ := fade_of_sameButForTarget hrecord
  unfold fadeEmpties
  rw [hretires, h.nodes.newClaims hq, hrecord]

theorem state_eq (h : Faded s t ps) {q : Slot} (hq : q ∉ ps) : (t.proj q).state = (s.proj q).state := by
  rw [h.others q hq]

/-- One list of projectors after another. -/
theorem trans (h : Faded s t ps) (h' : Faded t u qs) (hd : ∀ q ∈ qs, q ∉ ps) : Faded s u (ps ++ qs) := by
  have hfade (q : Slot) (hq : q ∈ qs) := fade_of_sameButForTarget (h.others q (hd q hq))
  have hcompletes (q : Slot) (hq : q ∈ qs) : fadeCompletes t q = fadeCompletes s q := (hfade q hq).1
  have hretires (q : Slot) (hq : q ∈ qs) : fadeRetires t q = fadeRetires s q := (hfade q hq).2.2
  have hempties (q : Slot) (hq : q ∈ qs) := h.empties_eq (hd q hq)
  have hstate (q : Slot) (hq : q ∈ qs) := h.state_eq (hd q hq)
  refine ⟨h.nodes.trans h'.nodes hd fun q hq => h.others q (hd q hq), fun q hq => ?others, fun p hp => ?record,
    h.touches.trans h'.touches, h.rewrites.trans h'.rewrites, ?vacates, ?raised, h.yields.trans h'.yields,
    fun hex => ?settled, fun hall => ?stands, fun hall => ?edit, ?free⟩
  case others =>
    rw [List.mem_append, not_or] at hq
    exact SameButForTarget.trans (h.others q hq.1) (h'.others q hq.2)
  case record =>
    rcases List.mem_append.1 hp with hp | hp
    · have hq : p ∉ qs := fun hq => hd p hq hp
      have hgone : p ∉ qs.filter (fadeEmpties t) := fun hmem => hq (List.mem_filter.1 hmem).1
      refine (h.record p hp).then_same (h'.others p hq) ?_ ?_ ?_
      · rw [h'.vacates.chan, if_neg hgone]
      · rw [h'.vacates.streams, if_neg hgone]
      · rw [h'.vacates.links, if_neg hgone]
    · have hgone : p ∉ ps.filter (fadeEmpties s) := fun hmem => hd p hp (List.mem_filter.1 hmem).1
      refine (h'.record p hp).of_same (h.others p (hd p hp)) ?_ (h.nodes.newClaims (hd p hp))
      rw [h.vacates.chan, if_neg hgone]
  case vacates =>
    have hv := h.vacates.trans h'.vacates
    rwa [List.filter_congr hempties, ← List.filter_append] at hv
  case raised =>
    have hr := Raised.trans h.raised h'.raised
    have hevents : (qs.filter (fadeCompletes t)).flatMap (fadeEvents t) = (qs.filter (fadeCompletes s)).flatMap (fadeEvents s) := by
      rw [List.filter_congr hcompletes]
      exact List.flatMap_congr fun q hq => h.events_eq (hd q (List.mem_filter.1 hq).1)
    rwa [hevents, ← List.flatMap_append, ← List.filter_append] at hr
  case settled =>
    by_cases hlater : ∃ p ∈ qs, fadeCompletes t p = true ∧ (t.proj p).state ≠ .fadingIn
    · exact h'.settled hlater
    · obtain ⟨p, hp, hc, hs⟩ := hex
      have hearlier : p ∈ ps := by
        refine (List.mem_append.1 hp).resolve_right fun hq => hlater ⟨p, hq, ?_, ?_⟩
        · rw [hcompletes p hq]; exact hc
        · rw [hstate p hq]; exact hs
      have hkept := (h'.stands fun q hq hqc => Classical.not_not.1 fun hqs => hlater ⟨q, hq, hqc, hqs⟩).2
      exact hkept.settled (h.settled ⟨p, hearlier, hc, hs⟩)
  case stands =>
    obtain ⟨hstand, hkept⟩ := h.stands fun p hp => hall p (List.mem_append_left _ hp)
    obtain ⟨hstand', hkept'⟩ := h'.stands fun p hp hc => by
      rw [hstate p hp]
      exact hall p (List.mem_append_right _ hp) (by rw [← hcompletes p hp]; exact hc)
    exact ⟨TargetsStand.trans hstand hstand', hkept.trans hkept'⟩
  case edit =>
    have hedit := h.edit fun p hp => hall p (List.mem_append_left _ hp)
    exact (h'.edit fun p hp => (hretires p hp).trans (hall p (List.mem_append_right _ hp))).trans hedit
  case free =>
    have hsum : (qs.map fun p => if fadeRetires t p then newClaims t p else 0) =
        qs.map fun p => if fadeRetires s p then newClaims s p else 0 :=
      List.map_congr_left fun q hq => by rw [hretires q hq, h.nodes.newClaims (hd q hq)]
    rw [h'.free, h.free, hsum, List.map_append, List.sum_append, Nat.add_assoc]

end Faded

/-! ### One projector's step -/

section
variable {s t : State} {p : Slot}

theorem filter_singleton_of {α : Type} {f : α → Bool} {a : α} (h : f a = true) : [a].filter f = [a] := by simp [h]

theorem filter_singleton_of_not {α : Type} {f : α → Bool} {a : α} (h : f a = false) : [a].filter f = [] := by simp [h]

/-- A step that ends no retire-fade: the projector's record and the entries of its nodes. -/
theorem faded_of_kept (hp : fadeRetires s p = false) (hnodes : NodesFaded s t [p])
    (htouches : Touches [.dome, .solver, .projectors, .attention] s t) (hkeeps : KeepsClaims s t)
    (hothers : ∀ q, q ≠ p → SameButForTarget (s.proj q) (t.proj q)) (hfailover : (t.proj p).failover = (s.proj p).failover)
    (hrecord : RecordFaded s t p) (hraised : Raised s t (if fadeCompletes s p then [.fadeDone p false] else []))
    (hsettled : fadeCompletes s p = true → (s.proj p).state ≠ .fadingIn → TargetsSettled t)
    (hstands : (fadeCompletes s p = true → (s.proj p).state = .fadingIn) → TargetsStand s t ∧ TargetsKept s t) :
    Faded s t [p] := by
  have hempties : fadeEmpties s p = false := by rw [fadeEmpties, hp]; rfl
  refine ⟨hnodes, fun q hq => hothers q (by simpa using hq), fun q hq => ?_, htouches.mono, hkeeps.rewrites, ?_, ?_, ?_,
    fun ⟨q, hq, hc, hs⟩ => ?_, fun hall => hstands (hall p (List.mem_singleton_self p)), fun _ => htouches.edit, ?_⟩
  · rw [List.mem_singleton.1 hq]
    exact hrecord
  · rw [filter_singleton_of_not hempties]
    exact Vacates.of_same htouches.channels htouches.raster
  · by_cases hc : fadeCompletes s p = true
    · have hretire : s.retireFade p = false := by simpa [fadeRetires, hc] using hp
      rw [if_pos hc] at hraised
      rw [filter_singleton_of hc, List.flatMap_cons, List.flatMap_nil, List.append_nil, fadeEvents, hretire]
      exact hraised
    · rw [if_neg hc] at hraised
      rw [filter_singleton_of_not (Bool.eq_false_iff.2 hc)]
      exact hraised
  · refine Yields.of_same htouches.loader fun q => ?_
    by_cases hq : q = p
    · rw [hq, hfailover]
    · rw [hothers q hq]
  · rw [List.mem_singleton.1 hq] at hc hs
    exact hsettled hc hs
  · rw [hkeeps.free, List.map_singleton, List.sum_singleton, hp]
    rfl

theorem fadeCompletes_eq {f : Fade} (h : (s.proj p).fade = some f) :
    fadeCompletes s p = decide (f.elapsed + 1 = f.length) := by
  rw [fadeCompletes, h]
  rfl

theorem retireFade_eq {f : Fade} (h : (s.proj p).fade = some f) : s.retireFade p = f.retireAfter := by
  rw [State.retireFade, h]

/-- A projector without a fade takes no step (R82). -/
theorem faded_still (h : (s.proj p).fade = none) : Faded s s [p] := by
  have hcompletes : fadeCompletes s p = false := by rw [fadeCompletes, h]; rfl
  have hretires : fadeRetires s p = false := by rw [fadeRetires, hcompletes]; rfl
  refine faded_of_kept hretires (NodesFaded.of_still hretires h) (Touches.refl _ s) (KeepsClaims.refl s)
    (fun q _ => SameButForTarget.refl _) rfl ⟨fun _ => SameButForTarget.refl _, fun f hf => ?_⟩ ?_ (fun hc => ?_)
    fun _ => ⟨⟨rfl, fun _ => ⟨rfl, rfl⟩⟩, rfl, fun _ => ⟨rfl, rfl, rfl, rfl⟩⟩
  · rw [h] at hf
    cases hf
  · rw [hcompletes]
    exact Raised.refl s
  · rw [hcompletes] at hc
    cases hc

/-- A fade that goes on (R82). -/
theorem faded_moved {f : Fade} (h : (s.proj p).fade = some f) (hmore : f.elapsed + 1 ≠ f.length) :
    Faded s (fadeMoved p f.next s) [p] := by
  have hcompletes : fadeCompletes s p = false := by rw [fadeCompletes_eq h, decide_eq_false hmore]
  have hretires : fadeRetires s p = false := by rw [fadeRetires, hcompletes]; rfl
  have hrecord := record_fadeMoved p f.next s
  refine faded_of_kept hretires (NodesFaded.of_refreshed (fadeMoved_nodesRefreshed p _ s) hretires)
    (fadeMoved_touches p _ s).mono (fadeMoved_keepsClaims p _ s) (fun q hq => ?_) ?_ ⟨fun hf => ?_, fun k hk => ?_⟩ ?_
    (fun hc => ?_) fun _ => ⟨fadeMoved_targetsStand p _ s, ?_⟩
  · rw [hrecord, if_neg hq]
    exact SameButForTarget.refl _
  · rw [hrecord, if_pos rfl]
  · rw [h] at hf
    cases hf
  · rw [h] at hk
    obtain rfl := Option.some.inj hk
    refine ⟨fun _ => ?_, fun heq => absurd heq hmore⟩
    rw [hrecord, if_pos rfl]
    exact SameButForTarget.refl _
  · rw [hcompletes]
    exact Raised.of_attention (fadeMoved_touches p _ s).attention
  · rw [hcompletes] at hc
    cases hc
  · exact TargetsKept.of_record (fadeMoved_touches p _ s).gain hrecord ⟨rfl, rfl, rfl, rfl⟩

/-- A fade in that completes (R83). -/
theorem faded_live {f : Fade} (h : (s.proj p).fade = some f) (hend : f.elapsed + 1 = f.length)
    (hstate : (s.proj p).state = .fadingIn) (hretire : f.retireAfter = false) (hphi : f.next.phi = 256) :
    Faded s (fadeEndedLive p f.next s) [p] := by
  have hcompletes : fadeCompletes s p = true := by rw [fadeCompletes_eq h, decide_eq_true hend]
  have hretires : fadeRetires s p = false := by rw [fadeRetires, retireFade_eq h, hretire, Bool.and_false]
  have hrecord := record_fadeEndedLive p f.next s
  refine faded_of_kept hretires (NodesFaded.of_refreshed (fadeEndedLive_nodesRefreshed p _ s) hretires)
    (fadeEndedLive_touches p _ s) (fadeEndedLive_keepsClaims p _ s) (fun q hq => ?_) ?_ ⟨fun hf => ?_, fun k hk => ?_⟩ ?_
    (fun _ hs => absurd hstate hs) fun _ => ⟨fadeEndedLive_targetsStand p _ s, ?_⟩
  · rw [hrecord, if_neg hq]
    exact SameButForTarget.refl _
  · rw [hrecord, if_pos rfl]
  · rw [h] at hf
    cases hf
  · rw [h] at hk
    obtain rfl := Option.some.inj hk
    refine ⟨fun hlt => absurd hend (Nat.ne_of_lt hlt), fun _ => ⟨fun _ => ?_, fun hs => ?_, fun hs => ?_⟩⟩
    · rw [hrecord, if_pos rfl, hphi]
      exact SameButForTarget.refl _
    · rw [hstate] at hs
      cases hs
    · rw [hstate] at hs
      cases hs
  · rw [hcompletes]
    exact (fadeEndedLive_raises p _ s).toRaised
  · refine TargetsKept.of_record (fadeEndedLive_touches p _ s).gain hrecord ⟨?_, rfl, rfl, rfl⟩
    rw [hstate]
    rfl

/-- A fade out that completes and does not retire (R83). -/
theorem faded_parked {f : Fade} (h : (s.proj p).fade = some f) (hend : f.elapsed + 1 = f.length)
    (hstate : (s.proj p).state = .fadingOut) (hretire : f.retireAfter = false) (hphi : f.next.phi = 0) :
    Faded s (fadeEndedParked p f.next s) [p] := by
  have hcompletes : fadeCompletes s p = true := by rw [fadeCompletes_eq h, decide_eq_true hend]
  have hretires : fadeRetires s p = false := by rw [fadeRetires, retireFade_eq h, hretire, Bool.and_false]
  have hrecord := record_fadeEndedParked p f.next s
  have htouches := fadeEndedParked_touches p f.next s
  have hkeeps := fadeEndedParked_keepsClaims p f.next s
  have hnodes := NodesFaded.of_refreshed (fadeEndedParked_nodesRefreshed p f.next s) hretires
  have hraised := fadeEndedParked_raised p f.next s
  obtain ⟨hsettled, -⟩ := fadeEndedParked_recomputedOnce p f.next s
  generalize fadeEndedParked p f.next s = t at hrecord htouches hkeeps hnodes hraised hsettled ⊢
  have hp := hrecord p
  rw [if_pos rfl] at hp
  refine faded_of_kept hretires hnodes htouches hkeeps (fun q hq => ?_) ?_ ⟨fun hf => ?_, fun k hk => ?_⟩ ?_
    (fun _ _ => hsettled) fun hall => ?_
  · have hq' := hrecord q
    rwa [if_neg hq] at hq'
  · rw [hp]
  · rw [h] at hf
    cases hf
  · rw [h] at hk
    obtain rfl := Option.some.inj hk
    refine ⟨fun hlt => absurd hend (Nat.ne_of_lt hlt), fun _ => ⟨fun hs => ?_, fun _ _ => ?_, fun _ hr => ?_⟩⟩
    · rw [hstate] at hs
      cases hs
    · rwa [hphi] at hp
    · rw [hretire] at hr
      cases hr
  · rw [hcompletes]
    exact hraised
  · have hs := hall hcompletes
    rw [hstate] at hs
    cases hs

/-- A retire-fade that completes (R83, R86). -/
theorem faded_retired {f : Fade} (h : (s.proj p).fade = some f) (hend : f.elapsed + 1 = f.length)
    (hstate : (s.proj p).state = .fadingOut) (hretire : f.retireAfter = true) :
    Faded s (enterRetiring p (fadeEnded p f.next s)) [p] := by
  have hcompletes : fadeCompletes s p = true := by rw [fadeCompletes_eq h, decide_eq_true hend]
  have hretires : fadeRetires s p = true := by rw [fadeRetires, hcompletes, retireFade_eq h, hretire]; rfl
  have hempties : fadeEmpties s p = decide ((s.proj p).claimCount ≤ newClaims s p) := by
    rw [fadeEmpties, hretires, Bool.true_and]
  have hleaving : [p].filter (fadeEmpties s) = leaving s p := by
    unfold leaving
    by_cases hle : (s.proj p).claimCount ≤ newClaims s p
    · rw [filter_singleton_of (hempties.trans (decide_eq_true hle)), if_pos (by omega)]
    · rw [filter_singleton_of_not (hempties.trans (decide_eq_false hle)), if_neg (by omega)]
  have hevents : fadeEvents s p = .fadeDone p false :: retirementEvents s p (s.proj p).failover := by
    rw [fadeEvents, retireFade_eq h, if_pos hretire]
  have hcontributing : ((fadeEnded p f.next s).proj p).state.contributing = true := by
    rw [record_fadeEnded, if_pos rfl, hstate]
    rfl
  have hrefreshed := refreshedAlone_keepsClaims p f.next s
  have hnew : newClaims (refreshedAlone p f.next s) p = newClaims s p := newClaims_of_claims hrefreshed.claims p
  obtain ⟨hrecord, -, hfree, -⟩ := enteredRetiring_fadeEnded p f.next s
  refine ⟨NodesFaded.of_retired hretires, fun q hq => proj_retired_fadeEnded_of_ne p _ s (by simpa using hq), fun q hq => ?record,
    retired_fadeEnded_touches p _ s, retired_fadeEnded_rewrites p _ s, ?vacates, ?raised, retired_fadeEnded_yields p _ s,
    fun _ => settled_enterRetiring (.inl hcontributing), fun hall => ?stands, fun hall => ?edit, ?free⟩
  case record =>
    rw [List.mem_singleton.1 hq]
    refine ⟨fun hf => ?_, fun k hk => ?_⟩
    · rw [h] at hf
      cases hf
    rw [h] at hk
    obtain rfl := Option.some.inj hk
    refine ⟨fun hlt => absurd hend (Nat.ne_of_lt hlt), fun _ => ⟨fun hs => ?_, fun _ hr => ?_, fun _ _ => ?_⟩⟩
    · rw [hstate] at hs
      cases hs
    · rw [hretire] at hr
      cases hr
    · unfold RetiredRecord SlotEmptied at hrecord ⊢
      rw [hnew, chan_congr (refreshedAlone_touches p f.next s).channels, proj_refreshedAlone] at hrecord
      exact hrecord
  case vacates =>
    rw [hleaving]
    exact retired_fadeEnded_vacates p _ s
  case raised =>
    rw [filter_singleton_of hcompletes, List.flatMap_cons, List.flatMap_nil, List.append_nil, hevents]
    exact retired_fadeEnded_raised p _ s
  case stands =>
    have hs := hall p (List.mem_singleton_self p) hcompletes
    rw [hstate] at hs
    cases hs
  case edit =>
    have hnot := hall p (List.mem_singleton_self p)
    rw [hretires] at hnot
    cases hnot
  case free =>
    rw [hfree, hnew, hrefreshed.free, List.map_singleton, List.sum_singleton, if_pos hretires]

/-- One projector's step, whatever its fade does (R82, R83). -/
theorem faded_fadeStepOf (h : (s.proj p).FadeAgrees) : Faded s (fadeStepOf p s) [p] := by
  cases hf : (s.proj p).fade with
  | none =>
    rw [fadeStepOf_of_none hf]
    exact faded_still hf
  | some f =>
    by_cases hend : f.elapsed + 1 = f.length
    · have hlast : f.next = { f with elapsed := f.length } := by rw [Fade.next, hend]
      have hphi : f.next.phi = f.target := by
        rw [hlast]
        exact Fade.phi_length (by omega)
      unfold Projector.FadeAgrees at h
      rw [fadeStepOf_of_complete hf hend]
      cases hs : (s.proj p).state
      case fadingIn =>
        rw [hs, hf] at h
        obtain ⟨k, hk, -, -, htarget, -, hretire⟩ := h
        obtain rfl := Option.some.inj hk
        rw [if_pos rfl]
        exact faded_live hf hend hs hretire (hphi.trans htarget)
      case fadingOut =>
        rw [hs, hf] at h
        obtain ⟨k, hk, -, -, htarget, -⟩ := h
        obtain rfl := Option.some.inj hk
        rw [if_neg (by simp)]
        by_cases hretire : f.retireAfter = true
        · rw [if_pos hretire]
          exact faded_retired hf hend hs hretire
        · rw [if_neg hretire]
          exact faded_parked hf hend hs (Bool.eq_false_iff.2 hretire) (hphi.trans htarget)
      all_goals
        rw [hs, hf] at h
        obtain ⟨-, hnone⟩ := h
        cases hnone
    · rw [fadeStepOf_of_moving hf hend]
      exact faded_moved hf hend

end

/-! ### The fade steps of a boundary -/

/-- A solve that begins changes entries and the flight alone. -/
theorem faded_startSolve (s : State) : Faded s (startSolve s) [] := by
  have htouches := startSolve_touches s
  have hfree : (startSolve s).dome.freeCount = s.dome.freeCount := free_startSolve s
  refine ⟨NodesFaded.startSolve s, fun q _ => ?_, fun p hp => absurd hp List.not_mem_nil, htouches.mono, startSolve_rewrites s,
    Vacates.of_same htouches.channels htouches.raster, Raised.of_attention htouches.attention,
    Yields.of_same htouches.loader fun q => by rw [proj_congr htouches.projectors], fun ⟨p, hp, _⟩ => absurd hp List.not_mem_nil,
    fun _ => ⟨⟨?_, fun q => ?_⟩, htouches.gain, fun q => ?_⟩, fun _ => htouches.edit, hfree⟩
  · rw [proj_congr htouches.projectors]
    exact SameButForTarget.refl _
  · rw [State.eventRecord, htouches.attention]
    rfl
  · rw [proj_congr htouches.projectors]
    exact ⟨rfl, rfl⟩
  · rw [proj_congr htouches.projectors]
    exact ⟨rfl, rfl, rfl, rfl⟩

theorem fadeAgrees_of_same {r q : Projector} (h : SameButForTarget r q) (hr : r.FadeAgrees) : q.FadeAgrees := by
  rw [h]
  exact hr

/-- The steps of these projectors, one after another (R82; log 27). -/
theorem faded_steps {ps : List Slot} (hps : ps.Nodup) {s : State} (h : ∀ p ∈ ps, (s.proj p).FadeAgrees) :
    Faded s (ps.foldl fadeStepSlot s) ps := by
  induction ps generalizing s with
  | nil =>
    exact ⟨NodesFaded.of_same (fun _ => SameButForQueue.refl _) fun _ hw => hw, fun _ _ => SameButForTarget.refl _,
      fun p hp => absurd hp List.not_mem_nil, Touches.refl _ s, Rewrites.refl s, Vacates.refl s, Raised.refl s, Yields.refl s,
      fun ⟨p, hp, _⟩ => absurd hp List.not_mem_nil, fun _ => ⟨⟨rfl, fun _ => ⟨rfl, rfl⟩⟩, rfl, fun _ => ⟨rfl, rfl, rfl, rfl⟩⟩,
      fun _ => rfl, rfl⟩
  | cons p ps ih =>
    obtain ⟨hp, hps⟩ := List.nodup_cons.1 hps
    have hstep : Faded s (fadeStepSlot s p) [p] := by
      have hsolved := (faded_fadeStepOf (h p List.mem_cons_self)).trans (faded_startSolve (fadeStepOf p s)) (by simp)
      rwa [List.append_nil] at hsolved
    have hrest := ih hps (s := fadeStepSlot s p) fun q hq =>
      fadeAgrees_of_same (hstep.others q (by simpa using ne_of_mem_of_not_mem hq hp)) (h q (List.mem_cons_of_mem p hq))
    exact hstep.trans hrest fun q hq => by simpa using ne_of_mem_of_not_mem hq hp

/-- The state from which the fade steps of an owed boundary are taken. -/
def fadeTaken (s : State) : State := { s with owed := { s.owed with fade := s.owed.fade - 1 } }

theorem exec_fadeStep {s : State} (h : 0 < s.owed.fade) :
    exec .fadeStep s = .next ((List.finRange 16).foldl fadeStepSlot (fadeTaken s)) := by
  refine congrArg Host.Outcome.next ((if_neg (by omega)).trans ?_)
  rw [slots_eq_finRange]
  rfl

/-- What one projector's step makes of the state before a solve begins, case by case (R82, R83). -/
theorem fadeStepOf_cases {s : State} {p : Slot} {f : Fade} (hf : (s.proj p).fade = some f) :
    (∀ q, q ≠ p → SameButForTarget (s.proj q) ((fadeStepOf p s).proj q)) ∧
    (f.next.elapsed ≠ f.next.length → TableStep s (fadeStepOf p s) ∧ NodesRefreshed s (fadeStepOf p s) p ∧
      (fadeStepOf p s).attention = s.attention ∧ TargetsStand s (fadeStepOf p s) ∧
      (fadeStepOf p s).proj p = { s.proj p with fade := some f.next, phi := f.next.phi }) ∧
    (f.next.elapsed = f.next.length → (s.proj p).state = .fadingIn →
      TableStep s (fadeStepOf p s) ∧ NodesRefreshed s (fadeStepOf p s) p ∧ Raised s (fadeStepOf p s) [.fadeDone p false] ∧
      TargetsStand s (fadeStepOf p s) ∧
      (fadeStepOf p s).proj p = { s.proj p with state := .live, fade := none, phi := f.next.phi }) ∧
    (f.next.elapsed = f.next.length → (s.proj p).state = .fadingOut → f.retireAfter = false →
      TableStep s (fadeStepOf p s) ∧ NodesRefreshed s (fadeStepOf p s) p ∧ Raised s (fadeStepOf p s) [.fadeDone p false] ∧
      RecomputedOnce s (fadeStepOf p s) ∧
      SameButForTarget { s.proj p with state := .parked, fade := none, phi := f.next.phi } ((fadeStepOf p s).proj p)) ∧
    (f.next.elapsed = f.next.length → (s.proj p).state = .fadingOut → f.retireAfter = true →
      ∃ u, OnlyNodesAndSolver s u ∧ NodesRefreshed s u p ∧ EnteredRetiring u (fadeStepOf p s) p (s.proj p).failover ∧
        Raised s (fadeStepOf p s) (.fadeDone p false :: retirementEvents s p (s.proj p).failover) ∧
        ClaimStep (fun q => q = p ∧ (s.proj p).claimCount ≤ newClaims s p) s (fadeStepOf p s) ∧
        YieldFollows s (fadeStepOf p s)) := by
  have hout {P : Prop} (hs : (s.proj p).state = .fadingOut) (hs' : (s.proj p).state = .fadingIn) : P := by
    rw [hs] at hs'
    cases hs'
  refine ⟨fun q hq => ?others, fun hmore => ?moved, fun hend hs => ?live, fun hend hs hr => ?parked, fun hend hs hr => ?retired⟩
  case others =>
    by_cases hend : f.elapsed + 1 = f.length
    · rw [fadeStepOf_of_complete hf hend]
      split
      · rw [record_fadeEndedLive, if_neg hq]
        exact SameButForTarget.refl _
      split
      · exact proj_retired_fadeEnded_of_ne p _ s hq
      · have h := record_fadeEndedParked p f.next s q
        rwa [if_neg hq] at h
    · rw [fadeStepOf_of_moving hf hend, record_fadeMoved, if_neg hq]
      exact SameButForTarget.refl _
  case moved =>
    rw [fadeStepOf_of_moving hf hmore]
    exact ⟨(fadeMoved_keepsClaims p _ s).tableStep (fadeMoved_touches p _ s).mono, fadeMoved_nodesRefreshed p _ s,
      (fadeMoved_touches p _ s).attention, fadeMoved_targetsStand p _ s, by rw [record_fadeMoved, if_pos rfl]⟩
  case live =>
    rw [fadeStepOf_of_complete hf hend, if_pos hs]
    exact ⟨(fadeEndedLive_keepsClaims p _ s).tableStep (fadeEndedLive_touches p _ s).mono, fadeEndedLive_nodesRefreshed p _ s,
      (fadeEndedLive_raises p _ s).toRaised, fadeEndedLive_targetsStand p _ s, by rw [record_fadeEndedLive, if_pos rfl]⟩
  case parked =>
    have hp := record_fadeEndedParked p f.next s p
    rw [if_pos rfl] at hp
    rw [fadeStepOf_of_complete hf hend, if_neg (hout hs), hr, if_neg Bool.false_ne_true]
    exact ⟨(fadeEndedParked_keepsClaims p _ s).tableStep (fadeEndedParked_touches p _ s).mono,
      fadeEndedParked_nodesRefreshed p _ s, fadeEndedParked_raised p _ s, fadeEndedParked_recomputedOnce p _ s, hp⟩
  case retired =>
    rw [fadeStepOf_of_complete hf hend, if_neg (hout hs), if_pos hr]
    refine ⟨refreshedAlone p f.next s, onlyNodesAndSolver_refreshedAlone p _ s, refreshedAlone_nodesRefreshed p _ s,
      enteredRetiring_fadeEnded p _ s, retired_fadeEnded_raised p _ s,
      claimStep_of (retired_fadeEnded_touches p _ s) (retired_fadeEnded_rewrites p _ s) (retired_fadeEnded_vacates p _ s)
        fun q hq => ?_, (retired_fadeEnded_yields p _ s).follows⟩
    unfold leaving at hq
    split at hq
    · next h0 => exact ⟨List.mem_singleton.1 hq, by omega⟩
    · cases hq

/-- Settles O28: the steps of all sixteen projectors by `Faded`, and one step by its cases. -/
theorem fadeStepAdvancesFades : Obligations.FadeStepAdvancesFades := by
  refine ⟨fun s howed hagree => ?boundary, fun s howed => ⟨List.finRange 16, List.Perm.refl _, exec_fadeStep howed⟩,
    fun s p => ⟨fun hnone => ?still, fun f hf => ?step⟩⟩
  case still => rw [fadeStepSlot, fadeStepOf_of_none hnone]
  case step => exact ⟨fadeStepOf p s, rfl, fadeStepOf_cases hf⟩
  case boundary =>
    intro completes retires done
    have hsteps : Faded (fadeTaken s) ((List.finRange 16).foldl fadeStepSlot (fadeTaken s)) (List.finRange 16) :=
      faded_steps (List.nodup_finRange 16) fun p _ => (hagree p).1
    refine ⟨(List.finRange 16).foldl fadeStepSlot (fadeTaken s), (List.finRange 16).filter completes, exec_fadeStep howed, ?_⟩
    generalize (List.finRange 16).foldl fadeStepSlot (fadeTaken s) = t at hsteps ⊢
    obtain ⟨⟨hsame, hstruck, hclaims, -, -, hwaits⟩, -, hrecord, htouches, hrewrites, hvacates, hraised, hyields, hsettled,
      hstands, hedit, hfree⟩ := hsteps
    refine ⟨claimStep_of htouches hrewrites hvacates fun p hp => ?frame, List.Perm.refl _, hraised, hyields.follows,
      fun ⟨p, hc, hs⟩ => ?settled, fun hall => ?stands, fun hall => ?edit, hfree, fun m hm => ?same,
      fun m hm p hr hc => ?struck, fun ho m hm => ?claims, fun p => ⟨fun hf => ?still, fun f hf => ⟨?waits, ?record⟩⟩⟩
    case frame =>
      obtain ⟨-, hempties⟩ := List.mem_filter.1 hp
      obtain ⟨hretires, hle⟩ := Bool.and_eq_true_iff.1 hempties
      exact ⟨hretires, of_decide_eq_true hle⟩
    case settled =>
      have hnot : (s.proj p).state ≠ .fadingIn := by rw [hs]; simp
      exact hsettled ⟨p, List.mem_finRange p, hc, hnot⟩
    case stands =>
      obtain ⟨hstand, -⟩ := hstands fun p _ hc => hall p hc
      exact hstand
    case edit => exact hedit fun p _ => hall p
    case same => exact hsame m fun ⟨p, _, hr, hc⟩ => hm p hr hc
    case struck => exact hstruck m hm ⟨p, List.mem_finRange p, hr, hc⟩
    case claims =>
      have h := hclaims m hm (ho m)
      rw [filterMap_fate] at h
      have hall (q : Slot) : (decide (q ∈ List.finRange 16) && fadeRetires (fadeTaken s) q) = retires q := by
        rw [decide_eq_true (List.mem_finRange q), Bool.true_and]
        rfl
      simp only [hall] at h
      exact h
    case still => exact (hrecord p (List.mem_finRange p)).1 hf
    case waits =>
      have hfade : (s.proj p).fade ≠ none := by rw [hf]; simp
      exact hwaits p (List.mem_finRange p) hfade
    case record => exact (hrecord p (List.mem_finRange p)).2 f hf

end Sys2Proof.Machine
end

section
/-! PROOF. The swap's reports to the Projector Table: the failovers lowered, the claims freed and the slots emptied, in the
order of the nodes (R70, R71, R76, R87). -/

namespace Sys2Proof.Machine

open Sys2Proof Sys2Proof.Stating

set_option Elab.async false

/-! ### Counts that are lowered for some slots only -/

theorem zeroed_filter (keeps : Slot → Bool) (f : Slot → Nat) (ps : List Slot) :
    zeroed (fun q => if keeps q then f q else 0) ps = (zeroed f ps).filter keeps := by
  induction ps generalizing f with
  | nil => rfl
  | cons p ps ih =>
    have hlowered : lowered (fun q => if keeps q then f q else 0) p = fun q => if keeps q then lowered f p q else 0 := by
      funext q
      unfold lowered
      by_cases hq : q = p
      · subst hq
        by_cases hk : keeps q = true <;> simp [hk]
      · rw [if_neg hq, if_neg hq]
    rw [zeroed, zeroed, hlowered, ih, List.filter_append]
    refine congrArg (· ++ _) ?_
    by_cases hk : keeps p = true <;> by_cases h1 : f p = 1 <;> simp [hk, h1]

/-- A slot's claims to go before it is left: none for a slot that is not RETIRING; a swap frees the last, or the first when
the count stands at 0 already (R87). -/
def State.dues (s : State) (q : Slot) : Nat := if (s.proj q).state = .retiring then max 1 (s.proj q).claimCount else 0

/-- A projector's record after a number of its node swaps and of its claims freed by them (R71). -/
def Projector.swept (held freed : Nat) (r : Projector) : Projector :=
  { r with failover := r.failover - held, claimCount := r.claimCount - freed }

/-- The record after a sweep that leaves the slot or keeps it. -/
def Projector.sweptTo (gone : Bool) (held freed : Nat) (r : Projector) : Projector :=
  if gone then (r.swept held freed).emptied else r.swept held freed

/-- What the swaps of some nodes report: the slots of the claims held, those of the claims freed, the slots whose failovers
end, and the nodes that turn dark. -/
structure Swept (s t : State) (held freed failed : List Slot) (dark : List Nat) : Prop where
  record : ∀ q, SameButForTarget
    ((s.proj q).sweptTo (decide (q ∈ zeroed s.dues freed)) (held.count q) (freed.count q)) (t.proj q)
  vacates : Vacates s t (zeroed s.dues freed)
  raised : Raised s t (dark.map .darkNode ++ failed.map .failover ++ (zeroed s.dues freed).map fun p => .fadeDone p true)
  free : t.dome.freeCount = s.dome.freeCount + freed.length
  yields : Yields s t
  settled : zeroed s.dues freed ≠ [] → TargetsSettled t
  stands : zeroed s.dues freed = [] → TargetsStand s t ∧ TargetsKept s t

/-! ### Events of several classes, reordered (R192) -/

theorem Raised.of_classes {s t : State} {es fs : List Event} (h : Raised s t es)
    (hclasses : ∀ k : ClassNumber, (es.filter fun e => e.cls = k) = fs.filter fun e => e.cls = k) : Raised s t fs := fun k hk => by
  rw [h k hk, hclasses]

/-- The events of a sweep, of which each list has its own class. -/
def sweepEvents (dark : List Nat) (failed gone : List Slot) : List Event :=
  dark.map .darkNode ++ failed.map .failover ++ gone.map fun p => .fadeDone p true

theorem filter_sweepEvents (dark : List Nat) (failed gone : List Slot) (k : ClassNumber) :
    ((sweepEvents dark failed gone).filter fun e => e.cls = k) =
      if k = 0 then dark.map .darkNode else if k = 2 then failed.map .failover
      else if k = 6 then gone.map fun p => .fadeDone p true else [] := by
  unfold sweepEvents
  rw [List.filter_append, List.filter_append, List.filter_map, List.filter_map, List.filter_map]
  have hdark : ((fun e : Event => decide (e.cls = k)) ∘ Event.darkNode) = fun _ => decide (0 = k) := rfl
  have hfailed : ((fun e : Event => decide (e.cls = k)) ∘ Event.failover) = fun _ => decide (2 = k) := rfl
  have hgone : ((fun e : Event => decide (e.cls = k)) ∘ fun p => Event.fadeDone p true) = fun _ => decide (6 = k) := rfl
  rw [hdark, hfailed, hgone]
  by_cases h0 : k = 0
  · simp [h0]
  by_cases h2 : k = 2
  · simp [h2]
  by_cases h6 : k = 6
  · simp [h6]
  simp [Ne.symm h0, Ne.symm h2, Ne.symm h6, h0, h2, h6]

theorem filter_sweepEvents_append (d d' : List Nat) (f f' g g' : List Slot) (k : ClassNumber) :
    ((sweepEvents d f g ++ sweepEvents d' f' g').filter fun e => e.cls = k) =
      (sweepEvents (d ++ d') (f ++ f') (g ++ g')).filter fun e => e.cls = k := by
  rw [List.filter_append, filter_sweepEvents, filter_sweepEvents, filter_sweepEvents]
  split
  · exact (List.map_append).symm
  split
  · exact (List.map_append).symm
  split
  · exact (List.map_append).symm
  · rfl

/-! ### One sweep after another -/

namespace Projector

theorem sweptTo_of_gone (held freed : Nat) (r : Projector) : r.sweptTo true held freed = (r.swept held freed).emptied := rfl

theorem sweptTo_of_kept (held freed : Nat) (r : Projector) : r.sweptTo false held freed = r.swept held freed := rfl

end Projector

namespace Swept

variable {s t u : State} {held held' freed freed' failed failed' : List Slot} {dark dark' : List Nat}

theorem mem_gone {q : Slot} : q ∈ zeroed s.dues freed ↔
    (s.proj q).state = .retiring ∧ max 1 (s.proj q).claimCount ≤ freed.count q := by
  rw [mem_zeroed, State.dues]
  by_cases hr : (s.proj q).state = .retiring
  · rw [if_pos hr]
    exact ⟨fun ⟨_, hle⟩ => ⟨hr, hle⟩, fun ⟨_, hle⟩ => ⟨by omega, hle⟩⟩
  · rw [if_neg hr]
    exact iff_of_false (fun ⟨h, _⟩ => Nat.lt_irrefl 0 h) fun ⟨h, _⟩ => hr h

/-- What a sweep leaves to go before a slot is left. -/
theorem dues (h : Swept s t held freed failed dark) : t.dues = fun q => s.dues q - freed.count q := by
  funext q
  obtain ⟨target, limited, hrecord⟩ := (sameButForTarget_iff _ _).1 (h.record q)
  unfold State.dues
  by_cases hg : q ∈ zeroed s.dues freed
  · rw [decide_eq_true hg, Projector.sweptTo_of_gone] at hrecord
    obtain ⟨hr, hle⟩ := mem_gone.1 hg
    have hvacant : (t.proj q).state = .vacant := by rw [hrecord]; rfl
    rw [if_neg (by rw [hvacant]; simp), if_pos hr]
    omega
  · rw [decide_eq_false hg, Projector.sweptTo_of_kept] at hrecord
    have hstate : (t.proj q).state = (s.proj q).state := by rw [hrecord]; rfl
    have hcount : (t.proj q).claimCount = (s.proj q).claimCount - freed.count q := by rw [hrecord]; rfl
    rw [hstate, hcount]
    by_cases hr : (s.proj q).state = .retiring
    · have hless : ¬max 1 (s.proj q).claimCount ≤ freed.count q := fun hle => hg (mem_gone.2 ⟨hr, hle⟩)
      rw [if_pos hr, if_pos hr]
      omega
    · rw [if_neg hr, if_neg hr, Nat.zero_sub]

/-- The failovers that a sweep leaves outstanding. -/
theorem failovers (h : Swept s t held freed failed dark) :
    t.failovers = fun q => if q ∈ zeroed s.dues freed then 0 else s.failovers q - held.count q := by
  funext q
  obtain ⟨target, limited, hrecord⟩ := (sameButForTarget_iff _ _).1 (h.record q)
  unfold State.failovers
  by_cases hg : q ∈ zeroed s.dues freed
  · rw [decide_eq_true hg, Projector.sweptTo_of_gone] at hrecord
    rw [if_pos hg, hrecord]
    rfl
  · rw [decide_eq_false hg, Projector.sweptTo_of_kept] at hrecord
    rw [if_neg hg, hrecord]
    rfl

theorem gone_append (h : Swept s t held freed failed dark) :
    zeroed s.dues (freed ++ freed') = zeroed s.dues freed ++ zeroed t.dues freed' := by
  rw [zeroed_append, h.dues]

theorem trans (h : Swept s t held freed failed dark) (h' : Swept t u held' freed' failed' dark') :
    Swept s u (held ++ held') (freed ++ freed') (failed ++ failed') (dark ++ dark') := by
  have hgone := h.gone_append (freed' := freed')
  refine ⟨fun q => ?record, ?vacates, ?raised, ?free, h.yields.trans h'.yields, fun hne => ?settled, fun hnil => ?stands⟩
  case record =>
    obtain ⟨target, limited, hrecord⟩ := (sameButForTarget_iff _ _).1 (h.record q)
    refine SameButForTarget.trans ?_ (h'.record q)
    rw [hrecord, hgone, List.count_append, List.count_append]
    by_cases hg : q ∈ zeroed s.dues freed
    · have hnot : q ∉ zeroed t.dues freed' := fun hmem => by
        have hr := (mem_gone.1 hmem).1
        rw [hrecord, decide_eq_true hg] at hr
        cases hr
      rw [decide_eq_true hg, decide_eq_false hnot, decide_eq_true (List.mem_append_left _ hg)]
      unfold Projector.sweptTo Projector.swept Projector.emptied SameButForTarget
      simp [Nat.sub_sub]
    · rw [decide_eq_false hg]
      by_cases hg' : q ∈ zeroed t.dues freed'
      · rw [decide_eq_true hg', decide_eq_true (List.mem_append_right _ hg')]
        unfold Projector.sweptTo Projector.swept Projector.emptied SameButForTarget
        simp [Nat.sub_sub]
      · rw [decide_eq_false hg', decide_eq_false (by simp [hg, hg'])]
        unfold Projector.sweptTo Projector.swept SameButForTarget
        simp [Nat.sub_sub]
  case vacates =>
    rw [hgone]
    exact h.vacates.trans h'.vacates
  case raised =>
    rw [hgone]
    exact Raised.of_classes (Raised.trans h.raised h'.raised) (filter_sweepEvents_append _ _ _ _ _ _)
  case free => rw [h'.free, h.free, List.length_append, Nat.add_assoc]
  case settled =>
    by_cases hlater : zeroed t.dues freed' = []
    · have hearlier : zeroed s.dues freed ≠ [] := fun hnil => hne (by rw [hgone, hnil, hlater]; rfl)
      obtain ⟨-, hkept⟩ := h'.stands hlater
      exact hkept.settled (h.settled hearlier)
    · exact h'.settled hlater
  case stands =>
    rw [hgone] at hnil
    obtain ⟨hfirst, hsecond⟩ := List.append_eq_nil_iff.1 hnil
    obtain ⟨hstand, hkept⟩ := h.stands hfirst
    obtain ⟨hstand', hkept'⟩ := h'.stands hsecond
    exact ⟨TargetsStand.trans hstand hstand', hkept.trans hkept'⟩

/-! ### The reports of one node's swap -/

/-- A step that sweeps no claim. -/
theorem of_still {es : List Nat} (hp : t.projectors = s.projectors) (hc : t.channels = s.channels) (hr : t.raster = s.raster)
    (hgain : t.gain = s.gain) (hloader : t.loader = s.loader) (hfree : t.dome.freeCount = s.dome.freeCount)
    (hraises : Raises s t (es.map .darkNode)) : Swept s t [] [] [] es := by
  have hproj (q : Slot) : t.proj q = s.proj q := proj_congr hp q
  refine ⟨fun q => ?_, Vacates.of_same hc hr, ?_, hfree, Yields.of_same hloader fun q => by rw [hproj],
    fun h => absurd rfl h, fun _ => ⟨TargetsStand.of_raises hraises ?_ fun q => ?_, hgain, fun q => ?_⟩⟩
  · rw [hproj]
    exact SameButForTarget.refl _
  · have h := hraises.toRaised
    rwa [← List.append_nil (es.map Event.darkNode), ← List.append_nil (es.map Event.darkNode ++ [])] at h
  · intro e he
    obtain ⟨n, -, rfl⟩ := List.mem_map.1 he
    simp [Event.cls]
  · rw [hproj]
    exact ⟨rfl, rfl⟩
  · rw [hproj]
    exact ⟨rfl, rfl, rfl, rfl⟩

theorem refl (s : State) : Swept s s [] [] [] [] := of_still rfl rfl rfl rfl rfl rfl (Raises.refl s)

theorem putNode (s : State) (n : Nat) (r : Node) : Swept s (s.putNode n r) [] [] [] [] :=
  of_still rfl rfl rfl rfl rfl rfl (Raises.of_attention rfl)

theorem darkNode (s : State) (n : Nat) : Swept s (s.raise (.darkNode n)) [] [] [] [n] := by
  have h : Touches [.attention] s (s.raise (.darkNode n)) := raise_touches _ _
  exact of_still h.projectors h.channels h.raster h.gain h.loader (by rw [h.dome]) (Raises.raise s _)

/-- A failover lowered (R76). -/
theorem lowerFailover (p : Slot) (s : State) :
    Swept s (Machine.lowerFailover p s) [p] [] (zeroed s.failovers [p]) [] := by
  have htouches := lowerFailover_touches p s
  have hrecord (q : Slot) : (Machine.lowerFailover p s).proj q = (s.proj q).swept ([p].count q) 0 := by
    rw [proj_lowerFailover]
    by_cases hq : q = p
    · subst hq
      rw [if_pos rfl, List.count_singleton_self]
      rfl
    · rw [if_neg hq, List.count_singleton, if_neg (by simpa using Ne.symm hq)]
      rfl
  have hraises : Raises s (Machine.lowerFailover p s) ((zeroed s.failovers [p]).map .failover) := by
    have hzeroed : (zeroed s.failovers [p]).map Event.failover = if (s.proj p).failover = 1 then [.failover p] else [] := by
      rw [zeroed, zeroed, List.append_nil]
      change List.map _ (if (s.proj p).failover = 1 then [p] else []) = _
      split <;> rfl
    rw [hzeroed]
    exact lowerFailover_raises p s
  refine ⟨fun q => ?_, Vacates.of_same htouches.channels htouches.raster, ?_, by rw [htouches.dome]; rfl, lowerFailover_yields p s,
    fun h => absurd rfl h, fun _ => ⟨TargetsStand.of_raises hraises ?_ fun q => ?_, htouches.gain, fun q => ?_⟩⟩
  · rw [hrecord]
    exact SameButForTarget.refl _
  · have h := hraises.toRaised
    rwa [← List.append_nil (List.map _ (zeroed s.failovers [p]))] at h
  · intro e he
    obtain ⟨n, -, rfl⟩ := List.mem_map.1 he
    simp [Event.cls]
  · rw [hrecord]
    exact ⟨rfl, rfl⟩
  · rw [hrecord]
    exact ⟨rfl, rfl, rfl, rfl⟩

theorem lowerFailovers (ps : List Slot) (s : State) :
    Swept s (ps.foldl (fun u p => Machine.lowerFailover p u) s) ps [] (zeroed s.failovers ps) [] := by
  induction ps generalizing s with
  | nil => exact refl s
  | cons p ps ih =>
    have hfirst := lowerFailover p s
    have h := hfirst.trans (ih (Machine.lowerFailover p s))
    have hleft : (Machine.lowerFailover p s).failovers = fun q => s.failovers q - [p].count q := hfirst.failovers
    rw [hleft, ← zeroed_append] at h
    exact h

theorem zeroed_dues_singleton (s : State) (p : Slot) : zeroed s.dues [p] =
    if (s.proj p).state = .retiring ∧ (s.proj p).claimCount - 1 = 0 then [p] else [] := by
  rw [zeroed, zeroed, List.append_nil]
  refine if_congr ?_ rfl rfl
  unfold State.dues
  by_cases hr : (s.proj p).state = .retiring
  · rw [if_pos hr]
    exact ⟨fun h => ⟨hr, by omega⟩, fun ⟨_, h⟩ => by omega⟩
  · rw [if_neg hr]
    exact iff_of_false (by simp) fun ⟨h, _⟩ => hr h

/-- A claim freed by a swap (R14, R71, R87). -/
theorem freeAtSwap (s : State) (p : Slot) : Swept s (Machine.freeAtSwap s p) [] [p] [] [] := by
  have hcounted (q : Slot) : (countFreed p s).proj q = (s.proj q).swept 0 ([p].count q) := by
    rw [proj_countFreed]
    by_cases hq : q = p
    · subst hq
      rw [if_pos rfl, List.count_singleton_self]
      rfl
    · rw [if_neg hq, List.count_singleton, if_neg (by simpa using Ne.symm hq)]
      rfl
  have hgone : (if ((countFreed p s).proj p).state = .retiring ∧ ((countFreed p s).proj p).claimCount = 0 then [p] else []) =
      zeroed s.dues [p] := by
    rw [zeroed_dues_singleton, hcounted, List.count_singleton_self]
    rfl
  have hempties := Empties.emptyIfDone p (countFreed p s)
  rw [hgone] at hempties
  obtain ⟨hvacates, hrecord, hraised, hsettled, hsame, hyields⟩ := hempties
  have htouches := countFreed_touches p s
  have hdome := (emptyIfDone_touches p (countFreed p s)).dome
  refine ⟨fun q => ?_, (Vacates.of_same htouches.channels htouches.raster).trans hvacates,
    Raised.congr_left hraised htouches.attention.symm, ?_,
    (Yields.of_same htouches.loader fun q => by rw [hcounted]; rfl).trans hyields, hsettled, fun hnil => ?_⟩
  · have h := hrecord q
    rw [hcounted] at h
    by_cases hq : q ∈ zeroed s.dues [p]
    · rw [decide_eq_true hq]
      rwa [if_pos hq] at h
    · rw [decide_eq_false hq]
      rwa [if_neg hq] at h
  · rw [Machine.freeAtSwap, hdome]
    rfl
  · have hfree : Machine.freeAtSwap s p = countFreed p s := hsame hnil
    rw [hfree]
    refine ⟨TargetsStand.of_raises (Raises.of_attention htouches.attention) (by simp) fun q => ?_, htouches.gain, fun q => ?_⟩
    · rw [hcounted]
      exact ⟨rfl, rfl⟩
    · rw [hcounted]
      exact ⟨rfl, rfl, rfl, rfl⟩

theorem freeAllAtSwap (ps : List Slot) (s : State) : Swept s (ps.foldl Machine.freeAtSwap s) [] ps [] [] := by
  induction ps generalizing s with
  | nil => exact refl s
  | cons p ps ih => exact (freeAtSwap s p).trans (ih _)

/-- The reports of a node that swaps: the turn to dark, a node swap for each claim held, and each claim freed. -/
theorem reportSwap (n : Nat) (old new : Node) (leaves : Claim → Bool) (s : State) :
    Swept s (Machine.reportSwap n old new leaves s) (old.claims.map Claim.projector) (old.freedSlots leaves)
      (zeroed s.failovers (old.claims.map Claim.projector))
      (if new.condition = .dark ∧ old.condition ≠ .dark then [n] else []) := by
  have hdark : Swept s (if new.condition = .dark ∧ old.condition ≠ .dark then s.raise (.darkNode n) else s) [] [] []
      (if new.condition = .dark ∧ old.condition ≠ .dark then [n] else []) := by
    split
    · exact darkNode s n
    · exact refl s
  have hfailovers : (if new.condition = .dark ∧ old.condition ≠ .dark then s.raise (.darkNode n) else s).failovers =
      s.failovers := by split <;> rfl
  unfold Machine.reportSwap
  dsimp only
  generalize (if new.condition = .dark ∧ old.condition ≠ .dark then s.raise (.darkNode n) else s) = t at hdark hfailovers ⊢
  have hlowered := lowerFailovers (old.claims.map Claim.projector) t
  rw [hfailovers] at hlowered
  have h := (hdark.trans hlowered).trans (freeAllAtSwap (old.freedSlots leaves) _)
  simpa only [List.nil_append, List.append_nil] using h

end Swept

end Sys2Proof.Machine
end

section
/-! PROOF. The swap of a boundary, node by node (O20). -/

namespace Sys2Proof.Machine

open Sys2Proof Sys2Proof.Stating

set_option Elab.async false

/-! ### One node -/

/-- The node swaps: a member with a READY group, a node outside the group with next weights (R66). -/
def Node.swaps (ready : Bool) (r : Node) : Bool := if r.groupMark then ready else r.nextValid

/-- The swap of the node frees the claim (R67, R68). -/
def Node.leaves (r : Node) (c : Claim) : Bool := c.withdrawn || (r.groupMark && c.pendingRemoval)

/-- The slots of the claims on a node that swaps. -/
def Node.swapSlots (ready : Bool) (r : Node) : List Slot := if r.swaps ready then r.claims.map Claim.projector else []

/-- The slots of the claims that the swap of a node frees. -/
def Node.leavingSlots (ready : Bool) (r : Node) : List Slot := if r.swaps ready then r.freedSlots r.leaves else []

/-- The swap turns the node dark. -/
def Node.turnsDark (ready : Bool) (r : Node) : Bool :=
  r.swaps ready && decide ((r.visited ready).condition = .dark ∧ r.condition ≠ .dark)

theorem Node.leaves_eq (r : Node) : (if r.groupMark then Claim.leavesAtGroup else Claim.leavesAtSingle) = r.leaves := by
  funext c
  unfold Node.leaves Claim.leavesAtGroup Claim.leavesAtSingle
  cases r.groupMark
  · simp
  · simp [Bool.or_comm]

theorem swapNode_eq (ready : Bool) (s : State) (n : Nat) : swapNode ready s n = if (s.node n).swaps ready then
    reportSwap n (s.node n) ((s.node n).visited ready) (s.node n).leaves (s.putNode n ((s.node n).visited ready)) else s := by
  unfold swapNode Node.swaps Node.visited
  dsimp only
  rw [← Node.leaves_eq]
  by_cases hg : (s.node n).groupMark = true
  · rw [if_pos hg, if_pos hg, if_pos hg, if_pos hg]
    cases ready
    · rfl
    · rfl
  · rw [if_neg hg, if_neg hg, if_neg hg, if_neg hg]
    split
    · rfl
    · rfl

theorem swept_swapNode (ready : Bool) (s : State) (n : Nat) : Swept s (swapNode ready s n) ((s.node n).swapSlots ready)
    ((s.node n).leavingSlots ready) (zeroed s.failovers ((s.node n).swapSlots ready))
    (if (s.node n).turnsDark ready then [n] else []) := by
  rw [swapNode_eq]
  unfold Node.swapSlots Node.leavingSlots Node.turnsDark
  by_cases hs : (s.node n).swaps ready = true
  · have h := (Swept.putNode s n ((s.node n).visited ready)).trans
      (Swept.reportSwap n (s.node n) ((s.node n).visited ready) (s.node n).leaves (s.putNode n ((s.node n).visited ready)))
    have hfailovers : (s.putNode n ((s.node n).visited ready)).failovers = s.failovers := rfl
    rw [hfailovers] at h
    rw [if_pos hs, if_pos hs, if_pos hs, hs, Bool.true_and]
    simpa only [List.nil_append, decide_eq_true_eq] using h
  · rw [if_neg hs, if_neg hs, if_neg hs, Bool.eq_false_iff.2 hs]
    exact Swept.refl s

/-! ### The nodes in ascending index -/

/-- The slots of the claims held, node by node, on the nodes below an index. -/
def heldBelow (ready : Bool) (s : State) (n : Nat) : List Slot := (List.range n).flatMap fun m => (s.node m).swapSlots ready

/-- The slots of the claims freed on the nodes below an index. -/
def freedBelow (ready : Bool) (s : State) (n : Nat) : List Slot := (List.range n).flatMap fun m => (s.node m).leavingSlots ready

/-- The node swaps of a slot at a node. -/
def heldAt (ready : Bool) (s : State) (p : Slot) (n : Nat) : Nat := ((s.node n).swapSlots ready).count p

/-- The claims of a slot that are freed at a node. -/
def freedAt (ready : Bool) (s : State) (p : Slot) (n : Nat) : Nat := ((s.node n).leavingSlots ready).count p

/-- The slot is left before the node at which its failovers would have ended (R87). -/
def leftBefore (ready : Bool) (s : State) (p : Slot) : Bool :=
  decide (p ∈ zeroed s.dues (freedBelow ready s (reachedAt (heldAt ready s p) (s.proj p).failover)))

/-- The slots whose failovers end on the nodes below an index, in that order (R76). -/
def endedBelow (ready : Bool) (s : State) (n : Nat) : List Slot :=
  (zeroed s.failovers (heldBelow ready s n)).filter fun p => !leftBefore ready s p

theorem count_heldBelow (ready : Bool) (s : State) (n : Nat) (p : Slot) :
    (heldBelow ready s n).count p = ((List.range n).map (heldAt ready s p)).sum := count_flatMap_range _ _ _

theorem count_freedBelow (ready : Bool) (s : State) (n : Nat) (p : Slot) :
    (freedBelow ready s n).count p = ((List.range n).map (freedAt ready s p)).sum := count_flatMap_range _ _ _

theorem heldBelow_succ (ready : Bool) (s : State) (n : Nat) :
    heldBelow ready s (n + 1) = heldBelow ready s n ++ (s.node n).swapSlots ready := by
  rw [heldBelow, List.range_succ, List.flatMap_append, List.flatMap_singleton]
  rfl

theorem freedBelow_succ (ready : Bool) (s : State) (n : Nat) :
    freedBelow ready s (n + 1) = freedBelow ready s n ++ (s.node n).leavingSlots ready := by
  rw [freedBelow, List.range_succ, List.flatMap_append, List.flatMap_singleton]
  rfl

/-- The failovers that end at a node, after what the nodes below it have left. -/
theorem ended_at {ready : Bool} {s t : State} {n : Nat} (hn : n < 2049) {failed : List Slot} {dark : List Nat}
    (h : Swept s t (heldBelow ready s n) (freedBelow ready s n) failed dark) :
    zeroed t.failovers ((s.node n).swapSlots ready) =
      (zeroed (fun q => s.failovers q - (heldBelow ready s n).count q) ((s.node n).swapSlots ready)).filter
        fun p => !leftBefore ready s p := by
  have hleft : t.failovers = fun q => if decide (q ∉ zeroed s.dues (freedBelow ready s n)) = true
      then s.failovers q - (heldBelow ready s n).count q else 0 := by
    rw [h.failovers]
    funext q
    by_cases hq : q ∈ zeroed s.dues (freedBelow ready s n) <;> simp [hq]
  rw [hleft, zeroed_filter]
  refine List.filter_congr fun p hp => ?_
  obtain ⟨hpos, hle⟩ := mem_zeroed.1 hp
  have hcount := count_heldBelow ready s (n + 1) p
  rw [heldBelow_succ, List.count_append] at hcount
  rw [count_heldBelow] at hpos hle hcount
  have hreached : reachedAt (heldAt ready s p) (s.proj p).failover = n := by
    refine reachedAt_eq hn ?_ ?_
    · exact Nat.lt_of_sub_pos hpos
    · rw [← hcount]
      have hfailovers : s.failovers p = (s.proj p).failover := rfl
      omega
  rw [leftBefore, hreached, decide_not]

theorem swept_below (ready : Bool) (s : State) {n : Nat} (hn : n ≤ 2049) :
    Swept s ((List.range n).foldl (swapNode ready) s) (heldBelow ready s n) (freedBelow ready s n) (endedBelow ready s n)
      ((List.range n).filter fun m => (s.node m).turnsDark ready) := by
  induction n with
  | zero => exact Swept.refl s
  | succ n ih =>
    have hbelow := ih (by omega)
    have hnode : ((List.range n).foldl (swapNode ready) s).node n = s.node n := by
      rw [node_swapNodes, if_neg (by simp)]
    have hstep := swept_swapNode ready ((List.range n).foldl (swapNode ready) s) n
    rw [hnode, ended_at (by omega) hbelow] at hstep
    have h := hbelow.trans hstep
    rw [List.range_succ, List.foldl_append, List.filter_append, heldBelow_succ, freedBelow_succ, endedBelow, heldBelow_succ,
      zeroed_append, List.filter_append]
    have hdark : ([n].filter fun m => (s.node m).turnsDark ready) = if (s.node n).turnsDark ready then [n] else [] := by
      by_cases hd : (s.node n).turnsDark ready = true <;> simp [hd]
    rw [hdark]
    exact h

end Sys2Proof.Machine
end

section
/-! PROOF. The end of the swap: the order in which failovers end and slots are left, the dissolution of the group, and an
apply that waits (O20). -/

namespace Sys2Proof.Machine

open Sys2Proof Sys2Proof.Stating

set_option Elab.async false

/-! ### The slots whose failovers end (R76) -/

theorem reachedAt_spec {count : Nat → Nat} {k : Nat} (hk : 0 < k) (h : k ≤ ((List.range 2049).map count).sum) :
    reachedAt count k < 2049 ∧ ((List.range (reachedAt count k)).map count).sum < k ∧
      k ≤ ((List.range (reachedAt count k + 1)).map count).sum := by
  have hex : ∃ n, k ≤ ((List.range (n + 1)).map count).sum := ⟨2048, h⟩
  have hspec := Nat.find_spec hex
  have hle : Nat.find hex ≤ 2048 := Nat.find_min' hex h
  have hlow : ((List.range (Nat.find hex)).map count).sum < k := by
    cases hfind : Nat.find hex with
    | zero => simpa using hk
    | succ n => exact Nat.lt_of_not_le (Nat.find_min hex (by omega))
  rw [reachedAt_eq (by omega) hlow hspec]
  exact ⟨by omega, hlow, hspec⟩

theorem sum_map_le {f g : Nat → Nat} (h : ∀ n, f n ≤ g n) (l : List Nat) : (l.map f).sum ≤ (l.map g).sum :=
  List.sum_le_sum fun n _ => h n

/-- Two counts, the one never above the other, that agree in the end: neither rises once the lower one has reached it. -/
theorem sum_eq_of_reached {f g : Nat → Nat} (h : ∀ n, f n ≤ g n) {m n : Nat} (hmn : m < n)
    (hsum : ((List.range n).map f).sum = ((List.range n).map g).sum)
    (hreached : ((List.range n).map f).sum ≤ ((List.range m).map f).sum) :
    ((List.range (m + 1)).map g).sum ≤ ((List.range m).map g).sum := by
  have hupper := sum_range_mono g (show m + 1 ≤ n by omega)
  have hlower := sum_map_le h (List.range m)
  omega

section
variable (ready : Bool) (s : State)

theorem freedAt_le_heldAt (p : Slot) (n : Nat) : freedAt ready s p n ≤ heldAt ready s p n := by
  unfold freedAt heldAt Node.leavingSlots Node.swapSlots Node.freedSlots
  split
  · exact (List.filter_sublist.map _).count_le p
  · exact le_refl _

theorem mem_endedBelow {p : Slot} : p ∈ endedBelow ready s 2049 ↔
    (0 < (s.proj p).failover ∧ (s.proj p).failover ≤ ((List.range 2049).map (heldAt ready s p)).sum) ∧
      leftBefore ready s p = false := by
  rw [endedBelow, List.mem_filter, mem_zeroed, count_heldBelow, Bool.not_eq_true']
  exact Iff.rfl

theorem nodup_endedBelow : (endedBelow ready s 2049).Nodup := (nodup_zeroed _ _).filter _

theorem pairwise_endedBelow : (endedBelow ready s 2049).Pairwise fun p q =>
    reachedAt (heldAt ready s p) (s.proj p).failover ≤ reachedAt (heldAt ready s q) (s.proj q).failover :=
  (zeroed_reachedAt s.failovers (fun m => (s.node m).swapSlots ready) (le_refl 2049)).filter _

theorem mem_goneBelow {p : Slot} : p ∈ zeroed s.dues (freedBelow ready s 2049) ↔ (s.proj p).state = .retiring ∧
    0 < ((List.range 2049).map (freedAt ready s p)).sum ∧
      (s.proj p).claimCount ≤ ((List.range 2049).map (freedAt ready s p)).sum := by
  rw [Swept.mem_gone, count_freedBelow]
  exact and_congr_right fun _ => ⟨fun h => ⟨by omega, by omega⟩, fun ⟨h, h'⟩ => by omega⟩

theorem pairwise_goneBelow : (zeroed s.dues (freedBelow ready s 2049)).Pairwise fun p q =>
    reachedAt (freedAt ready s p) (max 1 (s.proj p).claimCount) ≤ reachedAt (freedAt ready s q) (max 1 (s.proj q).claimCount) := by
  have h := zeroed_reachedAt s.dues (fun m => (s.node m).leavingSlots ready) (le_refl 2049)
  refine h.imp_of_mem fun {p q} hp hq hpq => ?_
  have hdues {r : Slot} (hr : r ∈ zeroed s.dues (freedBelow ready s 2049)) : s.dues r = max 1 (s.proj r).claimCount := by
    obtain ⟨hretiring, -⟩ := Swept.mem_gone.1 hr
    rw [State.dues, if_pos hretiring]
  rw [hdues hp, hdues hq] at hpq
  exact hpq

/-- The failovers of a slot end at a swap that does not leave the slot, or that leaves it with its last node swap (R76). -/
theorem ended_of_kept {p : Slot} (hpos : 0 < (s.proj p).failover)
    (hle : (s.proj p).failover ≤ ((List.range 2049).map (heldAt ready s p)).sum)
    (h : p ∉ zeroed s.dues (freedBelow ready s 2049) ∨
      ((List.range 2049).map (freedAt ready s p)).sum = ((List.range 2049).map (heldAt ready s p)).sum ∧
        ((List.range 2049).map (freedAt ready s p)).sum = (s.proj p).claimCount) : p ∈ endedBelow ready s 2049 := by
  rw [mem_endedBelow]
  refine ⟨⟨hpos, hle⟩, Bool.eq_false_iff.2 fun hleft => ?_⟩
  obtain ⟨hlast, hlow, hhigh⟩ := reachedAt_spec hpos hle
  obtain ⟨hretiring, hcount⟩ := Swept.mem_gone.1 (of_decide_eq_true hleft)
  rw [count_freedBelow] at hcount
  have hmono := sum_range_mono (freedAt ready s p) (Nat.le_of_lt hlast)
  rcases h with h | ⟨hsame, hall⟩
  · exact h ((mem_goneBelow ready s).2 ⟨hretiring, by omega, by omega⟩)
  · have hstop := sum_eq_of_reached (freedAt_le_heldAt ready s p) hlast hsame (by omega)
    omega

end

/-! ### The dissolution of the group (R69) -/

/-- The group dissolved after its swap, with SWAP_DONE, before a waiting apply is taken. -/
def swapEnded (members : Nat) (s : State) : State := (disbanded s).raise (.swapDone members)

theorem swapEnded_touches (members : Nat) (s : State) : Touches [.edit, .attention] s (swapEnded members s) := by
  have h : Touches [.edit] s (disbanded s) := setEdit_touches s _
  exact h.andThen (raise_touches _ _)

theorem edit_swapEnded (members : Nat) (s : State) : (swapEnded members s).edit =
    { groupState := .none, members := 0, readyCount := 0, applyWaiting := false } := rfl

theorem finishGroup_of_not {s : State} (h : s.edit.applyWaiting = false) (members : Nat) :
    finishGroup members s = swapEnded members s := by
  have hwaiting : ((dissolveGroup s).raise (.swapDone members)).edit.applyWaiting = false := h
  unfold finishGroup takeApplyWaiting
  rw [hwaiting, if_neg Bool.false_ne_true, disbanded_eq s h]
  rfl

theorem finishGroup_of_waiting {s : State} (h : s.edit.applyWaiting = true) (members : Nat) :
    finishGroup members s = (applyEdits (swapEnded members s)).1 := by
  have hwaiting : ((dissolveGroup s).raise (.swapDone members)).edit.applyWaiting = true := h
  have hcleared : ((dissolveGroup s).raise (.swapDone members)).setEdit
      { ((dissolveGroup s).raise (.swapDone members)).edit with applyWaiting := false } = swapEnded members s := rfl
  unfold finishGroup takeApplyWaiting
  rw [hwaiting, if_pos rfl, hcleared]
  generalize applyEdits (swapEnded members s) = r
  rcases r with ⟨t, k | _⟩ <;> rfl

/-! ### The swap neither reads nor writes Edit Control's state -/

/-- A change that neither reads nor writes Edit Control's state. -/
def Apart (f : State → State) : Prop := ∀ s e, f (s.setEdit e) = (f s).setEdit e

namespace Apart

variable {f g : State → State}

theorem comp (hg : Apart g) (hf : Apart f) : Apart fun s => g (f s) := fun s e => by
  dsimp only
  rw [hf, hg]

theorem id : Apart fun s => s := fun _ _ => rfl

theorem ite {c : State → Prop} [∀ s, Decidable (c s)] (hc : ∀ s e, c (s.setEdit e) ↔ c s) (hf : Apart f) (hg : Apart g) :
    Apart fun s => if c s then f s else g s := fun s e => by
  dsimp only
  by_cases h : c s
  · rw [if_pos h, if_pos ((hc s e).2 h), hf]
  · rw [if_neg h, if_neg (mt (hc s e).1 h), hg]

theorem foldl {α : Type} {k : State → α → State} (hk : ∀ a, Apart fun s => k s a) (l : List α) :
    Apart fun s => l.foldl k s := by
  induction l with
  | nil => exact id
  | cons a l ih => exact comp ih (hk a)

theorem raise (ev : Event) : Apart fun s => s.raise ev := fun _ _ => rfl

theorem reportYield : Apart Machine.reportYield := ite (fun _ _ => Iff.rfl) (fun _ _ => rfl) id

theorem lowerFailover (p : Slot) : Apart (Machine.lowerFailover p) :=
  have hset : Apart fun s => s.setFailover p ((s.proj p).failover - 1) := fun _ _ => rfl
  ite (fun _ _ => Iff.rfl) id
    (ite (fun _ _ => Iff.rfl) (comp reportYield (comp (raise (.failover p)) hset)) hset)

theorem recomputeGains : Apart Machine.recomputeGains := by
  have hlimits (ps : List Slot) : Apart (raiseLimits ps) :=
    foldl (fun p => ite (fun _ _ => Iff.rfl) (raise (.gainLimit p)) id) ps
  intro s e
  unfold Machine.recomputeGains
  exact hlimits slots (s.mapProj fun r => r.retargeted s.gain.floor s.reference) e

theorem leftSlot (p : Slot) : Apart (Machine.leftSlot p) :=
  have hleft : Apart fun s => Machine.recomputeGains (turnOff p (s.modProj p Projector.emptied)) :=
    comp recomputeGains fun _ _ => rfl
  show Apart fun s => (Machine.recomputeGains (turnOff p (s.modProj p Projector.emptied))).raise (.fadeDone p true) from
    comp (raise (.fadeDone p true)) hleft

theorem emptySlot (p : Slot) : Apart (Machine.emptySlot p) :=
  ite (fun _ _ => Iff.rfl) (comp reportYield (leftSlot p)) (leftSlot p)

theorem emptyIfDone (p : Slot) : Apart (Machine.emptyIfDone p) := ite (fun _ _ => Iff.rfl) (emptySlot p) id

theorem freeAtSwap (p : Slot) : Apart fun s => Machine.freeAtSwap s p :=
  have hcounted : Apart (countFreed p) := fun _ _ => rfl
  comp (emptyIfDone p) hcounted

theorem reportSwap (n : Nat) (old new : Node) (leaves : Claim → Bool) : Apart (Machine.reportSwap n old new leaves) :=
  have hdark : Apart fun s => if new.condition = .dark ∧ old.condition ≠ .dark then s.raise (.darkNode n) else s :=
    ite (fun _ _ => Iff.rfl) (raise (.darkNode n)) id
  show Apart fun s => (old.freedSlots leaves).foldl Machine.freeAtSwap
      ((old.claims.map Claim.projector).foldl (fun v p => Machine.lowerFailover p v)
        (if new.condition = .dark ∧ old.condition ≠ .dark then s.raise (.darkNode n) else s)) from
    comp (foldl freeAtSwap (old.freedSlots leaves)) (comp (foldl lowerFailover (old.claims.map Claim.projector)) hdark)

theorem swapNode (ready : Bool) (n : Nat) : Apart fun s => Machine.swapNode ready s n := fun s e => by
  have hnode : (s.setEdit e).node n = s.node n := rfl
  dsimp only
  rw [swapNode_eq, swapNode_eq, hnode]
  split
  · exact reportSwap n _ _ _ (s.putNode n ((s.node n).visited ready)) e
  · rfl

theorem swapNodes (ready : Bool) (ns : List Nat) : Apart fun s => ns.foldl (Machine.swapNode ready) s :=
  foldl (swapNode ready) ns

end Apart

end Sys2Proof.Machine
end

section
/-! PROOF. The swap of one boundary, whole: the nodes, the end of the group and an apply that waits (O20). -/

namespace Sys2Proof.Machine

open Sys2Proof Sys2Proof.Stating

set_option Elab.async false

/-! ### The condition of a node (R6) -/

theorem mem_live {claims : List Claim} {c : Claim} : c ∈ claims.filter Claim.live ↔ c ∈ claims ∧ c.pendingNew = false := by
  rw [List.mem_filter, Claim.live, Bool.not_eq_true']

theorem conditionOf_cases (claims : List Claim) :
    (conditionOf claims = .unclaimed ∧ ∀ c ∈ claims, c.pendingNew = true) ∨
    (conditionOf claims = .dark ∧ (∃ c ∈ claims, c.pendingNew = false) ∧
      ∀ c ∈ claims, c.pendingNew = false → c.liveWeight = 0) ∨
    (conditionOf claims = .covered ∧ ∃ c ∈ claims, c.pendingNew = false ∧ c.liveWeight ≠ 0) := by
  unfold conditionOf
  dsimp only
  by_cases hnone : (claims.filter Claim.live).isEmpty = true
  · refine Or.inl ⟨if_pos hnone, fun c hc => ?_⟩
    by_contra hnew
    have hlive := mem_live.2 ⟨hc, Bool.eq_false_iff.2 hnew⟩
    rw [List.isEmpty_iff.1 hnone] at hlive
    exact absurd hlive List.not_mem_nil
  rw [if_neg hnone]
  by_cases hdark : ((claims.filter Claim.live).all fun c => c.liveWeight == 0) = true
  · obtain ⟨c, hc⟩ := List.exists_mem_of_ne_nil _ (mt List.isEmpty_iff.2 hnone)
    refine Or.inr (Or.inl ⟨if_pos hdark, ⟨c, mem_live.1 hc⟩, fun d hd hlive => ?_⟩)
    exact eq_of_beq (List.all_eq_true.1 hdark d (mem_live.2 ⟨hd, hlive⟩))
  · refine Or.inr (Or.inr ⟨if_neg hdark, ?_⟩)
    rw [List.all_eq_true] at hdark
    push Not at hdark
    obtain ⟨c, hc, hweight⟩ := hdark
    obtain ⟨hmem, hlive⟩ := mem_live.1 hc
    exact ⟨c, hmem, hlive, fun h => hweight (beq_iff_eq.2 h)⟩

theorem conditionOf_unclaimed_iff (claims : List Claim) :
    conditionOf claims = .unclaimed ↔ ∀ c ∈ claims, c.pendingNew = true := by
  rcases conditionOf_cases claims with ⟨h, hall⟩ | ⟨h, ⟨c, hc, hlive⟩, -⟩ | ⟨h, c, hc, hlive, -⟩ <;> rw [h]
  · exact iff_of_true rfl hall
  · exact iff_of_false (by simp) fun hall => by rw [hall c hc] at hlive; cases hlive
  · exact iff_of_false (by simp) fun hall => by rw [hall c hc] at hlive; cases hlive

theorem conditionOf_dark_iff (claims : List Claim) : conditionOf claims = .dark ↔
    (∃ c ∈ claims, c.pendingNew = false) ∧ ∀ c ∈ claims, c.pendingNew = false → c.liveWeight = 0 := by
  rcases conditionOf_cases claims with ⟨h, hall⟩ | ⟨h, hdark⟩ | ⟨h, c, hc, hlive, hweight⟩ <;> rw [h]
  · exact iff_of_false (by simp) fun ⟨⟨c, hc, hlive⟩, _⟩ => by rw [hall c hc] at hlive; cases hlive
  · exact iff_of_true rfl hdark
  · exact iff_of_false (by simp) fun ⟨_, hdark⟩ => hweight (hdark c hc hlive)

theorem conditionOf_covered_iff (claims : List Claim) :
    conditionOf claims = .covered ↔ ∃ c ∈ claims, c.pendingNew = false ∧ c.liveWeight ≠ 0 := by
  rcases conditionOf_cases claims with ⟨h, hall⟩ | ⟨h, -, hdark⟩ | ⟨h, hcovered⟩ <;> rw [h]
  · exact iff_of_false (by simp) fun ⟨c, hc, hlive, _⟩ => by rw [hall c hc] at hlive; cases hlive
  · exact iff_of_false (by simp) fun ⟨c, hc, hlive, hweight⟩ => hweight (hdark c hc hlive)
  · exact iff_of_true rfl hcovered

/-! ### The record of a node after its swap (R67, R68, R70) -/

theorem Claim.promoted_swapped (c : Claim) : c.promoted.swapped = { c with
    livePos := if c.pendingPos.isSome then c.pendingPos else c.livePos
    pendingPos := none
    livePin := match c.pendingPin with | some (.set v) => some v | some .clear => none | none => c.livePin
    pendingPin := none, pendingNew := false
    liveWeight := c.nextWeight, liveTrim := c.nextTrim.getD c.liveTrim, nextTrim := none } := by
  unfold Claim.promoted Claim.swapped
  cases c.pendingPos <;> rfl

theorem Node.visited_of_stays {ready : Bool} {r : Node} (h : r.swaps ready = false) : r.visited ready = r := by
  unfold Node.swaps at h
  unfold Node.visited
  split at h
  · next hg => rw [if_pos hg, h, if_neg Bool.false_ne_true]
  · next hg => rw [if_neg hg, h, if_neg Bool.false_ne_true]

theorem Node.visited_of_single {ready : Bool} {r : Node} (hg : r.groupMark = false) (hv : r.nextValid = true) :
    r.visited ready = r.singleSwapped := by
  unfold Node.visited
  rw [hg, hv]
  rfl

theorem Node.visited_of_group {r : Node} (hg : r.groupMark = true) : r.visited true = r.groupSwapped := by
  unfold Node.visited
  rw [hg]
  rfl

/-! ### The visits of the nodes -/

/-- The boundary has one swap less to take (R142). -/
def swapTaken (s : State) : State := { s with owed := { s.owed with swap := s.owed.swap - 1 } }

/-- The group is READY to swap. -/
def swapReady (s : State) : Bool := s.edit.groupState == .ready

theorem swapReady_iff (s : State) : swapReady s = true ↔ s.edit.groupState = .ready := beq_iff_eq

/-- Every node visited, in ascending index (R66). -/
def nodesSwapped (s : State) : State := nodeIndices.foldl (swapNode (swapReady s)) (swapTaken s)

/-- A step of a swap, when no apply waits and the solver has nothing to begin. -/
def swapped (s : State) : State :=
  if s.edit.groupState = .ready then swapEnded s.edit.members (nodesSwapped s) else nodesSwapped s

theorem exec_swap {s : State} (h : 0 < s.owed.swap) : exec .swap s = .next (swapAll (swapTaken s)) := by
  have hexec : exec .swap s = .next (if s.owed.swap = 0 then s else swapAll (swapTaken s)) := rfl
  rw [hexec, if_neg (Nat.ne_of_gt h)]

theorem swapAll_swapTaken_of_not {s : State} (h : s.edit.groupState ≠ .ready) :
    swapAll (swapTaken s) = nodesSwapped s := by
  have hready : swapReady s = false := Bool.eq_false_iff.2 (mt (swapReady_iff s).1 h)
  have hstate : (swapTaken s).edit.groupState ≠ .ready := h
  rw [swapAll_of_not_ready hstate, nodesSwapped, hready]

theorem swapAll_swapTaken_of_ready {s : State} (h : s.edit.groupState = .ready) :
    swapAll (swapTaken s) = startSolve (finishGroup s.edit.members (nodesSwapped s)) := by
  have hready : swapReady s = true := (swapReady_iff s).2 h
  have hstate : (swapTaken s).edit.groupState = .ready := h
  have hmembers : (swapTaken s).edit.members = s.edit.members := rfl
  rw [swapAll_of_ready hstate, hmembers, nodesSwapped, hready]

theorem nodesSwapped_touches_after (s : State) : Touches Field.swapped (swapTaken s) (nodesSwapped s) :=
  Touches.foldl (swapNode (swapReady s)) (swapNode_touches _) nodeIndices (swapTaken s)

theorem edit_nodesSwapped (s : State) : (nodesSwapped s).edit = s.edit := (nodesSwapped_touches_after s).edit

theorem solver_nodesSwapped (s : State) : (nodesSwapped s).solver = s.solver := (nodesSwapped_touches_after s).solver

theorem node_nodesSwapped (s : State) {n : Nat} (hn : n < 2049) :
    (nodesSwapped s).node n = (s.node n).visited (swapReady s) := by
  rw [nodesSwapped, node_swapNodes, if_pos (mem_nodeIndices.2 hn)]
  rfl

theorem swapped_of_not {s : State} (h : s.edit.groupState ≠ .ready) : swapped s = nodesSwapped s := if_neg h

theorem swapped_of_ready {s : State} (h : s.edit.groupState = .ready) :
    swapped s = swapEnded s.edit.members (nodesSwapped s) := if_pos h

theorem swapped_touches (s : State) : Touches [.edit, .attention] (nodesSwapped s) (swapped s) := by
  unfold swapped
  split
  · exact swapEnded_touches _ _
  · exact Touches.refl _ _

theorem swapped_touches_after (s : State) : Touches Field.inner (swapTaken s) (swapped s) :=
  Touches.trans (nodesSwapped_touches_after s).mono (swapped_touches s).mono

theorem exec_swap_of_nothing {s : State} (howed : 0 < s.owed.swap) (hwaiting : s.edit.applyWaiting = false)
    (hnothing : NothingToBegin s) : exec .swap s = .next (swapped s) := by
  rw [exec_swap howed]
  by_cases h : s.edit.groupState = .ready
  · have hplain : (nodesSwapped s).edit.applyWaiting = false := by rw [edit_nodesSwapped, hwaiting]
    have hsolver : (swapEnded s.edit.members (nodesSwapped s)).solver = s.solver := by
      rw [(swapEnded_touches _ _).solver, solver_nodesSwapped]
    rw [swapAll_swapTaken_of_ready h, finishGroup_of_not hplain, swapped_of_ready h,
      startSolve_of_nothing (nothingToBegin_congr hnothing hsolver)]
  · rw [swapAll_swapTaken_of_not h, swapped_of_not h]

/-! ### What the visits report -/

/-- The slots left in the swap, in the order of the nodes at which their last claims are freed (R87). -/
def swapGone (s : State) : List Slot := zeroed s.dues (freedBelow (swapReady s) s 2049)

theorem swept_nodesSwapped (s : State) : Swept s (nodesSwapped s) (heldBelow (swapReady s) s 2049)
    (freedBelow (swapReady s) s 2049) (endedBelow (swapReady s) s 2049)
    ((List.range 2049).filter fun n => (s.node n).turnsDark (swapReady s)) := by
  have htaken : Swept s (swapTaken s) [] [] [] [] := Swept.of_still rfl rfl rfl rfl rfl rfl (Raises.of_attention rfl)
  have hheld (ready : Bool) (n : Nat) : heldBelow ready (swapTaken s) n = heldBelow ready s n := rfl
  have hfreed (ready : Bool) (n : Nat) : freedBelow ready (swapTaken s) n = freedBelow ready s n := rfl
  have hended (ready : Bool) (n : Nat) : endedBelow ready (swapTaken s) n = endedBelow ready s n := rfl
  have hdark (ready : Bool) (n : Nat) : ((swapTaken s).node n).turnsDark ready = (s.node n).turnsDark ready := rfl
  have h := htaken.trans (swept_below (swapReady s) (swapTaken s) (le_refl 2049))
  rw [hheld, hfreed, hended] at h
  unfold nodesSwapped nodeIndices
  simpa only [List.nil_append, hdark] using h

theorem Swept.eventRecord {s t : State} {held freed failed : List Slot} {dark : List Nat}
    (h : Swept s t held freed failed dark) {k : ClassNumber} (hk : k ≠ 8) : t.eventRecord k =
      (if k = 0 then dark.map .darkNode else if k = 2 then failed.map .failover
        else if k = 6 then (zeroed s.dues freed).map fun p => .fadeDone p true else []).foldl afterRaising (s.eventRecord k) := by
  have hraised : Raised s t (sweepEvents dark failed (zeroed s.dues freed)) := h.raised
  rw [hraised k hk, filter_sweepEvents]

theorem eventRecord_swapEnded_other (members : Nat) (s : State) {k : ClassNumber} (hk : k ≠ 1) :
    (swapEnded members s).eventRecord k = s.eventRecord k := eventRecord_raise_other (disbanded s) hk

theorem eventRecord_swapEnded (members : Nat) (s : State) :
    (swapEnded members s).eventRecord 1 = afterRaising (s.eventRecord 1) (.swapDone members) :=
  eventRecord_raise_self (disbanded s) (.swapDone members)

theorem eventRecord_swapped (s : State) {k : ClassNumber} (hk : k ≠ 1) :
    (swapped s).eventRecord k = (nodesSwapped s).eventRecord k := by
  unfold swapped
  split
  · exact eventRecord_swapEnded_other _ _ hk
  · rfl

theorem eventRecord_swapped_done {s : State} (h : s.edit.groupState = .ready) :
    (swapped s).eventRecord 1 = afterRaising (s.eventRecord 1) (.swapDone s.edit.members) := by
  have hnodes : (nodesSwapped s).eventRecord 1 = s.eventRecord 1 := (swept_nodesSwapped s).eventRecord (by decide)
  rw [swapped_of_ready h, eventRecord_swapEnded, hnodes]

end Sys2Proof.Machine
end

section
/-! PROOF. What a swap leaves, with and without an apply that waits (O20). -/

namespace Sys2Proof.Machine

open Sys2Proof Sys2Proof.Stating

set_option Elab.async false

/-! ### What a swap leaves -/

section
variable (s : State)

theorem Vacates.of_taken {s t : State} {gone : List Slot} (h : Vacates s t gone) : Vacates (swapTaken s) t gone :=
  ⟨h.chan, h.streams, h.links, h.frame⟩

theorem vacates_swapped : Vacates s (swapped s) (swapGone s) :=
  (swept_nodesSwapped s).vacates.congr_right (swapped_touches s).channels (swapped_touches s).raster

theorem rewrites_swapped : Rewrites (swapTaken s) (swapped s) := by
  refine Rewrites.trans ?_ (Rewrites.of_touches (swapped_touches s))
  exact Rewrites.foldl (swapNode_rewrites (swapReady s)) nodeIndices (swapTaken s)

theorem claimStep_swapped {emptied : Slot → Prop} (hemptied : ∀ p, emptied p ↔ p ∈ swapGone s) :
    ClaimStep emptied (swapTaken s) (swapped s) :=
  claimStep_of (swapped_touches_after s) (rewrites_swapped s) (vacates_swapped s).of_taken fun p hp => (hemptied p).2 hp

theorem proj_swapped (p : Slot) : (swapped s).proj p = (nodesSwapped s).proj p :=
  proj_congr (swapped_touches s).projectors p

theorem record_swapped {p : Slot} (hp : p ∉ swapGone s) : SameButForTarget { s.proj p with
    failover := (s.proj p).failover - ((List.range 2049).map (heldAt (swapReady s) s p)).sum
    claimCount := (s.proj p).claimCount - ((List.range 2049).map (freedAt (swapReady s) s p)).sum } ((swapped s).proj p) := by
  have h := (swept_nodesSwapped s).record p
  have hkept : p ∉ zeroed s.dues (freedBelow (swapReady s) s 2049) := hp
  rw [decide_eq_false hkept, Projector.sweptTo_of_kept, count_heldBelow, count_freedBelow] at h
  rw [proj_swapped]
  exact h

theorem slotEmptied_swapped {p : Slot} (hp : p ∈ swapGone s) : SlotEmptied s (swapped s) p := by
  have hrecord := (swept_nodesSwapped s).record p
  have hgone : p ∈ zeroed s.dues (freedBelow (swapReady s) s 2049) := hp
  obtain ⟨-, hcount⟩ := Swept.mem_gone.1 hgone
  have hnone : (s.proj p).claimCount - (freedBelow (swapReady s) s 2049).count p = 0 := by omega
  rw [decide_eq_true hgone, Projector.sweptTo_of_gone, Projector.swept, hnone] at hrecord
  have hvacates := vacates_swapped s
  refine ⟨?_, by rw [hvacates.chan, if_pos hp]; rfl, by rw [hvacates.streams, if_pos hp], by rw [hvacates.links, if_pos hp]⟩
  rw [proj_swapped]
  exact hrecord

theorem length_freedBelow (ready : Bool) (n : Nat) : (freedBelow ready s n).length =
    ((List.range n).map fun m => if (s.node m).swaps ready then (s.node m).claims.countP (s.node m).leaves else 0).sum := by
  rw [freedBelow, List.length_flatMap]
  refine congrArg List.sum (List.map_congr_left fun m _ => ?_)
  unfold Node.leavingSlots Node.freedSlots
  split
  · rw [List.length_map, List.countP_eq_length_filter]
  · rfl

theorem freeCount_swapped : (swapped s).dome.freeCount = s.dome.freeCount + ((List.range 2049).map fun n =>
    if (s.node n).swaps (swapReady s) then (s.node n).claims.countP (s.node n).leaves else 0).sum := by
  rw [(swapped_touches s).dome, (swept_nodesSwapped s).free, length_freedBelow]

theorem node_swapped {n : Nat} (hn : n < 2049) : (swapped s).node n = (s.node n).visited (swapReady s) := by
  rw [(swapped_touches s).node n, node_nodesSwapped s hn]

theorem targetsKept_swapped : TargetsKept (nodesSwapped s) (swapped s) :=
  ⟨(swapped_touches s).gain, fun p => by rw [proj_swapped]; exact ⟨rfl, rfl, rfl, rfl⟩⟩

theorem targetsSettled_swapped (h : swapGone s ≠ []) : TargetsSettled (swapped s) :=
  (targetsKept_swapped s).settled ((swept_nodesSwapped s).settled h)

theorem targetsStand_swapped (h : swapGone s = []) : TargetsStand s (swapped s) := by
  obtain ⟨hstand, -⟩ := (swept_nodesSwapped s).stands h
  refine TargetsStand.trans hstand ⟨eventRecord_swapped s (by decide), fun p => ?_⟩
  rw [proj_swapped]
  exact ⟨rfl, rfl⟩

theorem yields_swapped : Yields s (swapped s) :=
  (swept_nodesSwapped s).yields.trans (Yields.of_same (swapped_touches s).loader fun p => by rw [proj_swapped])

theorem eventRecord_swapped_of_swept {k : ClassNumber} (h1 : k ≠ 1) (h8 : k ≠ 8) : (swapped s).eventRecord k =
    (if k = 0 then ((List.range 2049).filter fun n => (s.node n).turnsDark (swapReady s)).map .darkNode
      else if k = 2 then (endedBelow (swapReady s) s 2049).map .failover
      else if k = 6 then (swapGone s).map fun p => .fadeDone p true else []).foldl afterRaising (s.eventRecord k) := by
  rw [eventRecord_swapped s h1, (swept_nodesSwapped s).eventRecord h8]
  rfl

theorem darkNodes_swapped : (swapped s).eventRecord 0 =
    ((List.range 2049).filter fun n => (s.node n).turnsDark (swapReady s)).foldl (fun r n => afterRaising r (.darkNode n))
      (s.eventRecord 0) := by
  have h := eventRecord_swapped_of_swept s (k := 0) (by decide) (by decide)
  rw [if_pos rfl, List.foldl_map] at h
  exact h

theorem failovers_swapped : (swapped s).eventRecord 2 =
    (endedBelow (swapReady s) s 2049).foldl (fun r p => afterRaising r (.failover p)) (s.eventRecord 2) := by
  have h := eventRecord_swapped_of_swept s (k := 2) (by decide) (by decide)
  rw [if_neg (by decide), if_pos rfl, List.foldl_map] at h
  exact h

theorem fadesDone_swapped : (swapped s).eventRecord 6 =
    (swapGone s).foldl (fun r p => afterRaising r (.fadeDone p true)) (s.eventRecord 6) := by
  have h := eventRecord_swapped_of_swept s (k := 6) (by decide) (by decide)
  rw [if_neg (by decide), if_neg (by decide), if_pos rfl, List.foldl_map] at h
  exact h

end

/-! ### An apply that waits (log 28) -/

/-- The state without its waiting apply. -/
def unwaiting (s : State) : State := { s with edit := { s.edit with applyWaiting := false } }

theorem nodesSwapped_unwaiting (s : State) :
    nodesSwapped (unwaiting s) = (nodesSwapped s).setEdit { s.edit with applyWaiting := false } :=
  Apart.swapNodes (swapReady s) nodeIndices (swapTaken s) { s.edit with applyWaiting := false }

theorem setEdit_restored {s : State} {e e' : EditControl} (h : s.edit = e') : { s.setEdit e with edit := e' } = s := by
  subst h
  rfl

theorem setEdit_nodesSwapped (s : State) :
    { nodesSwapped (unwaiting s) with edit := s.edit } = nodesSwapped s := by
  rw [nodesSwapped_unwaiting, setEdit_restored (edit_nodesSwapped s)]

theorem swapEnded_setEdit (members : Nat) (s : State) (e : EditControl) :
    swapEnded members (s.setEdit e) = swapEnded members s := rfl

/-- The end of the swap of a READY group with an apply that waits (R61, R69). -/
theorem applyEdits_swapEnded (members : Nat) (s : State) :
    let t := swapEnded members s
    ((∀ n < 2049, (t.node n).openMark = false) → (applyEdits t).1 = t) ∧
    ((∃ n < 2049, (t.node n).openMark = true) → ∃ u, Sealed t u ∧ (applyEdits t).1 = u) := by
  intro t
  have hnone : t.edit.groupState = .none := rfl
  refine ⟨fun hopen => ?_, fun hopen => ⟨sealOpenSet t, sealed_sealOpenSet t, ?_⟩⟩
  · rw [applyEdits_of_empty hnone ((openSet_eq_nil_iff t).2 hopen)]
  · rw [applyEdits_of_open hnone (openSet_ne_nil hopen)]

theorem exec_swap_waiting {s : State} (howed : 0 < s.owed.swap) (hwaiting : s.edit.applyWaiting = true) :
    ∃ t, exec .swap (unwaiting s) = .next t ∧
      (s.edit.groupState ≠ .ready → exec .swap s = .next { t with edit := s.edit }) ∧
      (s.edit.groupState = .ready → NothingToBegin s →
        ((∀ n < 2049, (t.node n).openMark = false) → exec .swap s = .next t) ∧
        ((∃ n < 2049, (t.node n).openMark = true) → ∃ u, Sealed t u ∧ exec .swap s = .next (startSolve u))) := by
  have howed' : 0 < (unwaiting s).owed.swap := howed
  by_cases h : s.edit.groupState = .ready
  · have h' : (unwaiting s).edit.groupState = .ready := h
    have hplain : (nodesSwapped (unwaiting s)).edit.applyWaiting = false := by rw [nodesSwapped_unwaiting]; rfl
    have hstill : (nodesSwapped s).edit.applyWaiting = true := by rw [edit_nodesSwapped, hwaiting]
    have hsame : swapEnded s.edit.members (nodesSwapped (unwaiting s)) = swapEnded s.edit.members (nodesSwapped s) := by
      rw [nodesSwapped_unwaiting, swapEnded_setEdit]
    have hsolver : (swapEnded s.edit.members (nodesSwapped s)).solver = s.solver := by
      rw [(swapEnded_touches _ _).solver, solver_nodesSwapped]
    have hends : exec .swap (unwaiting s) = .next (startSolve (swapEnded s.edit.members (nodesSwapped s))) := by
      rw [exec_swap howed', swapAll_swapTaken_of_ready h', finishGroup_of_not hplain, ← hsame]
      rfl
    have happlies : exec .swap s = .next (startSolve (applyEdits (swapEnded s.edit.members (nodesSwapped s))).1) := by
      rw [exec_swap howed, swapAll_swapTaken_of_ready h, finishGroup_of_waiting hstill]
    refine ⟨_, hends, fun hnot => absurd h hnot, fun _ hnothing => ?_⟩
    rw [startSolve_of_nothing (nothingToBegin_congr hnothing hsolver), happlies]
    obtain ⟨hempty, hopen⟩ := applyEdits_swapEnded s.edit.members (nodesSwapped s)
    refine ⟨fun hall => ?_, fun hex => ?_⟩
    · rw [hempty hall, startSolve_of_nothing (nothingToBegin_congr hnothing hsolver)]
    · obtain ⟨u, hsealed, heq⟩ := hopen hex
      exact ⟨u, hsealed, by rw [heq]⟩
  · have h' : (unwaiting s).edit.groupState ≠ .ready := h
    refine ⟨nodesSwapped (unwaiting s), by rw [exec_swap howed', swapAll_swapTaken_of_not h'], fun _ => ?_,
      fun hready => absurd hready h⟩
    rw [exec_swap howed, swapAll_swapTaken_of_not h, setEdit_nodesSwapped]

end Sys2Proof.Machine
end

section
/-! PROOF. The obligation of the swap, with its counts taken slot by slot (O20). -/

namespace Sys2Proof.Machine

open Sys2Proof Sys2Proof.Stating

set_option Elab.async false

/-! ### The counts of the statement -/

section
variable {s : State} {n : Nat}

theorem swaps_iff : (if (s.node n).groupMark then s.edit.groupState = .ready else (s.node n).nextValid = true) ↔
    (s.node n).swaps (swapReady s) = true := by
  unfold Node.swaps
  split
  · exact (swapReady_iff s).symm
  · exact Iff.rfl

theorem heldAt_eq {ready : Bool} (p : Slot) : heldAt ready s p n =
    if (s.node n).swaps ready then (s.node n).claims.countP fun c => c.projector = p else 0 := by
  unfold heldAt Node.swapSlots
  split
  · rw [List.count_eq_countP, List.countP_map]
    exact List.countP_congr fun c _ => by simp
  · rfl

theorem freedAt_eq {ready : Bool} (p : Slot) : freedAt ready s p n =
    if (s.node n).swaps ready then (s.node n).claims.countP fun c => c.projector = p && (s.node n).leaves c else 0 := by
  unfold freedAt Node.leavingSlots Node.freedSlots
  split
  · rw [List.count_eq_countP, List.countP_map, List.countP_filter]
    exact List.countP_congr fun c _ => by simp
  · rfl

theorem turnsDark_iff (hn : n < 2049) : (s.node n).turnsDark (swapReady s) = true ↔
    (s.node n).swaps (swapReady s) = true ∧ ((swapped s).node n).condition = .dark ∧ (s.node n).condition ≠ .dark := by
  rw [node_swapped s hn, Node.turnsDark, Bool.and_eq_true, decide_eq_true_eq]

end

theorem Node.groupSwapped_eq (r : Node) : r.groupSwapped = { r.swapTo ((r.claims.filter fun c =>
    !(c.pendingRemoval || c.withdrawn)).map fun c => { c with
      livePos := if c.pendingPos.isSome then c.pendingPos else c.livePos
      pendingPos := none
      livePin := match c.pendingPin with | some (.set v) => some v | some .clear => none | none => c.livePin
      pendingPin := none, pendingNew := false
      liveWeight := c.nextWeight, liveTrim := c.nextTrim.getD c.liveTrim, nextTrim := none }) with groupMark := false } := by
  unfold Node.groupSwapped
  rw [funext Claim.promoted_swapped]
  rfl

theorem mem_swapGone {s : State} {p : Slot} : p ∈ swapGone s ↔ (s.proj p).state = .retiring ∧
    0 < ((List.range 2049).map (freedAt (swapReady s) s p)).sum ∧
      (s.proj p).claimCount ≤ ((List.range 2049).map (freedAt (swapReady s) s p)).sum := mem_goneBelow _ _

/-- Settles O20: the visits of the nodes are followed as one sweep of reports, then the end of the group. -/
theorem swapMovesNextPartsLive : Obligations.SwapMovesNextPartsLive := by
  unfold Obligations.SwapMovesNextPartsLive
  refine ⟨fun s howed hwaiting hnothing => ?_, fun s howed hwaiting => exec_swap_waiting howed hwaiting, fun claims =>
    ⟨conditionOf_unclaimed_iff claims, conditionOf_dark_iff claims, conditionOf_covered_iff claims⟩⟩
  intro swaps leaves held' freed' held freed emptied
  have hswaps (n : Nat) : swaps n ↔ (s.node n).swaps (swapReady s) = true := swaps_iff
  have hheldAt (p : Slot) : held' p = heldAt (swapReady s) s p := funext fun n => by
    rw [heldAt_eq]
    exact if_congr (hswaps n) rfl rfl
  have hfreedAt (p : Slot) : freed' p = freedAt (swapReady s) s p := funext fun n => by
    rw [freedAt_eq]
    exact if_congr (hswaps n) rfl rfl
  have hheld (p : Slot) : held p = ((List.range 2049).map (heldAt (swapReady s) s p)).sum := by
    rw [← hheldAt]
  have hfreed (p : Slot) : freed p = ((List.range 2049).map (freedAt (swapReady s) s p)).sum := by
    rw [← hfreedAt]
  have hemptied (p : Slot) : emptied p ↔ p ∈ swapGone s := by
    rw [mem_swapGone, ← hfreed]
  clear_value held freed
  refine ⟨swapped s, endedBelow (swapReady s) s 2049, swapGone s, exec_swap_of_nothing howed hwaiting hnothing, ?solver,
    claimStep_swapped s hemptied, fun hready => ?ready, fun hnot => ?stays, fun n hn => ?node, ?dark, ?free,
    fun p => ⟨fun hp => ?kept, fun hp => slotEmptied_swapped s ((hemptied p).1 hp)⟩, nodup_endedBelow _ s, ?failedOrder,
    fun p hp => ?failed, fun p hp hpos hle => ?failedAll, failovers_swapped s, nodup_zeroed _ _, ?goneOrder,
    fun p => (hemptied p).symm, fadesDone_swapped s, fun ⟨p, hp⟩ => ?settled, fun hnone => ?stand,
    fun k h0 h1 h2 h6 h8 => ?others, (yields_swapped s).follows⟩
  case solver => rw [(swapped_touches s).solver, solver_nodesSwapped]
  case ready =>
    refine ⟨?_, eventRecord_swapped_done hready⟩
    rw [swapped_of_ready hready, edit_swapEnded]
  case stays =>
    have hrecord := (swept_nodesSwapped s).eventRecord (k := 1) (by decide)
    rw [swapped_of_not hnot]
    exact ⟨edit_nodesSwapped s, hrecord⟩
  case node =>
    rw [node_swapped s hn]
    refine ⟨fun hg hv => ?single, fun hg hready => ?group, fun hg hv => ?unmarked, fun hg hnot => ?member⟩
    case single => exact Node.visited_of_single hg hv
    case group =>
      rw [(swapReady_iff s).2 hready, Node.visited_of_group hg, Node.groupSwapped_eq]
      rfl
    case unmarked => exact Node.visited_of_stays (by rw [Node.swaps, hg]; exact hv)
    case member => exact Node.visited_of_stays (by
      rw [Node.swaps, if_pos hg]
      exact Bool.eq_false_iff.2 (mt (swapReady_iff s).1 hnot))
  case dark =>
    rw [darkNodes_swapped]
    refine congrArg (List.foldl _ _) (List.filter_congr fun n hn => Bool.eq_iff_iff.2 ?_)
    rw [turnsDark_iff (List.mem_range.1 hn), decide_eq_true_eq, hswaps]
  case free =>
    rw [freeCount_swapped]
    refine congrArg (fun l : List Nat => s.dome.freeCount + l.sum) (List.map_congr_left fun n _ => ?_)
    exact (if_congr (hswaps n) rfl rfl).symm
  case kept =>
    rw [hheld, hfreed]
    exact record_swapped s (mt (hemptied p).2 hp)
  case failedOrder =>
    simp only [hheldAt]
    exact pairwise_endedBelow _ s
  case failed =>
    obtain ⟨hfailed, -⟩ := (mem_endedBelow _ s).1 hp
    rw [hheld]
    exact hfailed
  case failedAll =>
    rw [hheld] at hle
    refine ended_of_kept _ s hpos hle ?_
    rw [hemptied, hfreed, hheld] at hp
    exact hp
  case goneOrder =>
    simp only [hfreedAt]
    exact pairwise_goneBelow _ s
  case settled => exact targetsSettled_swapped s (List.ne_nil_of_mem ((hemptied p).1 hp))
  case stand =>
    refine targetsStand_swapped s (List.eq_nil_iff_forall_not_mem.2 fun p hp => ?_)
    exact hnone p ((hemptied p).2 hp)
  case others =>
    rw [eventRecord_swapped_of_swept s h1 h8, if_neg h0, if_neg h2, if_neg h6]
    rfl

end Sys2Proof.Machine
end
